-- ==== Sys2Proof/Word.lean ====
section
/-!
DEFINITION. The word types and their plainest arithmetic: the 64-bit register word, the byte, the bit field of a
word (R5), little-endian order (R4) and the sign extension of a field. Sparse tables keyed by number are here as plain data.
-/

namespace Sys2Proof

/-- A register, a scalar register or an instruction word (R6, R117). -/
abbrev Word := BitVec 64

/-- One byte of a store, of HBM or of a message. -/
abbrev Byte := BitVec 8

/-- A sparse table: the listed keys rising, every other key at the table's default. Plain data. -/
structure Tab (α : Type) where
  entries : List (Nat × α)
  deriving DecidableEq, Repr

/-- The field of `v` of `w` bits whose least significant bit is `lo` (R5). -/
def bits (v lo w : Nat) : Nat := v / 2 ^ lo % 2 ^ w

/-- `v` with the field of `w` bits at `lo` replaced by `x`. -/
def putBits (v lo w x : Nat) : Nat := v - bits v lo w * 2 ^ lo + x % 2 ^ w * 2 ^ lo

/-- A field of `w` bits read as a two's complement number. -/
def signed (w v : Nat) : Int := if v % 2 ^ w < 2 ^ (w - 1) then (v % 2 ^ w : Int) else (v % 2 ^ w : Int) - 2 ^ w

/-- An integer as a field of `w` bits, two's complement. -/
def field (w : Nat) (x : Int) : Nat := (x % 2 ^ w).toNat

/-- The little-endian bytes of a number: the byte at the lowest address holds bits 7 to 0 (R4). -/
def leBytes : Nat → Nat → List Byte
  | 0, _ => []
  | n + 1, v => BitVec.ofNat 8 v :: leBytes n (v / 256)

/-- The number that little-endian bytes hold (R4). -/
def leNat : List Byte → Nat
  | [] => 0
  | b :: bs => b.toNat + 256 * leNat bs

/-- `n ÷ m` rounded up. -/
def ceilDiv (n m : Nat) : Nat := (n + m - 1) / m

/-- The first `n` entries of a list, filled with `x` when it is shorter. -/
def takePad {α : Type} (n : Nat) (x : α) (l : List α) : List α := (l ++ List.replicate n x).take n

end Sys2Proof
end

