-- ==== Sys2Proof/Syntax.lean ====
section
/-!
DEFINITION. The commands of the block (spec/opcode_table.json), and the plain data that they carry.
-/

namespace Sys2Proof

/-- Who sends a register access (R43, R357): the management processor, the owner port (ROLE 1), or the host of a partition
through its bound port (ROLE 0). -/
inductive Requester where
  | mgmt
  | owner
  | part (p : Fin 4)
  deriving DecidableEq, Repr

/-- A packet (R224, R225): the header's fields, the payload's bytes, whether its skein asks for a signal, which no header bit says (notes/assumptions/20.md), and the bytes of the
unit by which it came, as long as it goes on unchanged. -/
structure Packet where
  ch : Nat
  lenm1 : Nat
  dst : Nat
  src : Nat
  slice : Nat
  rflow : Nat
  sflow : Nat
  seq : Nat
  epoch : Nat
  last : Bool
  ovf : Bool
  retx : Bool
  via : Bool
  ply : Bool
  tag : Bool
  mcid : Nat
  off : Nat
  sync : Nat
  pctr : Nat
  sig : Bool
  payload : List (BitVec 8)
  wire : List (BitVec 8) := []
  deriving DecidableEq, Repr

/-- A unit as it arrives on a lane (R222, R223): input engine, fibre and receive lane, the part at the other end of the lane's line, the 58 scrambled bits that came before it,
oldest first, and its blocks of 128 scrambled payload bits and 8 check bits. -/
structure Arrival where
  engine : Fin 8
  fibre : Fin 18
  lane : Fin 8
  sender : Fin 65536
  before : BitVec 58
  blocks : List (BitVec 136)
  deriving DecidableEq, Repr

/-- Who hands over a skein (R237): a core, a Ply engine or a port's queue. -/
inductive SkeinFrom where
  | core (c : Fin 1024)
  | ply (e : Fin 8)
  | host (p : Fin 4)
  deriving DecidableEq, Repr

/-- An in-service check that fails (R77): the array, the cell, and whether it is the accumulator parity or the residue. Log entry notes/assumptions/51.md (DEDUCED). -/
structure ArrayCheck where
  array : Fin 4
  row : Fin 32
  col : Fin 32
  parity : Bool
  deriving DecidableEq, Repr

/-- A beacon (R186): OFFSET in units of 125 ps, the periods in µs. -/
structure Beacon where
  root : Nat
  hops : Nat
  count : Nat
  offset : Nat
  period : Nat
  nextPeriod : Nat
  nextAt : Nat
  sender : Nat
  deriving DecidableEq, Repr

/-- Who makes an HBM request and what for (R161): a core's DMA mover or scalar access, a flow of a fabric channel, a Ply engine, buddy copy, the management
processor, the reshard permute, a control port, or a diagnostic. -/
inductive HbmUse where
  | core
  | flow (ch : Fin 3)
  | ply
  | buddy
  | mgmt
  | reshard
  | port
  | diagnostic
  deriving DecidableEq, Repr

/-- A request to HBM (R158 to R161, R167): the endpoint that sends it, its partition (none: the management processor's rights), what it is for, its
ingress port, its tag, its address in HBM or in a transposing view, the length in bytes, the bytes to write, if it writes, and whether it meets a double-bit error
on its way to the controller or on its way back. -/
structure HbmAccess where
  src : Nat
  who : Option (Fin 4)
  use : HbmUse
  port : Fin 16
  tag : Nat
  addr : Nat
  len : Nat
  data : Option (List (BitVec 8))
  reqBad : Bool := false
  respBad : Bool := false
  deriving DecidableEq, Repr

/-- A frame from the host of a control port (R349): the four words of its header, the payload's bytes, and its trailer with the CRC-32. -/
structure HostFrame where
  w0 : BitVec 64
  w1 : BitVec 64
  w2 : BitVec 64
  w3 : BitVec 64
  payload : List (BitVec 8)
  trailer : BitVec 128
  deriving DecidableEq, Repr

/-- A lane with a block receiver (R222): receive lane k of a light engine, or lane l of a control port. -/
inductive LaneAt where
  | light (e : Fin 8) (k : Fin 144)
  | port (p : Fin 4) (l : Fin 4)
  deriving DecidableEq, Repr

/-- A margin run that the monitor waits for (R421): the HBM run, a receive lane run of an engine, the bond run. -/
inductive Margin where
  | hbm
  | lane (e : Nat)
  | bond
  deriving DecidableEq, Repr

/-- The characters of one word of a monitor line, as they are received (R416, R420): the row of a command carries its arguments so, and a space stands before each. Log entry
notes/assumptions/40.md (DESIGN CHOICE). -/
abbrev Text := List Char

/-- What the monitor's receiver meets beside a line of a command (R416, R420): a break, a line of so many characters with `n` framing errors, or another line. -/
inductive LineFault where
  | break_
  | framing (n chars : Nat)
  | other (line : Text)
  deriving DecidableEq, Repr

/-- The commands of the block: one constructor per row of the opcode table, with the rule that its row names. A core instruction carries the core and the word that it
executes (R117 to R120); a write of a register carries who writes and the value; a message, a frame or a reading carries its fields. An event with no operand happens to the one
unit that the row names. Log entry notes/assumptions/80.md (DESIGN CHOICE). -/
inductive Instr where
  /-- `REGISTER_WRITE`, R7. -/
  | registerWrite (q : Requester) (a : Fin 4398046511104) (size : Fin 65) (v : BitVec 64)
  /-- `SNOP`, R127. -/
  | snop (c : Fin 1024) (w : BitVec 64)
  /-- `SADD`, R128. -/
  | sadd (c : Fin 1024) (w : BitVec 64)
  /-- `SSUB`, R128. -/
  | ssub (c : Fin 1024) (w : BitVec 64)
  /-- `SMUL`, R128. -/
  | smul (c : Fin 1024) (w : BitVec 64)
  /-- `SAND`, R127. -/
  | sand (c : Fin 1024) (w : BitVec 64)
  /-- `SOR`, R127. -/
  | sor (c : Fin 1024) (w : BitVec 64)
  /-- `SXOR`, R127. -/
  | sxor (c : Fin 1024) (w : BitVec 64)
  /-- `SSHL`, R128. -/
  | sshl (c : Fin 1024) (w : BitVec 64)
  /-- `SSHR`, R128. -/
  | sshr (c : Fin 1024) (w : BitVec 64)
  /-- `SSRA`, R128. -/
  | ssra (c : Fin 1024) (w : BitVec 64)
  /-- `SSLT`, R127. -/
  | sslt (c : Fin 1024) (w : BitVec 64)
  /-- `SSLTU`, R127. -/
  | ssltu (c : Fin 1024) (w : BitVec 64)
  /-- `SLI`, R128. -/
  | sli (c : Fin 1024) (w : BitVec 64)
  /-- `SLIH`, R128. -/
  | slih (c : Fin 1024) (w : BitVec 64)
  /-- `SLD`, R130. -/
  | sld (c : Fin 1024) (w : BitVec 64)
  /-- `SCALAR_LOAD_COMPLETE`, R130. -/
  | scalarLoadComplete (c : Fin 1024)
  /-- `SST`, R130. -/
  | sst (c : Fin 1024) (w : BitVec 64)
  /-- `SBR`, R129. -/
  | sbr (c : Fin 1024) (w : BitVec 64)
  /-- `SJAL`, R129. -/
  | sjal (c : Fin 1024) (w : BitVec 64)
  /-- `SJALR`, R129. -/
  | sjalr (c : Fin 1024) (w : BitVec 64)
  /-- `SWAITQ`, R131. -/
  | swaitq (c : Fin 1024) (w : BitVec 64)
  /-- `SSTAT`, R131. -/
  | sstat (c : Fin 1024) (w : BitVec 64)
  /-- `SINFO`, R131. -/
  | sinfo (c : Fin 1024) (w : BitVec 64)
  /-- `SHALT`, R131. -/
  | shalt (c : Fin 1024) (w : BitVec 64)
  /-- `CORE_HALT_COMPLETE`, R151. -/
  | coreHaltComplete (c : Fin 1024)
  /-- `MOP`, R49. -/
  | mop (c : Fin 1024) (w : BitVec 64) (chk : Option ArrayCheck)
  /-- `MOP_COMPLETE`, R54. -/
  | mopComplete (c : Fin 1024)
  /-- `MDRN`, R70. -/
  | mdrn (c : Fin 1024) (w : BitVec 64) (chk : Option ArrayCheck)
  /-- `MDRN_COMPLETE`, R70. -/
  | mdrnComplete (c : Fin 1024)
  /-- `MSEED`, R134. -/
  | mseed (c : Fin 1024) (w : BitVec 64)
  /-- `MTX_TEST_START`, R78. -/
  | mtxTestStart (r : Requester) (core : Fin 1024)
  /-- `MTX_TEST_END`, R78. -/
  | mtxTestEnd (bad : Option (Fin 4))
  /-- `VADD`, R96. -/
  | vadd (c : Fin 1024) (w : BitVec 64)
  /-- `VSUB`, R96. -/
  | vsub (c : Fin 1024) (w : BitVec 64)
  /-- `VMUL`, R96. -/
  | vmul (c : Fin 1024) (w : BitVec 64)
  /-- `VFMA`, R96. -/
  | vfma (c : Fin 1024) (w : BitVec 64)
  /-- `VMAX`, R97. -/
  | vmax (c : Fin 1024) (w : BitVec 64)
  /-- `VMIN`, R97. -/
  | vmin (c : Fin 1024) (w : BitVec 64)
  /-- `VABS`, R96. -/
  | vabs (c : Fin 1024) (w : BitVec 64)
  /-- `VNEG`, R96. -/
  | vneg (c : Fin 1024) (w : BitVec 64)
  /-- `VBIT`, R96. -/
  | vbit (c : Fin 1024) (w : BitVec 64)
  /-- `VSHL`, R96. -/
  | vshl (c : Fin 1024) (w : BitVec 64)
  /-- `VSHR`, R96. -/
  | vshr (c : Fin 1024) (w : BitVec 64)
  /-- `VCMP`, R97. -/
  | vcmp (c : Fin 1024) (w : BitVec 64)
  /-- `VSEL`, R96. -/
  | vsel (c : Fin 1024) (w : BitVec 64)
  /-- `VCVT`, R95. -/
  | vcvt (c : Fin 1024) (w : BitVec 64)
  /-- `VQFP4`, R100. -/
  | vqfp4 (c : Fin 1024) (w : BitVec 64)
  /-- `VFN`, R98. -/
  | vfn (c : Fin 1024) (w : BitVec 64)
  /-- `VSCAN`, R102. -/
  | vscan (c : Fin 1024) (w : BitVec 64)
  /-- `VSRED`, R103. -/
  | vsred (c : Fin 1024) (w : BitVec 64)
  /-- `VSARG`, R104. -/
  | vsarg (c : Fin 1024) (w : BitVec 64)
  /-- `VCMPRS`, R105. -/
  | vcmprs (c : Fin 1024) (w : BitVec 64)
  /-- `VEXPND`, R106. -/
  | vexpnd (c : Fin 1024) (w : BitVec 64)
  /-- `VGATH`, R107. -/
  | vgath (c : Fin 1024) (w : BitVec 64)
  /-- `VSCAT`, R107. -/
  | vscat (c : Fin 1024) (w : BitVec 64)
  /-- `VSEED`, R99. -/
  | vseed (c : Fin 1024) (w : BitVec 64)
  /-- `STREAM_OP_COMPLETE`, R93. -/
  | streamOpComplete (c : Fin 1024)
  /-- `VRLD`, R136. -/
  | vrld (c : Fin 1024) (w : BitVec 64)
  /-- `VRST`, R136. -/
  | vrst (c : Fin 1024) (w : BitVec 64)
  /-- `VRSET`, R136. -/
  | vrset (c : Fin 1024) (w : BitVec 64)
  /-- `VRGET`, R136. -/
  | vrget (c : Fin 1024) (w : BitVec 64)
  /-- `REQUEST_PROMOTION`, R83. -/
  | requestPromotion (c : Fin 1024)
  /-- `XDMA`, R137. -/
  | xdma (c : Fin 1024) (w : BitVec 64)
  /-- `XILD`, R138. -/
  | xild (c : Fin 1024) (w : BitVec 64)
  /-- `XCNT`, R139. -/
  | xcnt (c : Fin 1024) (w : BitVec 64)
  /-- `DMA_DESCRIPTOR_START`, R110. -/
  | dmaDescriptorStart (c : Fin 1024)
  /-- `DMA_DESCRIPTOR_COMPLETE`, R113. -/
  | dmaDescriptorComplete (c : Fin 1024) (i : Fin 4)
  /-- `YSIG`, R141. -/
  | ysig (c : Fin 1024) (w : BitVec 64)
  /-- `YWAIT`, R142. -/
  | ywait (c : Fin 1024) (w : BitVec 64)
  /-- `YWAIT_TIMEOUT`, R142. -/
  | ywaitTimeout (c : Fin 1024)
  /-- `YBAR`, R143. -/
  | ybar (c : Fin 1024) (w : BitVec 64)
  /-- `YREAD`, R144. -/
  | yread (c : Fin 1024) (w : BitVec 64)
  /-- `TREAD`, R145. -/
  | tread (c : Fin 1024) (w : BitVec 64)
  /-- `TWAIT`, R145. -/
  | twait (c : Fin 1024) (w : BitVec 64)
  /-- `TDUE`, R146. -/
  | tdue (c : Fin 1024) (w : BitVec 64)
  /-- `TDONE`, R146. -/
  | tdone (c : Fin 1024) (w : BitVec 64)
  /-- `TSKEIN`, R147. -/
  | tskein (c : Fin 1024) (w : BitVec 64)
  /-- `TPHASE`, R148. -/
  | tphase (c : Fin 1024) (w : BitVec 64)
  /-- `CORE_START`, R151. -/
  | coreStart (r : Requester) (c : Fin 1024) (entry : Fin 8192)
  /-- `CORE_STOP`, R151. -/
  | coreStop (r : Requester) (c : Fin 1024) (entry : Fin 8192)
  /-- `CORE_LOAD`, R151. -/
  | coreLoad (r : Requester) (c : Fin 1024) (entry : Fin 8192)
  /-- `CORE_LOAD_COMPLETE`, R151. -/
  | coreLoadComplete (c : Fin 1024)
  /-- `FLIT_RECEIVE`, R29. -/
  | flitReceive (n : Fin 128) (up : Bool) (num : Nat) (vn : Fin 2) (words : List (BitVec 32)) (corrected : Nat) (bad : Bool)
  /-- `BOND_NAK_RECEIVE`, R29. -/
  | bondNakReceive (n : Fin 128) (up : Bool) (num : Nat)
  /-- `BOND_CREDIT_RETURN`, R30. -/
  | bondCreditReturn (n : Fin 128) (up : Bool) (vn : Fin 2) (k : Fin 65)
  /-- `NETWORK_MESSAGE`, R31. -/
  | networkMessage (n : Fin 128) (up : Bool) (vn : Fin 2)
  /-- `BOND_TRAINING_START`, R38. -/
  | bondTrainingStart (n : Fin 128)
  /-- `LANE_TEST_END`, R38. -/
  | laneTestEnd (n : Fin 128) (up down : List (Fin 4 × Fin 165))
  /-- `CAPABILITY_BLOCK`, R36. -/
  | capabilityBlock (n : Fin 128) (w0 w1 w2 w3 : BitVec 64)
  /-- `REPAIR_MAP`, R38. -/
  | repairMap (n : Fin 128) (up : Bool) (map : List (BitVec 8))
  /-- `WIDTH_BEACON`, R40. -/
  | widthBeacon (n : Fin 128) (v : BitVec 64)
  /-- `WIDTH_BEACON_SEND`, R40. -/
  | widthBeaconSend (n : Fin 128)
  /-- `RETRAIN_RETRY_TIMER`, R41. -/
  | retrainRetryTimer (n : Fin 128)
  /-- `LBI_PORT_DISABLE`, R41. -/
  | lbiPortDisable (r : Requester) (n : Fin 128)
  /-- `LBI_PORT_RETRAIN`, R38. -/
  | lbiPortRetrain (r : Requester) (n : Fin 128)
  /-- `LBI_MARGIN_START`, R42. -/
  | lbiMarginStart (r : Requester) (v : BitVec 64)
  /-- `LBI_MARGIN_END`, R42. -/
  | lbiMarginEnd (edges : List (Fin 32 × Fin 32))
  /-- `DIE_ALIVE_FALL`, R44. -/
  | dieAliveFall (die : Fin 2)
  /-- `FORWARDED_CLOCK_LOSS`, R44. -/
  | forwardedClockLoss (die : Fin 2) (ports : BitVec 64)
  /-- `DIE_ALIVE_RISE`, R385. -/
  | dieAliveRise (die : Fin 2) (bad : List (Fin 576))
  /-- `DIE_REJOIN_RESUME`, R385. -/
  | dieRejoinResume (die : Fin 2) (bad : List (Fin 576))
  /-- `LBI_WRAP_OPEN`, R48. -/
  | lbiWrapOpen (q : Requester) (die : Fin 2)
  /-- `HBM_REQUEST`, R163. -/
  | hbmRequest (x : HbmAccess)
  /-- `HBM_CREEL_GRANT`, R160. -/
  | hbmCreelGrant (c : Fin 256) (pseudo : Fin 2) (elapsed : Nat) (blocked : List (Fin 385))
  /-- `PATROL_SCRUB`, R168. -/
  | patrolScrub (c : Fin 256)
  /-- `STACK_TEMP_READING`, R170. -/
  | stackTempReading (s : Fin 8) (temp : Int)
  /-- `STACK_NO_READING`, R170. -/
  | stackNoReading (s : Fin 8) (long : Bool)
  /-- `HBM_INIT_COMPLETE`, R173. -/
  | hbmInitComplete (failed : List (Fin 256 × List (Fin 82)))
  /-- `HBM_CFG_WRITE`, R157. -/
  | hbmCfgWrite (r : Requester) (v : BitVec 64)
  /-- `HBM_PART_WRITE`, R180. -/
  | hbmPartWrite (r : Requester) (p : Fin 4) (v : BitVec 64)
  /-- `HBM_KEY_DROP`, R181. -/
  | hbmKeyDrop (r : Requester) (mask : Fin 16)
  /-- `HBM_MARGIN_START`, R176. -/
  | hbmMarginStart (r : Requester) (v : BitVec 64)
  /-- `HBM_MARGIN_END`, R175. -/
  | hbmMarginEnd (edges : List (Fin 64 × Fin 64))
  /-- `HBM_CREEL_COMMIT`, R162. -/
  | hbmCreelCommit (r : Requester)
  /-- `LANE_CREEL_COMMIT`, R241. -/
  | laneCreelCommit (r : Requester)
  /-- `TWIST_BOUNDARY`, R193. -/
  | twistBoundary
  /-- `PLAN_SLOT_START`, R221. -/
  | planSlotStart
  /-- `BEACON_RECEIVE`, R187. -/
  | beaconReceive (a : Arrival) (arrival : Int)
  /-- `CALIBRATION_START`, R188. -/
  | calibrationStart
  /-- `CALIBRATION_REQUEST`, R188. -/
  | calibrationRequest (a : Arrival)
  /-- `CALIBRATION_ANSWER`, R188. -/
  | calibrationAnswer (a : Arrival)
  /-- `HOLDOVER_EXPIRY`, R189. -/
  | holdoverExpiry
  /-- `TWIST_CFG_WRITE`, R189. -/
  | twistCfgWrite (r : Requester) (v : BitVec 64)
  /-- `TWIST_COMMIT`, R191. -/
  | twistCommit (r : Requester)
  /-- `SLIP_NOTICE`, R194. -/
  | slipNotice (slice : Fin 65536) (c : BitVec 64)
  /-- `SYNC_SIGNAL_APPLY`, R199. -/
  | syncSignalApply (bank : Fin 64)
  /-- `SYNC_WAIT_START`, R201. -/
  | syncWaitStart (bank : Fin 64)
  /-- `SYNC_ZERO_START`, R202. -/
  | syncZeroStart (r : Requester) (first : Fin 65536) (count : Fin 131072)
  /-- `SYNC_ZERO_END`, R202. -/
  | syncZeroEnd
  /-- `SYNC_DIE_CLEAR`, R203. -/
  | syncDieClear (r : Requester) (mask : Fin 4)
  /-- `BARRIER_LOCAL_ARRIVAL`, R208. -/
  | barrierLocalArrival (b : Fin 4096)
  /-- `BARRIER_ARRIVAL`, R209. -/
  | barrierArrival (sender id gen : Fin 65536) (heat : Bool)
  /-- `BARRIER_DEADLINE`, R208. -/
  | barrierDeadline (b : Fin 4096)
  /-- `BARRIER_RELEASE`, R208. -/
  | barrierRelease (sender id gen : Fin 65536) (status : Fin 256) (sw : BitVec 64)
  /-- `BARRIER_LOCAL_TIMEOUT`, R210. -/
  | barrierLocalTimeout (b : Fin 4096)
  /-- `BARRIER_ABORT`, R211. -/
  | barrierAbort (r : Requester) (b : Fin 4096)
  /-- `HEAT_NOTICE_RECEIVE`, R212. -/
  | heatNoticeReceive (sender id gen : Fin 65536)
  /-- `GRACE_NOTICE`, R212. -/
  | graceNotice (sender id gen : Fin 65536)
  /-- `SYNC_BAR_WRITE`, R207. -/
  | syncBarWrite (r : Requester) (b : Fin 4096) (v : BitVec 64)
  /-- `SYNC_DBG_WRITE`, R213. -/
  | syncDbgWrite (r : Requester) (p : Fin 4) (v : BitVec 64)
  /-- `REPAIR_WRITE`, R214. -/
  | repairWrite (r : Requester) (id : Fin 65536) (v : BitVec 64)
  /-- `PACKET_RECEIVE`, R227. -/
  | packetReceive (a : Arrival) (sig : Bool)
  /-- `ACKNOWLEDGEMENT`, R235. -/
  | acknowledgement (a : Arrival)
  /-- `ACK_TIMER`, R235. -/
  | ackTimer (n : Fin 4096)
  /-- `GAP_TIMER`, R235. -/
  | gapTimer (n : Fin 4096)
  /-- `PRIME`, R248. -/
  | prime (a : Arrival)
  /-- `LANE_CREEL_GRANT`, R240. -/
  | laneCreelGrant (e : Fin 8) (f : Fin 18) (i : Fin 8) (pos : Nat)
  /-- `SKEIN_ACCEPT`, R238. -/
  | skeinAccept (o : SkeinFrom) (addr : Fin 4398046511104)
  /-- `SKEIN_COMPLETE`, R238. -/
  | skeinComplete (n : Fin 4096)
  /-- `FLOW_DEADLINE`, R244. -/
  | flowDeadline (n : Fin 4096)
  /-- `PLAN_PREPARE`, R248. -/
  | planPrepare (r : Requester) (p : Fin 4)
  /-- `PLAN_READY`, R248. -/
  | planReady (p : Fin 4)
  /-- `PLAN_ARM`, R249. -/
  | planArm (r : Requester) (p : Fin 4) (bar : Fin 4096)
  /-- `PLAN_SWITCH_ARRIVAL`, R249. -/
  | planSwitchArrival (p : Fin 4)
  /-- `PLAN_STOP`, R251. -/
  | planStop (r : Requester) (p : Fin 4)
  /-- `PLAN_DISCARD`, R251. -/
  | planDiscard (r : Requester) (p : Fin 4)
  /-- `FAB_PMAP_WRITE`, R218. -/
  | fabPmapWrite (r : Requester) (k : Fin 1152) (v : BitVec 64)
  /-- `FAB_FSLOT_WRITE`, R219. -/
  | fabFslotWrite (r : Requester) (k : Fin 576) (v : BitVec 64)
  /-- `FAB_TRN_WRITE`, R230. -/
  | fabTrnWrite (r : Requester) (j : Fin 64) (v : BitVec 64)
  /-- `PILOT_WINDOW`, R263. -/
  | pilotWindow (e : Fin 8) (m : Fin 2304) (dark : Bool) (pilots : List Int)
  /-- `RING_LOCK_REQUEST`, R264. -/
  | ringLockRequest (e : Fin 8) (m : Fin 2304) (feed : Fin 3)
  /-- `SEEK_SWEEP_END`, R264. -/
  | seekSweepEnd (e : Fin 8) (m : Fin 2304) (found : Bool) (bias : BitVec 16)
  /-- `CAPTURE_SETTLED`, R264. -/
  | captureSettled (e : Fin 8) (m : Fin 2304) (bias : BitVec 16)
  /-- `CAPTURE_TIMEOUT`, R264. -/
  | captureTimeout (e : Fin 8) (m : Fin 2304)
  /-- `RING_DARK`, R264. -/
  | ringDark (e : Fin 8) (m : Fin 2304)
  /-- `RING_LIGHT_RETURN`, R264. -/
  | ringLightReturn (e : Fin 8) (m : Fin 2304) (feed : Fin 3)
  /-- `LANE_RETRY`, R268. -/
  | laneRetry (r : Requester) (e : Fin 8) (m : Fin 4096)
  /-- `LANE_RXPERM_WRITE`, R258. -/
  | laneRxpermWrite (r : Requester) (e : Fin 8) (f : Fin 18) (v : BitVec 64)
  /-- `LANE_MARGIN_START`, R276. -/
  | laneMarginStart (r : Requester) (e : Fin 8) (v : BitVec 64)
  /-- `LANE_MARGIN_END`, R276. -/
  | laneMarginEnd (e : Fin 8) (low high : Fin 32)
  /-- `DISTAFF_WARM_DONE`, R260. -/
  | distaffWarmDone (e : Fin 8) (k : Fin 3)
  /-- `DISTAFF_POWER_READING`, R269. -/
  | distaffPowerReading (e : Fin 8) (k : Fin 3) (powers : List Int)
  /-- `DISTAFF_FORCE_READING`, R269. -/
  | distaffForceReading (e : Fin 8) (k : Fin 3) (first second : List Int)
  /-- `OPT_BASELINE_WRITE`, R261. -/
  | optBaselineWrite (r : Requester) (e : Fin 8) (m : Fin 24) (v : BitVec 64)
  /-- `OPT_SW_PLAN`, R270. -/
  | optSwPlan (r : Requester) (e : Fin 8) (g : Fin 2)
  /-- `OPT_SW_FORCE`, R271. -/
  | optSwForce (r : Requester) (e : Fin 8) (g : Fin 2)
  /-- `SWITCH_TURN_DONE`, R270. -/
  | switchTurnDone (e : Fin 8)
  /-- `PLY_PSLOT_WRITE`, R280. -/
  | plyPslotWrite (r : Requester) (e : Fin 8) (q : Fin 4) (v : BitVec 64)
  /-- `TILE_BIND`, R286. -/
  | tileBind (e : Fin 8) (p : Fin 4)
  /-- `PLY_ACCUMULATE`, R287. -/
  | plyAccumulate (e : Fin 8) (p : Fin 4)
  /-- `PLY_CONVERT`, R283. -/
  | plyConvert (n : Fin 4096)
  /-- `PLY_SELF_CONTRIBUTION`, R289. -/
  | plySelfContribution (n : Fin 4096)
  /-- `PLY_COMBINE`, R294. -/
  | plyCombine (e : Fin 8) (p : Fin 4)
  /-- `COMBINE_HOLD_EXPIRY`, R293. -/
  | combineHoldExpiry (e : Fin 8) (p : Fin 4)
  /-- `TILE_FINISH`, R290. -/
  | tileFinish (e : Fin 8) (p : Fin 4) (layer : Fin 65536) (old : Bool)
  /-- `PASS_TWO`, R306. -/
  | passTwo (e : Fin 8) (p : Fin 4) (layer : Fin 65536) (old : Bool)
  /-- `SOLVER_DONE`, R308. -/
  | solverDone (e : Fin 8) (p : Fin 4) (layer : Fin 65536) (old : Bool)
  /-- `LAYER_FINISH`, R312. -/
  | layerFinish (e : Fin 8) (p : Fin 4) (layer : Fin 65536) (old : Bool)
  /-- `VERDICT_SEND`, R300. -/
  | verdictSend (e : Fin 8) (p : Fin 4)
  /-- `GROUP_MESSAGE`, R310. -/
  | groupMessage (e : Fin 8) (p : Fin 4)
  /-- `VERDICT_RESULT`, R300. -/
  | verdictResult (e : Fin 8) (p : Fin 4)
  /-- `GROUP_RESULT`, R306. -/
  | groupResult (e : Fin 8) (p : Fin 4)
  /-- `GROUP_RESULT_TIMEOUT`, R301. -/
  | groupResultTimeout (p : Fin 4)
  /-- `PLY_SUBMIT`, R298. -/
  | plySubmit (r : Requester) (p : Fin 4)
  /-- `PLY_COMMIT`, R302. -/
  | plyCommit (r : Requester) (p : Fin 4)
  /-- `PLY_ROLLBACK`, R302. -/
  | plyRollback (r : Requester) (p : Fin 4)
  /-- `PLY_STEP_WRITE`, R297. -/
  | plyStepWrite (r : Requester) (p : Fin 4) (v : BitVec 64)
  /-- `PLY_LS_WRITE`, R336. -/
  | plyLsWrite (r : Requester) (p : Fin 4) (v : BitVec 64)
  /-- `VERIFY_RUN_START`, R326. -/
  | verifyRunStart (r : Requester) (e : Fin 8) (p : Fin 4) (v : BitVec 64)
  /-- `VERIFY_RUN_END`, R326. -/
  | verifyRunEnd (e : Fin 8) (p : Fin 4)
  /-- `PHASE_TIMER_TICK`, R342. -/
  | phaseTimerTick
  /-- `ZQL_TRAINING_START`, R346. -/
  | zqlTrainingStart (p : Fin 4)
  /-- `TRAIN_FRAME`, R346. -/
  | trainFrame (p : Fin 4) (f : HostFrame)
  /-- `ZQL_NAK`, R347. -/
  | zqlNak (p : Fin 4) (f : HostFrame)
  /-- `READ`, R350. -/
  | read (p : Fin 4) (f : HostFrame)
  /-- `WRITE`, R351. -/
  | write (p : Fin 4) (f : HostFrame)
  /-- `SQ_DOORBELL`, R355. -/
  | sqDoorbell (p : Fin 4) (f : HostFrame)
  /-- `CQ_DOORBELL`, R356. -/
  | cqDoorbell (p : Fin 4) (f : HostFrame)
  /-- `SIGNAL`, R206. -/
  | signal (p : Fin 4) (f : HostFrame)
  /-- `WAIT`, R352. -/
  | wait (p : Fin 4) (f : HostFrame)
  /-- `HOST_WAIT_TIMEOUT`, R352. -/
  | hostWaitTimeout (p : Fin 4) (tag : Fin 65536)
  /-- `IDENTITY`, R370. -/
  | identity (p : Fin 4) (f : HostFrame)
  /-- `ATTEST`, R370. -/
  | attest (p : Fin 4) (f : HostFrame)
  /-- `FW_BEGIN`, R368. -/
  | fwBegin (p : Fin 4) (f : HostFrame)
  /-- `FW_DATA`, R368. -/
  | fwData (p : Fin 4) (f : HostFrame)
  /-- `FW_END`, R368. -/
  | fwEnd (p : Fin 4) (f : HostFrame)
  /-- `SVN_RAISE`, R369. -/
  | svnRaise (p : Fin 4) (f : HostFrame)
  /-- `ACTIVATE`, R359. -/
  | activate (p : Fin 4) (f : HostFrame)
  /-- `RECLAIM`, R364. -/
  | reclaim (p : Fin 4) (f : HostFrame)
  /-- `RELEASE`, R364. -/
  | release (p : Fin 4) (f : HostFrame)
  /-- `RECLAIM_DEADLINE`, R365. -/
  | reclaimDeadline (p : Fin 4)
  /-- `KEY_SLICE`, R363. -/
  | keySlice (p : Fin 4) (f : HostFrame)
  /-- `KEY_MGMT`, R363. -/
  | keyMgmt (p : Fin 4) (f : HostFrame)
  /-- `KEY_DROP`, R363. -/
  | keyDrop (p : Fin 4) (f : HostFrame)
  /-- `QUEUE_ENTRY_START`, R355. -/
  | queueEntryStart (p : Fin 4)
  /-- `QUEUE_ENTRY_COMPLETE`, R356. -/
  | queueEntryComplete (p : Fin 4) (i : Fin 16)
  /-- `ZQL_SQ_WRITE`, R355. -/
  | zqlSqWrite (r : Requester) (q : Fin 4) (i : Fin 8) (v : BitVec 64)
  /-- `ZQL_CQ_WRITE`, R356. -/
  | zqlCqWrite (r : Requester) (q : Fin 4) (i : Fin 8) (v : BitVec 64)
  /-- `EVENT_SEND`, R353. -/
  | eventSend (p : Fin 4)
  /-- `PKG_RESET`, R373. -/
  | pkgReset
  /-- `PKG_RESET_RELEASE`, R379. -/
  | pkgResetRelease
  /-- `DETECTOR_TRIP`, R374. -/
  | detectorTrip (det : Fin 3)
  /-- `DETECTOR_RELEASE`, R374. -/
  | detectorRelease (det : Fin 3)
  /-- `REFCLK_LOSS`, R375. -/
  | refclkLoss
  /-- `DOMAIN_RELEASE`, R379. -/
  | domainRelease (straps : BitVec 20) (fuseOk : Bool)
  /-- `BOOT_ROM_DONE`, R382. -/
  | bootRomDone (badObjects : List (Fin 65536)) (bad : List (Fin 1152))
  /-- `RAIL_REQUEST`, R393. -/
  | railRequest (die : Fin 2) (cmd : Fin 5) (v : Fin 256)
  /-- `RAIL_RESPONSE`, R394. -/
  | railResponse (resp : Option (BitVec 32))
  /-- `RAIL_RETRY_TIMER`, R394. -/
  | railRetryTimer (die : Fin 2)
  /-- `RAIL_ALERT`, R394. -/
  | railAlert
  /-- `OPTICAL_RAIL_LOW`, R395. -/
  | opticalRailLow (r : Fin 3)
  /-- `OPTICAL_RAIL_RETURN`, R395. -/
  | opticalRailReturn (r : Fin 3)
  /-- `EVENT_LOG_WRITE`, R400. -/
  | eventLogWrite
  /-- `FREEZE_ARM`, R411. -/
  | freezeArm (r : Requester)
  /-- `FREEZE_NOW`, R411. -/
  | freezeNow (r : Requester)
  /-- `FREEZE_PIN`, R411. -/
  | freezePin
  /-- `FREEZE_DRIVE_END`, R412. -/
  | freezeDriveEnd
  /-- `PK`, R420. -/
  | pk (a : Text) (rest : List Text)
  /-- `PO`, R420. -/
  | po (a : Text) (rest : List Text)
  /-- `EV`, R420. -/
  | ev (args : List Text)
  /-- `FZ`, R420. -/
  | fz (args : List Text)
  /-- `SN`, R420. -/
  | sn (args : List Text)
  /-- `LN`, R420. -/
  | ln (e : Text) (rest : List Text)
  /-- `SO`, R420. -/
  | so (id : Text) (rest : List Text)
  /-- `SR`, R420. -/
  | sr (id : Text) (rest : List Text)
  /-- `TT`, R421. -/
  | tt (args : List Text)
  /-- `MG`, R421. -/
  | mg (target : Text) (args : List Text)
  /-- `BD`, R415. -/
  | bd (args : List Text)
  /-- `HP`, R420. -/
  | hp
  /-- `MONITOR_BREAK`, R416. -/
  | monitorBreak (f : LineFault)
  /-- `BAUD_REVERT`, R415. -/
  | baudRevert
  /-- `DBG_MON_CTL_WRITE`, R418. -/
  | dbgMonCtlWrite (r : Requester) (v : BitVec 64)
  /-- `DBG_UNLOCK_WRITE`, R419. -/
  | dbgUnlockWrite (r : Requester) (p : Fin 4) (v : BitVec 64)
  /-- `TAP_RESET`, R422. -/
  | tapReset
  /-- `EXTEST`, R424. -/
  | extest (balls cells : BitVec 33)
  /-- `IDCODE`, R423. -/
  | idcode
  /-- `SAMPLE_PRELOAD`, R424. -/
  | samplePreload (balls cells : BitVec 33)
  /-- `CLAMP`, R424. -/
  | clamp
  /-- `HIGHZ`, R424. -/
  | highz
  /-- `BYPASS`, R422. -/
  | bypass (code : Fin 256)
  /-- `BLOCK_ALIGNMENT_TAKEN`, R222. -/
  | blockAlignmentTaken (l : LaneAt)
  /-- `BLOCK_ALIGNMENT_LOSS`, R222. -/
  | blockAlignmentLoss (l : LaneAt)
  /-- `CLOCK_STEP_END`, R38. -/
  | clockStepEnd (n : Fin 128) (active standby : BitVec 4)
  /-- `BOND_ACKNOWLEDGEMENT`, R29. -/
  | bondAcknowledgement (n : Fin 128) (up : Bool) (num : Nat)
  /-- `SCALAR_STORE_COMPLETE`, R122. -/
  | scalarStoreComplete (c : Fin 1024)
  /-- `RESERVED_OPCODE`, R123. -/
  | reservedOpcode (c : Fin 1024) (w : BitVec 64)
  /-- `HBM_KEY_DROP_DONE`, R181. -/
  | hbmKeyDropDone
  /-- `PLAN_LOAD_COMPLETE`, R248. -/
  | planLoadComplete (p : Fin 4)
  /-- `CONTROL_PORT_PRBS_END`, R346. -/
  | controlPortPrbsEnd (p : Fin 4)
  /-- `HBM_RAIL_OUT_OF_TOLERANCE`, R395. -/
  | hbmRailOutOfTolerance (s : Fin 8)
  deriving DecidableEq, Repr

end Sys2Proof
end

