-- ==== Sys2Proof/WellFormed.lean ====
section
/-!
DEFINITION. When a command is well formed: a core instruction's row carries a word with its own opcode (R125, R127), a frame's row carries a frame of its own TYPE and
OP whose payload has the length that LEN gives (R349, R350, R354), and the fields of a message fit the bits that the spec gives them.
-/

namespace Sys2Proof

/-- The top byte of an instruction word, which names the instruction (R125). -/
def topByte (w : BitVec 64) : Nat := w.toNat / 2 ^ 56

/-- The opcode table of R127: the opcode and the word of a core instruction's row. -/
def Instr.opcode : Instr → Option (Nat × BitVec 64)
  | .snop _ w => some (0x00, w)
  | .sadd _ w => some (0x01, w)
  | .ssub _ w => some (0x02, w)
  | .smul _ w => some (0x03, w)
  | .sand _ w => some (0x04, w)
  | .sor _ w => some (0x05, w)
  | .sxor _ w => some (0x06, w)
  | .sshl _ w => some (0x07, w)
  | .sshr _ w => some (0x08, w)
  | .ssra _ w => some (0x09, w)
  | .sslt _ w => some (0x0A, w)
  | .ssltu _ w => some (0x0B, w)
  | .sli _ w => some (0x0C, w)
  | .slih _ w => some (0x0D, w)
  | .sld _ w => some (0x0E, w)
  | .sst _ w => some (0x0F, w)
  | .sbr _ w => some (0x10, w)
  | .sjal _ w => some (0x11, w)
  | .sjalr _ w => some (0x12, w)
  | .swaitq _ w => some (0x13, w)
  | .sstat _ w => some (0x14, w)
  | .sinfo _ w => some (0x15, w)
  | .shalt _ w => some (0x16, w)
  | .mop _ w _ => some (0x20, w)
  | .mdrn _ w _ => some (0x21, w)
  | .mseed _ w => some (0x22, w)
  | .vadd _ w => some (0x40, w)
  | .vsub _ w => some (0x41, w)
  | .vmul _ w => some (0x42, w)
  | .vfma _ w => some (0x43, w)
  | .vmax _ w => some (0x44, w)
  | .vmin _ w => some (0x45, w)
  | .vabs _ w => some (0x46, w)
  | .vneg _ w => some (0x47, w)
  | .vbit _ w => some (0x48, w)
  | .vshl _ w => some (0x49, w)
  | .vshr _ w => some (0x4A, w)
  | .vcmp _ w => some (0x4B, w)
  | .vsel _ w => some (0x4C, w)
  | .vcvt _ w => some (0x4D, w)
  | .vqfp4 _ w => some (0x4E, w)
  | .vfn _ w => some (0x4F, w)
  | .vscan _ w => some (0x50, w)
  | .vsred _ w => some (0x51, w)
  | .vsarg _ w => some (0x52, w)
  | .vcmprs _ w => some (0x53, w)
  | .vexpnd _ w => some (0x54, w)
  | .vgath _ w => some (0x55, w)
  | .vscat _ w => some (0x56, w)
  | .vseed _ w => some (0x57, w)
  | .vrld _ w => some (0x58, w)
  | .vrst _ w => some (0x59, w)
  | .vrset _ w => some (0x5A, w)
  | .vrget _ w => some (0x5B, w)
  | .xdma _ w => some (0x60, w)
  | .xild _ w => some (0x61, w)
  | .xcnt _ w => some (0x62, w)
  | .ysig _ w => some (0x80, w)
  | .ywait _ w => some (0x81, w)
  | .ybar _ w => some (0x82, w)
  | .yread _ w => some (0x83, w)
  | .tread _ w => some (0xA0, w)
  | .twait _ w => some (0xA1, w)
  | .tdue _ w => some (0xA2, w)
  | .tdone _ w => some (0xA3, w)
  | .tskein _ w => some (0xA4, w)
  | .tphase _ w => some (0xA5, w)
  | _ => none

/-- The frame of a control port's row, with the TYPE and, for a command, the OP that the row stands for (R350, R354). -/
def Instr.frame : Instr → Option (HostFrame × Nat × Option Nat)
  | .trainFrame _ f => some (f, 0, none)
  | .zqlNak _ f => some (f, 0, none)
  | .read _ f => some (f, 1, none)
  | .write _ f => some (f, 3, none)
  | .sqDoorbell _ f => some (f, 5, none)
  | .cqDoorbell _ f => some (f, 5, none)
  | .signal _ f => some (f, 6, none)
  | .wait _ f => some (f, 7, none)
  | .identity _ f => some (f, 10, some 0x01)
  | .attest _ f => some (f, 10, some 0x02)
  | .fwBegin _ f => some (f, 10, some 0x10)
  | .fwData _ f => some (f, 10, some 0x11)
  | .fwEnd _ f => some (f, 10, some 0x12)
  | .svnRaise _ f => some (f, 10, some 0x13)
  | .activate _ f => some (f, 10, some 0x20)
  | .reclaim _ f => some (f, 10, some 0x21)
  | .release _ f => some (f, 10, some 0x22)
  | .keySlice _ f => some (f, 10, some 0x30)
  | .keyMgmt _ f => some (f, 10, some 0x31)
  | .keyDrop _ f => some (f, 10, some 0x32)
  | _ => none

namespace HostFrame

/-- TYPE (R349). -/
def typeBits (f : HostFrame) : Nat := f.w0.toNat / 2 ^ 8 % 16

/-- LEN, the payload's blocks of 16 bytes (R349). -/
def lenBits (f : HostFrame) : Nat := f.w0.toNat / 2 ^ 40 % 2 ^ 9

/-- OP (R349). -/
def opBits (f : HostFrame) : Nat := f.w1.toNat / 2 ^ 24 % 2 ^ 8

/-- FN (R349). -/
def fnBits (f : HostFrame) : Nat := f.w1.toNat / 2 ^ 36 % 2 ^ 4

/-- The frame carries as many payload bytes as its LEN says. -/
def sized (f : HostFrame) : Bool := decide (f.payload.length = 16 * f.lenBits)

end HostFrame

/-- The TYPE codes that the part decodes from a host (R350); a frame of any other TYPE comes by the READ row. -/
def listedTypes : List Nat := [0, 1, 3, 5, 6, 7, 10]

/-- The OP codes of the command table (R354); a command of any other OP comes by the IDENTITY row. -/
def listedOps : List Nat := [0x01, 0x02, 0x10, 0x11, 0x12, 0x13, 0x20, 0x21, 0x22, 0x30, 0x31, 0x32]

/-- A frame suits the TYPE and OP of its row. -/
def HostFrame.suits (f : HostFrame) (type : Nat) (op : Option Nat) : Bool :=
  f.sized &&
    if type = 1 then f.typeBits = 1 || !listedTypes.contains f.typeBits
    else f.typeBits = type && match op with
      | none => true
      | some 0x01 => f.opBits = 0x01 || !listedOps.contains f.opBits
      | some k => f.opBits = k

/-- The blocks of a packet: 4 and 16 for each of 1 to 32 units (R224). -/
def Arrival.sizedPacket (a : Arrival) : Bool := let n := a.blocks.length; decide (20 ≤ n ∧ n ≤ 516 ∧ (n - 4) % 16 = 0)

/-- The blocks of a control unit (R223). -/
def Arrival.sizedControl (a : Arrival) : Bool := a.blocks.length = 2

/-- A word of a monitor line: printable ASCII without a space (R416). -/
def plainText (t : Text) : Bool := !t.isEmpty && t.all fun c => decide (32 < c.toNat ∧ c.toNat < 127)

/-- The fields of a command fit the bits that the spec gives them. -/
def Instr.fieldsFit : Instr → Bool
  | .packetReceive a _ => a.sizedPacket
  | .acknowledgement a => a.sizedControl
  | .prime a => a.sizedControl
  | .beaconReceive a _ => a.sizedControl
  | .calibrationRequest a => a.sizedControl
  | .calibrationAnswer a => a.sizedControl
  | .flitReceive _ _ _ _ words _ _ => decide (words.length = 16)
  | .hbmRequest x => decide (0 < x.len ∧ (x.addr + x.len ≤ 2 ^ 39 ∨ (2 ^ 41 ≤ x.addr ∧ x.addr + x.len ≤ 3 * 2 ^ 40))) && match x.data with
      | some bs => decide (bs.length = x.len)
      | none => true
  | .pilotWindow _ _ _ pilots => decide (pilots.length = 8)
  | .distaffPowerReading _ _ powers => decide (powers.length = 8)
  | .distaffForceReading _ _ first second => decide (first.length = 8 ∧ second.length = 8)
  | .bypass code => decide (4 < code.val)
  | .pk a l => (a :: l).all plainText
  | .po a l => (a :: l).all plainText
  | .ev l => l.all plainText
  | .fz l => l.all plainText
  | .sn l => l.all plainText
  | .ln a l => (a :: l).all plainText
  | .so a l => (a :: l).all plainText
  | .sr a l => (a :: l).all plainText
  | .tt l => l.all plainText
  | .mg a l => (a :: l).all plainText
  | .bd l => l.all plainText
  | .sqDoorbell _ f => f.fnBits ≠ 1
  | .cqDoorbell _ f => f.fnBits = 1
  | _ => true

/-- A well-formed command. -/
def Instr.wellFormed (i : Instr) : Bool :=
  i.fieldsFit &&
    (match i.opcode with
      | some (k, w) => topByte w = k
      | none => true) &&
    (match i.frame with
      | some (f, type, op) => f.suits type op
      | none => true)

end Sys2Proof
end

