-- ==== Sys2Proof/Decode.lean ====
section
/-!
DEFINITION. Words that spell a command. The opcode table gives no row any bits: a command reaches the part as a register access, a message, a frame, a line or a pin, never as a word
of the table's own. (The 64-bit instruction word of a core is an operand of its row, and its fields are decoded by the operand forms of R126.)
-/

namespace Sys2Proof

/-- The command that a word spells by the table's bits: none, since no row has bits. Log entry notes/assumptions/5.md (DESIGN CHOICE). -/
def decodeTableWord (_nbits _w : Nat) : Option Instr := none

end Sys2Proof
end

