-- ==== Sys2Proof/Machine/Hash.lean ====
section
/-!
DEFINITION. Checks and digests that the spec names: CRC-32 (R31, R224, R247), CRC-16/CCITT (R223), CRC-8 (R392) and SHA-384 (R311).
-/

namespace Sys2Proof.Machine

/-! ### CRC -/

/-- What four zero bits make of a reflected CRC-32 (polynomial 0x04C11DB7) whose low four bits are i: in one numeral, from bit 32 i up. -/
def crcTable : Nat :=
  0xBDBDF21CA00AE27886D3D2D49B64C2B0CB61B38CD6D6A3E8F00F9344EDB883205005713C4DB261586B6B51F476DC419026D930AC3B6E20C81DB7106400000000

/-- Four bits of a reflected CRC-32. -/
def crcNibble (c : Nat) : Nat := Nat.xor (c / 16) (bits crcTable (32 * (c % 16)) 32)

/-- One byte of a reflected CRC-32. -/
def crcByte (c b : Nat) : Nat := crcNibble (crcNibble (Nat.xor c b))

/-- CRC-32 with the IEEE 802.3 polynomial. -/
def crc32 (l : List Byte) : Nat := Nat.xor (l.foldl (fun c b => crcByte c b.toNat) 0xFFFFFFFF) 0xFFFFFFFF

/-- One bit of a CRC of `w` bits taken from the most significant bit. -/
def crcUp (w poly c : Nat) : Nat :=
  let x := 2 * c % 2 ^ w
  if c.testBit (w - 1) then Nat.xor x poly else x

/-- One byte of a CRC of `w` bits taken from the most significant bit. -/
def crcUpByte (w poly c b : Nat) : Nat :=
  let u := crcUp w poly
  u (u (u (u (u (u (u (u (Nat.xor c (b * 2 ^ (w - 8)))))))))) 

/-- CRC-16/CCITT: polynomial 0x1021, from 0xFFFF, the most significant bit first, with no final XOR. Log entry notes/assumptions/30.md (DESIGN CHOICE). -/
def crc16 (l : List Byte) : Nat := l.foldl (fun c b => crcUpByte 16 0x1021 c b.toNat) 0xFFFF

/-- CRC-8 with the polynomial x^8 + x^2 + x + 1, from 0. -/
def crc8 (l : List Byte) : Nat := l.foldl (fun c b => crcUpByte 8 0x07 c b.toNat) 0

/-! ### SHA-384 -/

/-- The round constants of SHA-384 in ten numerals: constant 8 n + i stands in bits 64 i and up of numeral n. -/
def shaTable : List Nat :=
  [0xAB1C5ED5DA6D8118923F82A4AF194F9B59F111F1B605D0193956C25BF348B538E9B5DBA58189DBBCB5C0FBCFEC4D3B2F7137449123EF65CD428A2F98D728AE22,
   0xC19BF174CF6926949BDC06A725C7123580DEB1FE3B1696B172BE5D74F27B896F550C7DC3D5FFB4E2243185BE4EE4B28C12835B0145706FBED807AA98A3030242,
   0x76F988DA831153B55CB0A9DCBD41FBD44A7484AA6EA6E4832DE92C6F592B0275240CA1CC77AC9C650FC19DC68B8CD5B5EFBE4786384F25E3E49B69C19EF14AD2,
   0x142929670A0E6E7006CA6351E003826FD5A79147930AA725C6E00BF33DA88FC2BF597FC7BEEF0EE4B00327C898FB213FA831C66D2DB43210983E5152EE66DFAB,
   0x92722C851482353B81C2C92E47EDAEE6766A0ABB3C77B2A8650A73548BAF63DE53380D139D95B3DF4D2C6DFC5AC42AED2E1B21385C26C92627B70A8546D22FFC,
   0x106AA07032BBD1B8F40E35855771202AD69906245565A910D192E819D6EF5218C76C51A30654BE30C24B8B70D0F89791A81A664BBC423001A2BFE8A14CF10364,
   0x682E6FF3D6B2B8A35B9CCA4F7763E3734ED8AA4AE3418ACB391C0CB3C5C95A6334B0BCB5E19B48A82748774CDF8EEB991E376C085141AB5319A4C116B8D2D0C8,
   0xC67178F2E372532BBEF9A3F7B2C67915A4506CEBDE82BDE990BEFFFA23631E288CC702081A6439EC84C87814A1F0AB7278A5636F43172F60748F82EE5DEFB2FC,
   0x1B710B35131C471B113F9804BEF90DAE0A637DC5A2C898A606F067AA72176FBAF57D4F7FEE6ED178EADA7DD6CDE0EB1ED186B8C721C0C207CA273ECEEA26619C,
   0x6C44198C4A4758175FCB6FAB3AD6FAEC597F299CFC657E2A4CC5D4BECB3E42B6431D67C49C100D4C3C9EBE0A15C9BEBC32CAAB7B40C7249328DB77F523047D84]

/-- The 80 round constants. -/
def shaK : List Word := shaTable.flatMap fun x => (List.range 8).map fun i => BitVec.ofNat 64 (bits x (64 * i) 64)

/-- The initial state of SHA-384, in one numeral. -/
def shaInit : List Word :=
  (List.range 8).map fun i => BitVec.ofNat 64 (bits
    0x47B5481DBEFA4FA4DB0C2E0D64F98FA78EB44A876858151167332667FFC00B31152FECD8F70E59399159015A3070DD17629A292A367CD507CBBB9D5DC1059ED8 (64 * i) 64)

/-- Message padding: a one bit, zeros, and the length in bits as 16 big-endian bytes. -/
def shaPad (l : List Byte) : List Byte :=
  let n := l.length
  l ++ [0x80] ++ List.replicate ((239 - n % 128) % 128) 0 ++ (leBytes 16 (8 * n)).reverse

/-- The sixteen big-endian words of a block. -/
def shaWords (l : List Byte) : List Word :=
  (List.range 16).map fun i => BitVec.ofNat 64 (leNat ((l.drop (8 * i)).take 8).reverse)

/-- The message schedule, newest word first. -/
def shaSchedule : Nat → List Word → List Word
  | 0, w => w
  | n + 1, w =>
    let g (i : Nat) : Word := (w[i]?).getD 0
    let a := g 14
    let b := g 1
    let s0 := a.rotateRight 1 ^^^ a.rotateRight 8 ^^^ (a >>> 7)
    let s1 := b.rotateRight 19 ^^^ b.rotateRight 61 ^^^ (b >>> 6)
    shaSchedule n ((s1 + g 6 + s0 + g 15) :: w)

/-- One round. -/
def shaRound (st : List Word) (kw : Word × Word) : List Word :=
  match st with
  | [a, b, c, d, e, f, g, h] =>
    let s1 := e.rotateRight 14 ^^^ e.rotateRight 18 ^^^ e.rotateRight 41
    let ch := (e &&& f) ^^^ (~~~e &&& g)
    let t1 := h + s1 + ch + kw.1 + kw.2
    let s0 := a.rotateRight 28 ^^^ a.rotateRight 34 ^^^ a.rotateRight 39
    let maj := (a &&& b) ^^^ (a &&& c) ^^^ (b &&& c)
    [t1 + (s0 + maj), a, b, c, d + t1, e, f, g]
  | l => l

/-- One block. -/
def shaBlock (st : List Word) (l : List Byte) : List Word :=
  let w := (shaSchedule 64 (shaWords l).reverse).reverse
  (st.zip ((shaK.zip w).foldl shaRound st)).map fun x => x.1 + x.2

/-- SHA-384 of a byte string, 48 bytes. -/
def sha384 (l : List Byte) : List Byte :=
  let m := shaPad l
  let st := (List.range (m.length / 128)).foldl (fun st i => shaBlock st ((m.drop (128 * i)).take 128)) shaInit
  (st.take 6).flatMap fun x => (leBytes 8 x.toNat).reverse

end Sys2Proof.Machine
end

