-- ==== Sys2Proof/Machine/Cipher.lean ====
section
/-!
DEFINITION. The ciphers, keys and signatures that the spec names: AES-256 in the GCM and XTS modes (R178, R226, R362), HKDF with SHA-384 (R362), and key agreement and
ECDSA on P-384 (R361, R362, R368, R370). A byte is a number below 256 here, and a byte string a list of them.
-/

namespace Sys2Proof.Machine

/-- The number that big-endian bytes hold. -/
def beNum (l : List Nat) : Nat := l.foldl (fun a b => 256 * a + b) 0

/-- The n big-endian bytes of a number. -/
def beBytes (n v : Nat) : List Nat := (List.range n).map fun i => v / 256 ^ (n - 1 - i) % 256

/-- Two byte strings, XORed; the shorter one ends it. -/
def xorBytes (a b : List Nat) : List Nat := List.zipWith Nat.xor a b

/-- Bytes as the number whose least significant byte is the first one. -/
def leNum (l : List Nat) : Nat := l.foldr (fun b a => b + 256 * a) 0

/-! ### AES-256 -/

/-- The S-box of FIPS 197 in one numeral: the image of x stands in bits 8 x and up. -/
def aesBox : Nat :=
  0x16BB54B00F2D99416842E6BF0D89A18CDF2855CEE9871E9B948ED9691198F8E19E1DC186B95735610EF6034866B53E708A8BBD4B1F74DDE8C6B4A61C2E2578BA08AE7A65EAF4566CA94ED58D6D37C8E779E4959162ACD3C25C2406490A3A32E0DB0B5EDE14B8EE4688902A22DC4F816073195D643D7EA7C41744975FEC130CCDD2F3FF1021DAB6BCF5389D928F40A351A89F3C507F02F94585334D43FBAAEFD0CF584C4A39BECB6A5BB1FC20ED00D153842FE329B3D63B52A05A6E1B1A2C830975B227EBE28012079A059618C323C7041531D871F1E5A534CCF73F362693FDB7C072A49CAFA2D4ADF04759FA7DC982CA76ABD7FE2B670130C56F6BF27B777C63

/-- SubBytes on one byte. -/
def aesSub (x : Nat) : Nat := bits aesBox (8 * x) 8

/-- SubBytes on the four bytes of a word. -/
def aesSubWord (x : Nat) : Nat :=
  aesSub (x % 256) + 2 ^ 8 * aesSub (bits x 8 8) + 2 ^ 16 * aesSub (bits x 16 8) + 2 ^ 24 * aesSub (bits x 24 8)

/-- Multiplication by x in the field of AES. -/
def aesTwice (x : Nat) : Nat := if x < 128 then 2 * x else Nat.xor (2 * x) 0x11B

/-- The next n words of the key schedule in front of those made so far, newest first; the next one has number i. The first byte of a word is its least significant. -/
def aesWords : Nat → Nat → List Nat → List Nat
  | 0, _, w => w
  | n + 1, i, w =>
    let last := w.headD 0
    let t :=
      if i % 8 = 0 then Nat.xor (aesSubWord (last / 256 + last % 256 * 2 ^ 24)) (2 ^ (i / 8 - 1))
      else if i % 8 = 4 then aesSubWord last
      else last
    aesWords n (i + 1) (Nat.xor (w.getD 7 0) t :: w)

/-- The fifteen round keys of a key of 32 bytes. A block or a round key is the number whose least significant byte is its first one. -/
def aesKeys (key : List Nat) : List Nat :=
  let w := (aesWords 52 8 ((List.range 8).map fun i => leNum ((key.drop (28 - 4 * i)).take 4))).reverse
  (List.range 15).map fun r => w.getD (4 * r) 0 + 2 ^ 32 * w.getD (4 * r + 1) 0 + 2 ^ 64 * w.getD (4 * r + 2) 0 + 2 ^ 96 * w.getD (4 * r + 3) 0

/-- Byte r of column c after SubBytes and ShiftRows. -/
def aesByte (s c r : Nat) : Nat := aesSub (bits s (8 * (4 * ((c + r) % 4) + r)) 8)

/-- A column of the last round, without MixColumns. -/
def aesPlain (a b c d : Nat) : Nat := a + 2 ^ 8 * b + 2 ^ 16 * c + 2 ^ 24 * d

/-- MixColumns on one column. -/
def aesMix (a b c d : Nat) : Nat :=
  let t := Nat.xor (Nat.xor a b) (Nat.xor c d)
  let f (x y : Nat) : Nat := Nat.xor (Nat.xor x t) (aesTwice (Nat.xor x y))
  aesPlain (f a b) (f b c) (f c d) (f d a)

/-- A round, with what it does to a column. -/
def aesRound (column : Nat → Nat → Nat → Nat → Nat) (s key : Nat) : Nat :=
  let col (c : Nat) : Nat := column (aesByte s c 0) (aesByte s c 1) (aesByte s c 2) (aesByte s c 3)
  Nat.xor (col 0 + 2 ^ 32 * col 1 + 2 ^ 64 * col 2 + 2 ^ 96 * col 3) key

/-- A block under the round keys of a key. -/
def aesBlock (keys : List Nat) (block : Nat) : Nat :=
  aesRound aesPlain (((keys.drop 1).take 13).foldl (aesRound aesMix) (Nat.xor block (keys.headD 0))) (keys.getD 14 0)

/-- The bytes of a block. -/
def blockBytes (x : Nat) : List Nat := (List.range 16).map fun i => bits x (8 * i) 8

/-! ### GCM -/

/-- Multiplication in the field of GCM, whose bit 0 is a block's most significant one. -/
def gcmMul (h x : Nat) : Nat :=
  ((List.range 128).foldl (fun (r : Nat × Nat) i =>
    (if x.testBit (127 - i) then Nat.xor r.1 r.2 else r.1, if r.2 % 2 = 1 then Nat.xor (r.2 / 2) (0xE1 * 2 ^ 120) else r.2 / 2)) (0, h)).1

/-- Bytes filled with zeros to whole blocks of 16, as numbers. -/
def gcmBlocks (l : List Nat) : List Nat :=
  (List.range ((l.length + 15) / 16)).map fun i => beNum (takePad 16 0 ((l.drop (16 * i)).take 16))

/-- Encrypt or decrypt under a nonce of 12 bytes. -/
def gcmCrypt (keys iv data : List Nat) : List Nat :=
  (List.range ((data.length + 15) / 16)).flatMap fun i => xorBytes ((data.drop (16 * i)).take 16) (blockBytes (aesBlock keys (leNum (iv ++ beBytes 4 (i + 2)))))

/-- The tag of 16 bytes over additional data and ciphertext. -/
def gcmTag (keys iv aad data : List Nat) : List Nat :=
  let h := beNum (blockBytes (aesBlock keys 0))
  let y := (gcmBlocks aad ++ gcmBlocks data ++ [8 * aad.length * 2 ^ 64 + 8 * data.length]).foldl (fun y b => gcmMul h (Nat.xor y b)) 0
  xorBytes (beBytes 16 y) (blockBytes (aesBlock keys (leNum (iv ++ [0, 0, 0, 1]))))

/-! ### XTS -/

/-- Encrypt whole blocks of 16 bytes under a key pair of 64 bytes and a tweak (R178). -/
def xtsEncrypt (key : List Nat) (tweak : Nat) (data : List Nat) : List Nat :=
  let first := aesBlock (aesKeys (key.drop 32)) tweak
  let step (v : Nat) : Nat := if v < 2 ^ 127 then 2 * v else Nat.xor (2 * v % 2 ^ 128) 0x87
  let keys := aesKeys (key.take 32)
  (List.range (data.length / 16)).flatMap fun i =>
    let t := Nat.repeat step i first
    blockBytes (Nat.xor (aesBlock keys (Nat.xor (leNum ((data.drop (16 * i)).take 16)) t)) t)

/-! ### HKDF -/

/-- HMAC with SHA-384, under a key of at most 128 bytes. -/
def hmac384 (key : List Nat) (msg : List Byte) : List Byte :=
  let k := takePad 128 0 key
  let pad (c : Nat) : List Byte := k.map fun x => BitVec.ofNat 8 (Nat.xor x c)
  sha384 (pad 0x5C ++ sha384 (pad 0x36 ++ msg))

/-- HKDF-SHA-384 with an empty salt, for 32 bytes (R362). -/
def hkdf384 (secret info : List Byte) : List Nat :=
  let prk := hmac384 (List.replicate 48 0) secret
  ((hmac384 (prk.map BitVec.toNat) (info ++ [1])).take 32).map BitVec.toNat

/-! ### P-384 -/

/-- The prime of the field. -/
def p384 : Nat := 2 ^ 384 - 2 ^ 128 - 2 ^ 96 + 2 ^ 32 - 1

/-- The order of the curve. -/
def order384 : Nat := 0xFFFFFFFFFFFFFFFFFFFFFFFFFFFFFFFFFFFFFFFFFFFFFFFFC7634D81F4372DDF581A0DB248B0A77AECEC196ACCC52973

/-- The coefficient b of the curve. -/
def b384 : Nat := 0xB3312FA7E23EE7E4988E056BE3F82D19181D9C6EFE8141120314088F5013875AC656398D8A2ED19D2A85C8EDD3EC2AEF

/-- A point in Jacobian coordinates: x ÷ z², y ÷ z³; with z = 0 the point at infinity. -/
structure Pt where
  x : Nat
  y : Nat
  z : Nat
  deriving DecidableEq, Repr

/-- The base point. -/
def base384 : Pt :=
  { x := 0xAA87CA22BE8B05378EB1C71EF320AD746E1D3B628BA79B9859F741E082542A385502F25DBF55296C3A545E3872760AB7
    y := 0x3617DE4A96262C6F5D9E98BF9292DC29F8F41DBD289A147CE9DA3113B5F0B8C00A60B1CE1D7E819D7A431D7C90EA0E5F
    z := 1 }

/-- A difference modulo n. -/
def subMod (n a b : Nat) : Nat := (a + (n - b % n)) % n

/-- A power modulo n, by the exponent's bits from the most significant one of w. -/
def powMod (n a e w : Nat) : Nat :=
  (List.range w).foldl (fun r i => if e.testBit (w - 1 - i) then r * r % n * a % n else r * r % n) (1 % n)

namespace Pt

/-- Twice a point. -/
def twice (p : Pt) : Pt :=
  let n := p384
  let d := p.z * p.z % n
  let g := p.y * p.y % n
  let b := p.x * g % n
  let a := 3 * (subMod n p.x d * (p.x + d)) % n
  let x := subMod n (a * a) (8 * b)
  { x, y := subMod n (a * subMod n (4 * b) x) (8 * (g * g)), z := 2 * p.y * p.z % n }

/-- The sum of two points. -/
def sum (p q : Pt) : Pt :=
  let n := p384
  if p.z = 0 then q
  else if q.z = 0 then p
  else
    let pz := p.z * p.z % n
    let qz := q.z * q.z % n
    let u := p.x * qz % n
    let s := p.y * q.z % n * qz % n
    let h := subMod n (q.x * pz) u
    let r := subMod n (q.y * p.z % n * pz) s
    if h = 0 then if r = 0 then p.twice else { x := 1, y := 1, z := 0 }
    else
      let hh := h * h % n
      let v := u * hh % n
      let k := hh * h % n
      let x := subMod n (r * r) (k + 2 * v)
      { x, y := subMod n (r * subMod n v x) (s * k), z := h * p.z % n * q.z % n }

/-- A multiple of a point. -/
def times (k : Nat) (p : Pt) : Pt :=
  (List.range 384).foldl (fun r i => if k.testBit (383 - i) then r.twice.sum p else r.twice) { x := 1, y := 1, z := 0 }

/-- The affine coordinates of a point other than infinity. -/
def affine (p : Pt) : Nat × Nat :=
  let i := powMod p384 p.z (p384 - 2) 384
  (p.x * i % p384 * i % p384, p.y * i % p384 * i % p384 * i % p384)

/-- A public key of 96 bytes, x then y (R360): a point of the curve, or none. -/
def ofBytes (l : List Byte) : Option Pt :=
  let v := l.map BitVec.toNat
  let x := beNum (v.take 48)
  let y := beNum (v.drop 48)
  if l.length = 96 ∧ x < p384 ∧ y < p384 ∧ y * y % p384 = (x * x * x + (p384 - 3) * x + b384) % p384 then some { x, y, z := 1 } else none

/-- The 96 bytes of a point, x then y (R360). -/
def bytes (p : Pt) : List Byte :=
  let (x, y) := p.affine
  (beBytes 48 x ++ beBytes 48 y).map (BitVec.ofNat 8)

end Pt

/-- A private key or a signature's secret number from a number drawn at random: 1 to the order less 1. Log entry notes/assumptions/11.md (DESIGN CHOICE). -/
def scalar384 (v : Nat) : Nat := 1 + v % (order384 - 1)

/-- The public key of a private key, 96 bytes (R360). -/
def pub384 (key : Nat) : List Byte := (Pt.times key base384).bytes

/-- The x-coordinate that a private key and a public key agree on, 48 bytes (R362). -/
def agree384 (key : Nat) (q : Pt) : List Byte := (beBytes 48 (Pt.times key q).affine.1).map (BitVec.ofNat 8)

/-- An ECDSA signature of 96 bytes, r then s, verifies under a public key of 96 bytes over a digest of 48 (R360, R368). -/
def verifies384 (pub digest sig : List Byte) : Bool :=
  let n := order384
  let num (l : List Byte) : Nat := beNum (l.map BitVec.toNat)
  let r := num (sig.take 48)
  let s := num (sig.drop 48)
  match Pt.ofBytes pub with
  | none => false
  | some q =>
    let i := powMod n s (n - 2) 384
    let t := (Pt.times (num digest * i % n) base384).sum (Pt.times (r * i % n) q)
    sig.length = 96 && r ≠ 0 && s ≠ 0 && decide (r < n) && decide (s < n) && t.z ≠ 0 && t.affine.1 % n = r

/-- The ECDSA signature of a digest of 48 bytes under a private key, with the secret number k of this signature (R360, R370). Log entry notes/assumptions/11.md (DESIGN CHOICE). -/
def sign384 (key k : Nat) (digest : List Byte) : List Byte :=
  let n := order384
  let r := (Pt.times k base384).affine.1 % n
  let s := powMod n k (n - 2) 384 * (beNum (digest.map BitVec.toNat) + r * key) % n
  (beBytes 48 r ++ beBytes 48 s).map (BitVec.ofNat 8)

/-- The key that a key message of 160 bytes brings to the holder of a private key, under the command's OP (R362); a HOST_PUB that is no point of the curve opens nothing.
Log entry notes/assumptions/11.md (DEDUCED). -/
def openMessage (key op : Nat) (m : List Byte) : Option (List Byte) :=
  let part (lo n : Nat) : List Nat := ((m.drop lo).take n).map BitVec.toNat
  if m.length ≠ 160 ∨ part 98 2 ≠ [0, 0] then none
  else match Pt.ofBytes (m.take 96) with
    | none => none
    | some q =>
      let kek := aesKeys (hkdf384 (agree384 key q) ((m.drop 96).take 4 ++ [BitVec.ofNat 8 op]))
      if gcmTag kek (part 100 12) (part 0 100) (part 112 32) = part 144 16 then some ((gcmCrypt kek (part 100 12) (part 112 32)).map (BitVec.ofNat 8)) else none

end Sys2Proof.Machine
end

