-- ==== Sys2Proof/Machine/Registers.lean ====
section
/-!
DEFINITION. The register file of the control and status space: every register that the spec's register tables
name, its window, offset, stride and count (R6, R43, R79, R115, R448, R182, R215, R252, R277, R318, R344, R371, R396,
R413, R426), every field with its bits and access code (R8), and the Reset column's value. A field whose Reset column holds a dash is
undefined until written; the model's value for it is zero and notes/assumptions/3.md says so (DESIGN CHOICE).
-/

namespace Sys2Proof.Machine

/-- A register of the spec's register tables, by its name without the index suffix. The two copies of `CREEL_BIAS_n` and
`CREEL_COMMIT` (R154) carry the block that they govern. -/
inductive Reg where
  /-- `LBI_CAP_n`, window 3, offset 0x0, R43. -/
  | LBI_CAP
  /-- `LBI_DIE_STAT_n`, window 3, offset 0x100, R43. -/
  | LBI_DIE_STAT
  /-- `LBI_WRAP_CTL_n`, window 3, offset 0x120, R43. -/
  | LBI_WRAP_CTL
  /-- `LBI_PORT_STAT_n`, window 3, offset 0x1000, R43. -/
  | LBI_PORT_STAT
  /-- `LBI_PORT_CTL_n`, window 3, offset 0x1400, R43. -/
  | LBI_PORT_CTL
  /-- `LBI_REPLAY_n`, window 3, offset 0x1800, R43. -/
  | LBI_REPLAY
  /-- `LBI_RETRAIN_n`, window 3, offset 0x1c00, R43. -/
  | LBI_RETRAIN
  /-- `LBI_MRG_CTL`, window 3, offset 0x2000, R43. -/
  | LBI_MRG_CTL
  /-- `LBI_MRG_RES_k`, window 3, offset 0x2100, R43. -/
  | LBI_MRG_RES
  /-- `MTX_MAP_n`, window 5, offset 0x0, R79. -/
  | MTX_MAP
  /-- `MTX_STAT_n`, window 5, offset 0x2000, R79. -/
  | MTX_STAT
  /-- `MTX_FAULT_n`, window 5, offset 0x4000, R79. -/
  | MTX_FAULT
  /-- `MTX_SR_STATE_n`, window 5, offset 0x6000, R79. -/
  | MTX_SR_STATE
  /-- `MTX_TEST_CTL`, window 5, offset 0x8000, R79. -/
  | MTX_TEST_CTL
  /-- `MTX_REPAIR_d`, window 5, offset 0x8010, R79. -/
  | MTX_REPAIR
  /-- `STR_STAT_n`, window 6, offset 0x0, R115. -/
  | STR_STAT
  /-- `STR_SR_STATE_n`, window 6, offset 0x2000, R115. -/
  | STR_SR_STATE
  /-- `STR_CE_n`, window 6, offset 0x4000, R115. -/
  | STR_CE
  /-- `STR_UE_n`, window 6, offset 0x6000, R115. -/
  | STR_UE
  /-- `STR_PROMO_n`, window 6, offset 0x8000, R115. -/
  | STR_PROMO
  /-- `STR_DMA_STAT_n`, window 6, offset 0xa000, R115. -/
  | STR_DMA_STAT
  /-- `CORE_CTL_n`, window 4, offset 0x0, R448. -/
  | CORE_CTL
  /-- `CORE_ILD_n`, window 4, offset 0x2000, R448. -/
  | CORE_ILD
  /-- `CORE_STAT_n`, window 4, offset 0x4000, R448. -/
  | CORE_STAT
  /-- `CORE_UST_n`, window 4, offset 0x6000, R448. -/
  | CORE_UST
  /-- `HBM_CFG`, window 7, offset 0x0, R182. -/
  | HBM_CFG
  /-- `HBM_STAT`, window 7, offset 0x8, R182. -/
  | HBM_STAT
  /-- `CREEL_BIAS_n`, window 7, offset 0x100, R182. -/
  | CREEL_BIAS_HBM
  /-- `CREEL_COMMIT`, window 7, offset 0x140, R182. -/
  | CREEL_COMMIT_HBM
  /-- `HBM_PART_p`, window 7, offset 0x200, R182. -/
  | HBM_PART
  /-- `HBM_KEY_CTL`, window 7, offset 0x240, R182. -/
  | HBM_KEY_CTL
  /-- `HBM_THERM_s`, window 7, offset 0x300, R182. -/
  | HBM_THERM
  /-- `HBM_THERM_CFG`, window 7, offset 0x340, R182. -/
  | HBM_THERM_CFG
  /-- `HBM_THERM_SUM`, window 7, offset 0x348, R182. -/
  | HBM_THERM_SUM
  /-- `HBM_THR_TIME_s`, window 7, offset 0x400, R182. -/
  | HBM_THR_TIME
  /-- `HBM_CH_STAT_c`, window 7, offset 0x1000, R182. -/
  | HBM_CH_STAT
  /-- `HBM_CE_c`, window 7, offset 0x2000, R182. -/
  | HBM_CE
  /-- `HBM_UE_c`, window 7, offset 0x3000, R182. -/
  | HBM_UE
  /-- `HBM_MRG_CTL`, window 7, offset 0x5000, R182. -/
  | HBM_MRG_CTL
  /-- `HBM_MRG_RES_k`, window 7, offset 0x5100, R182. -/
  | HBM_MRG_RES
  /-- `TWIST_CFG`, window 8, offset 0x0, R215. -/
  | TWIST_CFG
  /-- `TWIST_PERIOD`, window 8, offset 0x8, R215. -/
  | TWIST_PERIOD
  /-- `TWIST_PERIOD_AT`, window 8, offset 0x10, R215. -/
  | TWIST_PERIOD_AT
  /-- `TWIST_COMMIT`, window 8, offset 0x18, R215. -/
  | TWIST_COMMIT
  /-- `TWIST_CNT`, window 8, offset 0x20, R215. -/
  | TWIST_CNT
  /-- `TWIST_CNT_INIT`, window 8, offset 0x28, R215. -/
  | TWIST_CNT_INIT
  /-- `TWIST_ALIGN`, window 8, offset 0x30, R215. -/
  | TWIST_ALIGN
  /-- `TWIST_CAL`, window 8, offset 0x38, R215. -/
  | TWIST_CAL
  /-- `TWIST_START_p`, window 8, offset 0x100, R215. -/
  | TWIST_START
  /-- `TWIST_SLIPS_p`, window 8, offset 0x120, R215. -/
  | TWIST_SLIPS
  /-- `SYNC_DBG_p`, window 9, offset 0x0, R215. -/
  | SYNC_DBG
  /-- `SYNC_ZERO`, window 9, offset 0x20, R215. -/
  | SYNC_ZERO
  /-- `SYNC_DIE_CTL`, window 9, offset 0x28, R215. -/
  | SYNC_DIE_CTL
  /-- `SYNC_BAR_b`, window 9, offset 0x1000, R215. -/
  | SYNC_BAR
  /-- `SYNC_BAR_STAT_b`, window 9, offset 0x9000, R215. -/
  | SYNC_BAR_STAT
  /-- `SYNC_FAILMAP_n`, window 9, offset 0x11000, R215. -/
  | SYNC_FAILMAP
  /-- `SYNC_BAR_CTL_b`, window 9, offset 0x20000, R215. -/
  | SYNC_BAR_CTL
  /-- `SYNC_OBJ_LO_id`, window 9, offset 0x100000, R215. -/
  | SYNC_OBJ_LO
  /-- `SYNC_OBJ_HI_id`, window 9, offset 0x100008, R215. -/
  | SYNC_OBJ_HI
  /-- `FAB_ID`, window 10, offset 0x0, R252. -/
  | FAB_ID
  /-- `CREEL_BIAS_n`, window 10, offset 0x100, R252. -/
  | CREEL_BIAS_FAB
  /-- `CREEL_COMMIT`, window 10, offset 0x140, R252. -/
  | CREEL_COMMIT_FAB
  /-- `FAB_PLAN_CTL_p`, window 10, offset 0x200, R252. -/
  | FAB_PLAN_CTL
  /-- `FAB_PLAN_STAT_p`, window 10, offset 0x220, R252. -/
  | FAB_PLAN_STAT
  /-- `FAB_PLAN_AT_p`, window 10, offset 0x240, R252. -/
  | FAB_PLAN_AT
  /-- `FAB_PLAN_SRC_p`, window 10, offset 0x260, R252. -/
  | FAB_PLAN_SRC
  /-- `FAB_RETX_p`, window 10, offset 0x400, R252. -/
  | FAB_RETX
  /-- `FAB_DROP`, window 10, offset 0x440, R252. -/
  | FAB_DROP
  /-- `FAB_AUTH`, window 10, offset 0x448, R252. -/
  | FAB_AUTH
  /-- `FAB_TRN_DROP`, window 10, offset 0x450, R252. -/
  | FAB_TRN_DROP
  /-- `FAB_PMAP_k`, window 10, offset 0x1000, R252. -/
  | FAB_PMAP
  /-- `FAB_FSLOT_k`, window 10, offset 0x4000, R252. -/
  | FAB_FSLOT
  /-- `FAB_SPERM_k`, window 10, offset 0x5400, R252. -/
  | FAB_SPERM
  /-- `FAB_TRN_j`, window 10, offset 0x6000, R252. -/
  | FAB_TRN
  /-- `FAB_RT_n`, window 10, offset 0x8000, R252. -/
  | FAB_RT
  /-- `FAB_FCTX_n`, window 10, offset 0x100000, R252. -/
  | FAB_FCTX
  /-- `OPT_CFG`, window 11, offset 0x0, R277. -/
  | OPT_CFG
  /-- `OPT_SW_CTL`, window 11, offset 0x8, R277. -/
  | OPT_SW_CTL
  /-- `OPT_SW_STAT`, window 11, offset 0x10, R277. -/
  | OPT_SW_STAT
  /-- `OPT_SW_AT`, window 11, offset 0x18, R277. -/
  | OPT_SW_AT
  /-- `OPT_DSTAT_k`, window 11, offset 0x20, R277. -/
  | OPT_DSTAT
  /-- `OPT_BASELINE_m`, window 11, offset 0x100, R277. -/
  | OPT_BASELINE
  /-- `OPT_POWER_m`, window 11, offset 0x200, R277. -/
  | OPT_POWER
  /-- `LANE_CTL`, window 11, offset 0x300, R277. -/
  | LANE_CTL
  /-- `LANE_MRG_CTL`, window 11, offset 0x308, R277. -/
  | LANE_MRG_CTL
  /-- `LANE_MRG_RES`, window 11, offset 0x310, R277. -/
  | LANE_MRG_RES
  /-- `LANE_RXPERM_f`, window 11, offset 0x400, R277. -/
  | LANE_RXPERM
  /-- `LANE_STAT_n`, window 11, offset 0x1000, R277. -/
  | LANE_STAT
  /-- `LANE_CE_k`, window 11, offset 0x2000, R277. -/
  | LANE_CE
  /-- `LANE_UE_k`, window 11, offset 0x2800, R277. -/
  | LANE_UE
  /-- `LANE_MISLOCK_n`, window 11, offset 0x3000, R277. -/
  | LANE_MISLOCK
  /-- `LANE_RING_m`, window 11, offset 0x4000, R277. -/
  | LANE_RING
  /-- `PLY_STAT`, window 19, offset 0x0, R318. -/
  | PLY_STAT
  /-- `PLY_PSLOT_q`, window 19, offset 0x20, R318. -/
  | PLY_PSLOT
  /-- `PLY_STEP_p`, window 19, offset 0x100, R318. -/
  | PLY_STEP
  /-- `PLY_STEP_CTL_p`, window 19, offset 0x120, R318. -/
  | PLY_STEP_CTL
  /-- `PLY_LS_p`, window 19, offset 0x140, R318. -/
  | PLY_LS
  /-- `PLY_SEED_p`, window 19, offset 0x160, R318. -/
  | PLY_SEED
  /-- `PLY_RULE_SEL_p`, window 19, offset 0x180, R318. -/
  | PLY_RULE_SEL
  /-- `PLY_SPB_p`, window 19, offset 0x200, R318. -/
  | PLY_SPB
  /-- `PLY_QDROP_p`, window 19, offset 0x400, R318. -/
  | PLY_QDROP
  /-- `PLY_COMB_p`, window 19, offset 0x420, R318. -/
  | PLY_COMB
  /-- `PLY_SPLIT_p`, window 19, offset 0x440, R318. -/
  | PLY_SPLIT
  /-- `PLY_NONFIN_p`, window 19, offset 0x460, R318. -/
  | PLY_NONFIN
  /-- `PLY_SKFALL_p`, window 19, offset 0x480, R318. -/
  | PLY_SKFALL
  /-- `PLY_SKIPS_p`, window 19, offset 0x4a0, R318. -/
  | PLY_SKIPS
  /-- `TWIST_PHASE_BASE_p`, window 8, offset 0x200, R344. -/
  | TWIST_PHASE_BASE
  /-- `TWIST_PHASE_IDX_p`, window 8, offset 0x220, R344. -/
  | TWIST_PHASE_IDX
  /-- `TWIST_PHNOW_k`, window 8, offset 0x300, R344. -/
  | TWIST_PHNOW
  /-- `PLY_VRF_LIST_p`, window 19, offset 0x600, R344. -/
  | PLY_VRF_LIST
  /-- `PLY_VRF_CTL_p`, window 19, offset 0x620, R344. -/
  | PLY_VRF_CTL
  /-- `ZQL_PORT_STAT`, window 27, offset 0x0, R371. -/
  | ZQL_PORT_STAT
  /-- `ZQL_NAK`, window 27, offset 0x8, R371. -/
  | ZQL_NAK
  /-- `ZQL_RETRAIN`, window 27, offset 0x10, R371. -/
  | ZQL_RETRAIN
  /-- `ZQL_EVDROP`, window 27, offset 0x18, R371. -/
  | ZQL_EVDROP
  /-- `ZQL_SQ_i`, window 27, offset 0x100, R371. -/
  | ZQL_SQ
  /-- `ZQL_CQ_i`, window 27, offset 0x140, R371. -/
  | ZQL_CQ
  /-- `ZQL_QPTR_i`, window 27, offset 0x180, R371. -/
  | ZQL_QPTR
  /-- `ZQL_PCTL_p`, window 27, offset 0x1000, R371. -/
  | ZQL_PCTL
  /-- `ZQL_PGRP_p`, window 27, offset 0x1020, R371. -/
  | ZQL_PGRP
  /-- `ZQL_PFLOW_p`, window 27, offset 0x1040, R371. -/
  | ZQL_PFLOW
  /-- `ZQL_PSYNC_p`, window 27, offset 0x1060, R371. -/
  | ZQL_PSYNC
  /-- `MGMT_BOOT`, window 0, offset 0x0, R396. -/
  | MGMT_BOOT
  /-- `RST_STAT`, window 1, offset 0x0, R396. -/
  | RST_STAT
  /-- `RST_STRAP`, window 1, offset 0x8, R396. -/
  | RST_STRAP
  /-- `RST_CLK_STAT`, window 1, offset 0x10, R396. -/
  | RST_CLK_STAT
  /-- `RST_RAIL_STAT`, window 1, offset 0x18, R396. -/
  | RST_RAIL_STAT
  /-- `RST_VREQ_d`, window 1, offset 0x20, R396. -/
  | RST_VREQ
  /-- `RST_RRB_ERR`, window 1, offset 0x40, R396. -/
  | RST_RRB_ERR
  /-- `RST_DIE_RESETS_d`, window 1, offset 0x48, R396. -/
  | RST_DIE_RESETS
  /-- `EVT_LOG_HEAD`, window 2, offset 0x0, R413. -/
  | EVT_LOG_HEAD
  /-- `EVT_DROP`, window 2, offset 0x8, R413. -/
  | EVT_DROP
  /-- `EVT_FRZ_CFG`, window 2, offset 0x10, R413. -/
  | EVT_FRZ_CFG
  /-- `EVT_FRZ_CTL`, window 2, offset 0x18, R413. -/
  | EVT_FRZ_CTL
  /-- `EVT_FRZ_MATCH`, window 2, offset 0x20, R413. -/
  | EVT_FRZ_MATCH
  /-- `EVT_FRZ_TWIST`, window 2, offset 0x28, R413. -/
  | EVT_FRZ_TWIST
  /-- `EVT_FRZ_TIME`, window 2, offset 0x30, R413. -/
  | EVT_FRZ_TIME
  /-- `EVT_FRZ_MISSED`, window 2, offset 0x38, R413. -/
  | EVT_FRZ_MISSED
  /-- `EVT_LOG_i`, window 2, offset 0x100000, R413. -/
  | EVT_LOG
  /-- `DBG_MON_CTL`, window 31, offset 0x0, R426. -/
  | DBG_MON_CTL
  /-- `DBG_MON_ERR`, window 31, offset 0x8, R426. -/
  | DBG_MON_ERR
  /-- `DBG_IDCODE`, window 31, offset 0x10, R426. -/
  | DBG_IDCODE
  /-- `DBG_UNLOCK_p`, window 31, offset 0x100, R426. -/
  | DBG_UNLOCK
  deriving DecidableEq, Repr

/-- The access codes of R8; `cnt` is a field of a counter under the counter rule (R406). -/
inductive Access where
  | ro | rw | w1c | wo | sh | rs | cnt
  deriving DecidableEq, Repr

/-- Where a register lies: its first window, how many windows hold one copy each, in how many windows it can be seen
(a shared register of R281 or R358 has one copy seen in several), its offset, its stride and how many there are. -/
structure RegInfo where
  win : Nat
  copies : Nat
  views : Nat
  off : Nat
  stride : Nat
  count : Nat
  deriving DecidableEq, Repr

/-- The register tables (R43, R79, R115, R182, R215, R252, R277, R318, R344, R371, R396, R413, R426, R448). -/
def Reg.info : Reg → RegInfo
  | .LBI_CAP => ⟨3, 1, 1, 0x0, 8, 12⟩
  | .LBI_DIE_STAT => ⟨3, 1, 1, 0x100, 8, 2⟩
  | .LBI_WRAP_CTL => ⟨3, 1, 1, 0x120, 8, 2⟩
  | .LBI_PORT_STAT => ⟨3, 1, 1, 0x1000, 8, 128⟩
  | .LBI_PORT_CTL => ⟨3, 1, 1, 0x1400, 8, 128⟩
  | .LBI_REPLAY => ⟨3, 1, 1, 0x1800, 8, 128⟩
  | .LBI_RETRAIN => ⟨3, 1, 1, 0x1c00, 8, 128⟩
  | .LBI_MRG_CTL => ⟨3, 1, 1, 0x2000, 8, 1⟩
  | .LBI_MRG_RES => ⟨3, 1, 1, 0x2100, 8, 656⟩
  | .MTX_MAP => ⟨5, 1, 1, 0x0, 8, 1024⟩
  | .MTX_STAT => ⟨5, 1, 1, 0x2000, 8, 1024⟩
  | .MTX_FAULT => ⟨5, 1, 1, 0x4000, 8, 1024⟩
  | .MTX_SR_STATE => ⟨5, 1, 1, 0x6000, 8, 1024⟩
  | .MTX_TEST_CTL => ⟨5, 1, 1, 0x8000, 8, 1⟩
  | .MTX_REPAIR => ⟨5, 1, 1, 0x8010, 8, 2⟩
  | .STR_STAT => ⟨6, 1, 1, 0x0, 8, 1024⟩
  | .STR_SR_STATE => ⟨6, 1, 1, 0x2000, 8, 1024⟩
  | .STR_CE => ⟨6, 1, 1, 0x4000, 8, 1024⟩
  | .STR_UE => ⟨6, 1, 1, 0x6000, 8, 1024⟩
  | .STR_PROMO => ⟨6, 1, 1, 0x8000, 8, 1024⟩
  | .STR_DMA_STAT => ⟨6, 1, 1, 0xa000, 8, 1024⟩
  | .CORE_CTL => ⟨4, 1, 1, 0x0, 8, 1024⟩
  | .CORE_ILD => ⟨4, 1, 1, 0x2000, 8, 1024⟩
  | .CORE_STAT => ⟨4, 1, 1, 0x4000, 8, 1024⟩
  | .CORE_UST => ⟨4, 1, 1, 0x6000, 8, 1024⟩
  | .HBM_CFG => ⟨7, 1, 1, 0x0, 8, 1⟩
  | .HBM_STAT => ⟨7, 1, 1, 0x8, 8, 1⟩
  | .CREEL_BIAS_HBM => ⟨7, 1, 1, 0x100, 8, 8⟩
  | .CREEL_COMMIT_HBM => ⟨7, 1, 1, 0x140, 8, 1⟩
  | .HBM_PART => ⟨7, 1, 1, 0x200, 8, 4⟩
  | .HBM_KEY_CTL => ⟨7, 1, 1, 0x240, 8, 1⟩
  | .HBM_THERM => ⟨7, 1, 1, 0x300, 8, 8⟩
  | .HBM_THERM_CFG => ⟨7, 1, 1, 0x340, 8, 1⟩
  | .HBM_THERM_SUM => ⟨7, 1, 1, 0x348, 8, 1⟩
  | .HBM_THR_TIME => ⟨7, 1, 1, 0x400, 8, 8⟩
  | .HBM_CH_STAT => ⟨7, 1, 1, 0x1000, 8, 256⟩
  | .HBM_CE => ⟨7, 1, 1, 0x2000, 8, 256⟩
  | .HBM_UE => ⟨7, 1, 1, 0x3000, 8, 256⟩
  | .HBM_MRG_CTL => ⟨7, 1, 1, 0x5000, 8, 1⟩
  | .HBM_MRG_RES => ⟨7, 1, 1, 0x5100, 8, 82⟩
  | .TWIST_CFG => ⟨8, 1, 1, 0x0, 8, 1⟩
  | .TWIST_PERIOD => ⟨8, 1, 1, 0x8, 8, 1⟩
  | .TWIST_PERIOD_AT => ⟨8, 1, 1, 0x10, 8, 1⟩
  | .TWIST_COMMIT => ⟨8, 1, 1, 0x18, 8, 1⟩
  | .TWIST_CNT => ⟨8, 1, 1, 0x20, 8, 1⟩
  | .TWIST_CNT_INIT => ⟨8, 1, 1, 0x28, 8, 1⟩
  | .TWIST_ALIGN => ⟨8, 1, 1, 0x30, 8, 1⟩
  | .TWIST_CAL => ⟨8, 1, 1, 0x38, 8, 1⟩
  | .TWIST_START => ⟨8, 1, 1, 0x100, 8, 4⟩
  | .TWIST_SLIPS => ⟨8, 1, 1, 0x120, 8, 4⟩
  | .SYNC_DBG => ⟨9, 1, 1, 0x0, 8, 4⟩
  | .SYNC_ZERO => ⟨9, 1, 1, 0x20, 8, 1⟩
  | .SYNC_DIE_CTL => ⟨9, 1, 1, 0x28, 8, 1⟩
  | .SYNC_BAR => ⟨9, 1, 1, 0x1000, 8, 4096⟩
  | .SYNC_BAR_STAT => ⟨9, 1, 1, 0x9000, 8, 4096⟩
  | .SYNC_FAILMAP => ⟨9, 1, 1, 0x11000, 8, 1024⟩
  | .SYNC_BAR_CTL => ⟨9, 1, 1, 0x20000, 8, 4096⟩
  | .SYNC_OBJ_LO => ⟨9, 1, 1, 0x100000, 16, 65536⟩
  | .SYNC_OBJ_HI => ⟨9, 1, 1, 0x100008, 16, 65536⟩
  | .FAB_ID => ⟨10, 1, 1, 0x0, 8, 1⟩
  | .CREEL_BIAS_FAB => ⟨10, 1, 1, 0x100, 8, 8⟩
  | .CREEL_COMMIT_FAB => ⟨10, 1, 1, 0x140, 8, 1⟩
  | .FAB_PLAN_CTL => ⟨10, 1, 1, 0x200, 8, 4⟩
  | .FAB_PLAN_STAT => ⟨10, 1, 1, 0x220, 8, 4⟩
  | .FAB_PLAN_AT => ⟨10, 1, 1, 0x240, 8, 4⟩
  | .FAB_PLAN_SRC => ⟨10, 1, 1, 0x260, 8, 4⟩
  | .FAB_RETX => ⟨10, 1, 1, 0x400, 8, 4⟩
  | .FAB_DROP => ⟨10, 1, 1, 0x440, 8, 1⟩
  | .FAB_AUTH => ⟨10, 1, 1, 0x448, 8, 1⟩
  | .FAB_TRN_DROP => ⟨10, 1, 1, 0x450, 8, 1⟩
  | .FAB_PMAP => ⟨10, 1, 1, 0x1000, 8, 1152⟩
  | .FAB_FSLOT => ⟨10, 1, 1, 0x4000, 8, 576⟩
  | .FAB_SPERM => ⟨10, 1, 1, 0x5400, 8, 144⟩
  | .FAB_TRN => ⟨10, 1, 1, 0x6000, 8, 64⟩
  | .FAB_RT => ⟨10, 1, 1, 0x8000, 8, 2048⟩
  | .FAB_FCTX => ⟨10, 1, 1, 0x100000, 8, 32768⟩
  | .OPT_CFG => ⟨11, 8, 8, 0x0, 8, 1⟩
  | .OPT_SW_CTL => ⟨11, 8, 8, 0x8, 8, 1⟩
  | .OPT_SW_STAT => ⟨11, 8, 8, 0x10, 8, 1⟩
  | .OPT_SW_AT => ⟨11, 8, 8, 0x18, 8, 1⟩
  | .OPT_DSTAT => ⟨11, 8, 8, 0x20, 8, 3⟩
  | .OPT_BASELINE => ⟨11, 8, 8, 0x100, 8, 24⟩
  | .OPT_POWER => ⟨11, 8, 8, 0x200, 8, 24⟩
  | .LANE_CTL => ⟨11, 8, 8, 0x300, 8, 1⟩
  | .LANE_MRG_CTL => ⟨11, 8, 8, 0x308, 8, 1⟩
  | .LANE_MRG_RES => ⟨11, 8, 8, 0x310, 8, 1⟩
  | .LANE_RXPERM => ⟨11, 8, 8, 0x400, 8, 18⟩
  | .LANE_STAT => ⟨11, 8, 8, 0x1000, 8, 288⟩
  | .LANE_CE => ⟨11, 8, 8, 0x2000, 8, 144⟩
  | .LANE_UE => ⟨11, 8, 8, 0x2800, 8, 144⟩
  | .LANE_MISLOCK => ⟨11, 8, 8, 0x3000, 8, 288⟩
  | .LANE_RING => ⟨11, 8, 8, 0x4000, 8, 2304⟩
  | .PLY_STAT => ⟨19, 8, 8, 0x0, 8, 1⟩
  | .PLY_PSLOT => ⟨19, 8, 8, 0x20, 8, 4⟩
  | .PLY_STEP => ⟨19, 1, 8, 0x100, 8, 4⟩
  | .PLY_STEP_CTL => ⟨19, 1, 8, 0x120, 8, 4⟩
  | .PLY_LS => ⟨19, 1, 8, 0x140, 8, 4⟩
  | .PLY_SEED => ⟨19, 1, 8, 0x160, 8, 4⟩
  | .PLY_RULE_SEL => ⟨19, 1, 8, 0x180, 8, 4⟩
  | .PLY_SPB => ⟨19, 1, 8, 0x200, 8, 32⟩
  | .PLY_QDROP => ⟨19, 8, 8, 0x400, 8, 4⟩
  | .PLY_COMB => ⟨19, 8, 8, 0x420, 8, 4⟩
  | .PLY_SPLIT => ⟨19, 8, 8, 0x440, 8, 4⟩
  | .PLY_NONFIN => ⟨19, 8, 8, 0x460, 8, 4⟩
  | .PLY_SKFALL => ⟨19, 8, 8, 0x480, 8, 4⟩
  | .PLY_SKIPS => ⟨19, 1, 8, 0x4a0, 8, 4⟩
  | .TWIST_PHASE_BASE => ⟨8, 1, 1, 0x200, 8, 4⟩
  | .TWIST_PHASE_IDX => ⟨8, 1, 1, 0x220, 8, 4⟩
  | .TWIST_PHNOW => ⟨8, 1, 1, 0x300, 8, 32⟩
  | .PLY_VRF_LIST => ⟨19, 8, 8, 0x600, 8, 4⟩
  | .PLY_VRF_CTL => ⟨19, 8, 8, 0x620, 8, 4⟩
  | .ZQL_PORT_STAT => ⟨27, 4, 4, 0x0, 8, 1⟩
  | .ZQL_NAK => ⟨27, 4, 4, 0x8, 8, 1⟩
  | .ZQL_RETRAIN => ⟨27, 4, 4, 0x10, 8, 1⟩
  | .ZQL_EVDROP => ⟨27, 4, 4, 0x18, 8, 1⟩
  | .ZQL_SQ => ⟨27, 4, 4, 0x100, 8, 8⟩
  | .ZQL_CQ => ⟨27, 4, 4, 0x140, 8, 8⟩
  | .ZQL_QPTR => ⟨27, 4, 4, 0x180, 8, 8⟩
  | .ZQL_PCTL => ⟨27, 1, 4, 0x1000, 8, 4⟩
  | .ZQL_PGRP => ⟨27, 1, 4, 0x1020, 8, 4⟩
  | .ZQL_PFLOW => ⟨27, 1, 4, 0x1040, 8, 4⟩
  | .ZQL_PSYNC => ⟨27, 1, 4, 0x1060, 8, 4⟩
  | .MGMT_BOOT => ⟨0, 1, 1, 0x0, 8, 1⟩
  | .RST_STAT => ⟨1, 1, 1, 0x0, 8, 1⟩
  | .RST_STRAP => ⟨1, 1, 1, 0x8, 8, 1⟩
  | .RST_CLK_STAT => ⟨1, 1, 1, 0x10, 8, 1⟩
  | .RST_RAIL_STAT => ⟨1, 1, 1, 0x18, 8, 1⟩
  | .RST_VREQ => ⟨1, 1, 1, 0x20, 8, 2⟩
  | .RST_RRB_ERR => ⟨1, 1, 1, 0x40, 8, 1⟩
  | .RST_DIE_RESETS => ⟨1, 1, 1, 0x48, 8, 2⟩
  | .EVT_LOG_HEAD => ⟨2, 1, 1, 0x0, 8, 1⟩
  | .EVT_DROP => ⟨2, 1, 1, 0x8, 8, 1⟩
  | .EVT_FRZ_CFG => ⟨2, 1, 1, 0x10, 8, 1⟩
  | .EVT_FRZ_CTL => ⟨2, 1, 1, 0x18, 8, 1⟩
  | .EVT_FRZ_MATCH => ⟨2, 1, 1, 0x20, 8, 1⟩
  | .EVT_FRZ_TWIST => ⟨2, 1, 1, 0x28, 8, 1⟩
  | .EVT_FRZ_TIME => ⟨2, 1, 1, 0x30, 8, 1⟩
  | .EVT_FRZ_MISSED => ⟨2, 1, 1, 0x38, 8, 1⟩
  | .EVT_LOG => ⟨2, 1, 1, 0x100000, 8, 16384⟩
  | .DBG_MON_CTL => ⟨31, 1, 1, 0x0, 8, 1⟩
  | .DBG_MON_ERR => ⟨31, 1, 1, 0x8, 8, 1⟩
  | .DBG_IDCODE => ⟨31, 1, 1, 0x10, 8, 1⟩
  | .DBG_UNLOCK => ⟨31, 1, 1, 0x100, 8, 4⟩

/-- Every register, in the order of the spec's tables. -/
def Reg.all : List Reg :=
  ([.LBI_CAP, .LBI_DIE_STAT, .LBI_WRAP_CTL, .LBI_PORT_STAT, .LBI_PORT_CTL, .LBI_REPLAY, .LBI_RETRAIN, .LBI_MRG_CTL, .LBI_MRG_RES, .MTX_MAP, .MTX_STAT, .MTX_FAULT, .MTX_SR_STATE, .MTX_TEST_CTL, .MTX_REPAIR, .STR_STAT, .STR_SR_STATE, .STR_CE, .STR_UE, .STR_PROMO, .STR_DMA_STAT, .CORE_CTL, .CORE_ILD, .CORE_STAT] : List Reg) ++
  ([.CORE_UST, .HBM_CFG, .HBM_STAT, .CREEL_BIAS_HBM, .CREEL_COMMIT_HBM, .HBM_PART, .HBM_KEY_CTL, .HBM_THERM, .HBM_THERM_CFG, .HBM_THERM_SUM, .HBM_THR_TIME, .HBM_CH_STAT, .HBM_CE, .HBM_UE, .HBM_MRG_CTL, .HBM_MRG_RES, .TWIST_CFG, .TWIST_PERIOD, .TWIST_PERIOD_AT, .TWIST_COMMIT, .TWIST_CNT, .TWIST_CNT_INIT, .TWIST_ALIGN, .TWIST_CAL] : List Reg) ++
  ([.TWIST_START, .TWIST_SLIPS, .SYNC_DBG, .SYNC_ZERO, .SYNC_DIE_CTL, .SYNC_BAR, .SYNC_BAR_STAT, .SYNC_FAILMAP, .SYNC_BAR_CTL, .SYNC_OBJ_LO, .SYNC_OBJ_HI, .FAB_ID, .CREEL_BIAS_FAB, .CREEL_COMMIT_FAB, .FAB_PLAN_CTL, .FAB_PLAN_STAT, .FAB_PLAN_AT, .FAB_PLAN_SRC, .FAB_RETX, .FAB_DROP, .FAB_AUTH, .FAB_TRN_DROP, .FAB_PMAP, .FAB_FSLOT] : List Reg) ++
  ([.FAB_SPERM, .FAB_TRN, .FAB_RT, .FAB_FCTX, .OPT_CFG, .OPT_SW_CTL, .OPT_SW_STAT, .OPT_SW_AT, .OPT_DSTAT, .OPT_BASELINE, .OPT_POWER, .LANE_CTL, .LANE_MRG_CTL, .LANE_MRG_RES, .LANE_RXPERM, .LANE_STAT, .LANE_CE, .LANE_UE, .LANE_MISLOCK, .LANE_RING, .PLY_STAT, .PLY_PSLOT, .PLY_STEP, .PLY_STEP_CTL] : List Reg) ++
  ([.PLY_LS, .PLY_SEED, .PLY_RULE_SEL, .PLY_SPB, .PLY_QDROP, .PLY_COMB, .PLY_SPLIT, .PLY_NONFIN, .PLY_SKFALL, .PLY_SKIPS, .TWIST_PHASE_BASE, .TWIST_PHASE_IDX, .TWIST_PHNOW, .PLY_VRF_LIST, .PLY_VRF_CTL, .ZQL_PORT_STAT, .ZQL_NAK, .ZQL_RETRAIN, .ZQL_EVDROP, .ZQL_SQ, .ZQL_CQ, .ZQL_QPTR, .ZQL_PCTL, .ZQL_PGRP] : List Reg) ++
  ([.ZQL_PFLOW, .ZQL_PSYNC, .MGMT_BOOT, .RST_STAT, .RST_STRAP, .RST_CLK_STAT, .RST_RAIL_STAT, .RST_VREQ, .RST_RRB_ERR, .RST_DIE_RESETS, .EVT_LOG_HEAD, .EVT_DROP, .EVT_FRZ_CFG, .EVT_FRZ_CTL, .EVT_FRZ_MATCH, .EVT_FRZ_TWIST, .EVT_FRZ_TIME, .EVT_FRZ_MISSED, .EVT_LOG, .DBG_MON_CTL, .DBG_MON_ERR, .DBG_IDCODE, .DBG_UNLOCK] : List Reg)

/-- One field: its bits and its access code (R8). -/
structure FieldInfo where
  hi : Nat
  lo : Nat
  acc : Access
  deriving DecidableEq, Repr

/-- The field maps: the fields that are not reserved. -/
def Reg.fields : Reg → List FieldInfo
  | .LBI_CAP => [⟨63, 0, .ro⟩]
  | .LBI_DIE_STAT => [⟨0, 0, .ro⟩, ⟨1, 1, .ro⟩, ⟨2, 2, .rs⟩, ⟨4, 3, .ro⟩, ⟨11, 5, .ro⟩]
  | .LBI_WRAP_CTL => [⟨0, 0, .wo⟩]
  | .LBI_PORT_STAT => [⟨3, 0, .ro⟩, ⟨7, 4, .ro⟩, ⟨13, 8, .ro⟩, ⟨19, 14, .ro⟩, ⟨27, 20, .ro⟩, ⟨31, 28, .ro⟩]
  | .LBI_PORT_CTL => [⟨0, 0, .rw⟩, ⟨1, 1, .wo⟩]
  | .LBI_REPLAY => [⟨47, 0, .cnt⟩, ⟨63, 63, .cnt⟩]
  | .LBI_RETRAIN => [⟨47, 0, .cnt⟩, ⟨63, 63, .cnt⟩]
  | .LBI_MRG_CTL => [⟨6, 0, .rw⟩, ⟨7, 7, .rw⟩, ⟨8, 8, .rw⟩, ⟨9, 9, .wo⟩, ⟨10, 10, .ro⟩, ⟨11, 11, .ro⟩, ⟨19, 12, .rw⟩, ⟨27, 20, .ro⟩]
  | .LBI_MRG_RES => [⟨5, 0, .ro⟩, ⟨11, 6, .ro⟩, ⟨12, 12, .ro⟩, ⟨13, 13, .ro⟩]
  | .MTX_MAP => [⟨9, 0, .ro⟩, ⟨10, 10, .ro⟩, ⟨11, 11, .ro⟩, ⟨12, 12, .ro⟩]
  | .MTX_STAT => [⟨0, 0, .w1c⟩, ⟨1, 1, .w1c⟩, ⟨2, 2, .w1c⟩, ⟨3, 3, .w1c⟩, ⟨4, 4, .ro⟩, ⟨6, 5, .ro⟩, ⟨9, 7, .ro⟩, ⟨12, 10, .ro⟩]
  | .MTX_FAULT => [⟨47, 0, .cnt⟩, ⟨63, 63, .cnt⟩]
  | .MTX_SR_STATE => [⟨63, 0, .ro⟩]
  | .MTX_TEST_CTL => [⟨9, 0, .rw⟩, ⟨10, 10, .wo⟩, ⟨11, 11, .ro⟩, ⟨12, 12, .ro⟩, ⟨14, 13, .ro⟩]
  | .MTX_REPAIR => [⟨5, 0, .ro⟩, ⟨11, 6, .ro⟩]
  | .STR_STAT => [⟨0, 0, .w1c⟩, ⟨1, 1, .w1c⟩, ⟨2, 2, .w1c⟩, ⟨3, 3, .w1c⟩, ⟨4, 4, .w1c⟩, ⟨5, 5, .w1c⟩]
  | .STR_SR_STATE => [⟨63, 0, .ro⟩]
  | .STR_CE => [⟨47, 0, .cnt⟩, ⟨63, 63, .cnt⟩]
  | .STR_UE => [⟨47, 0, .cnt⟩, ⟨63, 63, .cnt⟩]
  | .STR_PROMO => [⟨47, 0, .cnt⟩, ⟨63, 63, .cnt⟩]
  | .STR_DMA_STAT => [⟨4, 0, .ro⟩, ⟨7, 5, .ro⟩, ⟨8, 8, .w1c⟩, ⟨16, 9, .ro⟩]
  | .CORE_CTL => [⟨12, 0, .rw⟩, ⟨13, 13, .wo⟩, ⟨14, 14, .wo⟩, ⟨15, 15, .wo⟩]
  | .CORE_ILD => [⟨47, 0, .rw⟩, ⟨61, 48, .rw⟩]
  | .CORE_STAT => [⟨2, 0, .ro⟩, ⟨15, 3, .ro⟩, ⟨23, 16, .ro⟩, ⟨25, 24, .ro⟩, ⟨33, 26, .ro⟩]
  | .CORE_UST => [⟨7, 0, .ro⟩, ⟨15, 8, .ro⟩, ⟨23, 16, .ro⟩, ⟨31, 24, .ro⟩, ⟨35, 32, .ro⟩]
  | .HBM_CFG => [⟨0, 0, .rw⟩, ⟨1, 1, .ro⟩]
  | .HBM_STAT => [⟨0, 0, .ro⟩, ⟨8, 1, .ro⟩]
  | .CREEL_BIAS_HBM => [⟨15, 0, .sh⟩]
  | .CREEL_COMMIT_HBM => [⟨0, 0, .wo⟩]
  | .HBM_PART => [⟨0, 0, .rw⟩, ⟨5, 1, .rw⟩, ⟨11, 6, .rw⟩, ⟨12, 12, .ro⟩]
  | .HBM_KEY_CTL => [⟨3, 0, .wo⟩, ⟨4, 4, .ro⟩]
  | .HBM_THERM => [⟨7, 0, .ro⟩, ⟨9, 8, .ro⟩, ⟨10, 10, .rs⟩, ⟨11, 11, .ro⟩]
  | .HBM_THERM_CFG => [⟨7, 0, .rw⟩, ⟨15, 8, .rw⟩, ⟨19, 16, .rw⟩]
  | .HBM_THERM_SUM => [⟨0, 0, .ro⟩, ⟨15, 8, .ro⟩]
  | .HBM_THR_TIME => [⟨47, 0, .cnt⟩, ⟨63, 63, .cnt⟩]
  | .HBM_CH_STAT => [⟨1, 0, .ro⟩, ⟨3, 2, .ro⟩, ⟨4, 4, .ro⟩, ⟨11, 5, .ro⟩, ⟨18, 12, .ro⟩, ⟨25, 19, .ro⟩, ⟨32, 26, .ro⟩]
  | .HBM_CE => [⟨47, 0, .cnt⟩, ⟨63, 63, .cnt⟩]
  | .HBM_UE => [⟨47, 0, .cnt⟩, ⟨63, 63, .cnt⟩]
  | .HBM_MRG_CTL => [⟨7, 0, .rw⟩, ⟨8, 8, .rw⟩, ⟨9, 9, .rw⟩, ⟨10, 10, .wo⟩, ⟨11, 11, .ro⟩, ⟨12, 12, .ro⟩, ⟨23, 16, .rw⟩]
  | .HBM_MRG_RES => [⟨6, 0, .ro⟩, ⟨13, 7, .ro⟩, ⟨14, 14, .ro⟩, ⟨15, 15, .ro⟩]
  | .TWIST_CFG => [⟨0, 0, .ro⟩, ⟨1, 1, .rw⟩, ⟨2, 2, .rw⟩, ⟨18, 3, .rw⟩, ⟨24, 19, .rw⟩]
  | .TWIST_PERIOD => [⟨13, 0, .sh⟩]
  | .TWIST_PERIOD_AT => [⟨63, 0, .rw⟩]
  | .TWIST_COMMIT => [⟨0, 0, .wo⟩]
  | .TWIST_CNT => [⟨63, 0, .ro⟩]
  | .TWIST_CNT_INIT => [⟨63, 0, .rw⟩]
  | .TWIST_ALIGN => [⟨2, 0, .ro⟩, ⟨5, 3, .ro⟩, ⟨21, 6, .ro⟩, ⟨29, 22, .ro⟩, ⟨45, 30, .ro⟩]
  | .TWIST_CAL => [⟨31, 0, .ro⟩, ⟨47, 32, .rw⟩, ⟨48, 48, .ro⟩]
  | .TWIST_START => [⟨63, 0, .ro⟩]
  | .TWIST_SLIPS => [⟨47, 0, .cnt⟩, ⟨63, 63, .cnt⟩]
  | .SYNC_DBG => [⟨1, 0, .rw⟩]
  | .SYNC_ZERO => [⟨15, 0, .rw⟩, ⟨32, 16, .rw⟩, ⟨33, 33, .wo⟩, ⟨34, 34, .ro⟩, ⟨42, 35, .ro⟩]
  | .SYNC_DIE_CTL => [⟨1, 0, .wo⟩]
  | .SYNC_BAR => [⟨0, 0, .rw⟩, ⟨12, 1, .rw⟩, ⟨28, 13, .rw⟩, ⟨44, 29, .rw⟩, ⟨50, 45, .rw⟩, ⟨56, 51, .rw⟩]
  | .SYNC_BAR_STAT => [⟨11, 0, .ro⟩, ⟨27, 12, .ro⟩, ⟨28, 28, .ro⟩, ⟨29, 29, .ro⟩, ⟨37, 30, .ro⟩, ⟨53, 38, .ro⟩]
  | .SYNC_FAILMAP => [⟨63, 0, .ro⟩]
  | .SYNC_BAR_CTL => [⟨0, 0, .wo⟩]
  | .SYNC_OBJ_LO => [⟨31, 0, .rw⟩, ⟨47, 32, .ro⟩, ⟨49, 48, .ro⟩]
  | .SYNC_OBJ_HI => [⟨15, 0, .ro⟩, ⟨27, 16, .ro⟩, ⟨31, 28, .ro⟩, ⟨63, 32, .ro⟩]
  | .FAB_ID => [⟨15, 0, .ro⟩]
  | .CREEL_BIAS_FAB => [⟨15, 0, .sh⟩]
  | .CREEL_COMMIT_FAB => [⟨0, 0, .wo⟩]
  | .FAB_PLAN_CTL => [⟨0, 0, .wo⟩, ⟨1, 1, .wo⟩, ⟨2, 2, .wo⟩, ⟨3, 3, .wo⟩, ⟨15, 4, .rw⟩]
  | .FAB_PLAN_STAT => [⟨2, 0, .ro⟩, ⟨3, 3, .ro⟩, ⟨11, 4, .ro⟩, ⟨15, 12, .ro⟩, ⟨39, 16, .ro⟩, ⟨47, 40, .ro⟩, ⟨48, 48, .ro⟩]
  | .FAB_PLAN_AT => [⟨63, 0, .rw⟩]
  | .FAB_PLAN_SRC => [⟨47, 0, .rw⟩]
  | .FAB_RETX => [⟨47, 0, .cnt⟩, ⟨63, 63, .cnt⟩]
  | .FAB_DROP => [⟨47, 0, .cnt⟩, ⟨63, 63, .cnt⟩]
  | .FAB_AUTH => [⟨47, 0, .cnt⟩, ⟨63, 63, .cnt⟩]
  | .FAB_TRN_DROP => [⟨47, 0, .cnt⟩, ⟨63, 63, .cnt⟩]
  | .FAB_PMAP => [⟨15, 0, .rw⟩, ⟨18, 16, .rw⟩, ⟨23, 19, .rw⟩, ⟨24, 24, .rw⟩, ⟨25, 25, .rw⟩, ⟨49, 26, .rw⟩]
  | .FAB_FSLOT => [⟨63, 0, .rw⟩]
  | .FAB_SPERM => [⟨23, 0, .rw⟩, ⟨33, 24, .rw⟩]
  | .FAB_TRN => [⟨0, 0, .rw⟩, ⟨16, 1, .rw⟩, ⟨32, 17, .rw⟩]
  | .FAB_RT => [⟨1, 0, .ro⟩, ⟨3, 2, .ro⟩, ⟨19, 4, .ro⟩, ⟨20, 20, .ro⟩, ⟨24, 21, .ro⟩, ⟨32, 25, .ro⟩, ⟨40, 33, .ro⟩, ⟨48, 41, .ro⟩, ⟨56, 49, .ro⟩]
  | .FAB_FCTX => [⟨63, 0, .ro⟩]
  | .OPT_CFG => [⟨0, 0, .rw⟩, ⟨5, 1, .rw⟩]
  | .OPT_SW_CTL => [⟨0, 0, .wo⟩, ⟨1, 1, .wo⟩, ⟨2, 2, .rw⟩]
  | .OPT_SW_STAT => [⟨2, 0, .ro⟩, ⟨3, 3, .ro⟩, ⟨4, 4, .ro⟩, ⟨6, 5, .ro⟩, ⟨22, 7, .ro⟩, ⟨24, 23, .ro⟩]
  | .OPT_SW_AT => [⟨63, 0, .ro⟩]
  | .OPT_DSTAT => [⟨2, 0, .ro⟩, ⟨3, 3, .ro⟩, ⟨4, 4, .ro⟩, ⟨5, 5, .rs⟩, ⟨6, 6, .rs⟩, ⟨7, 7, .rs⟩, ⟨10, 8, .ro⟩, ⟨26, 11, .ro⟩]
  | .OPT_BASELINE => [⟨15, 0, .rw⟩, ⟨16, 16, .rw⟩]
  | .OPT_POWER => [⟨15, 0, .ro⟩, ⟨31, 16, .ro⟩, ⟨32, 32, .ro⟩]
  | .LANE_CTL => [⟨11, 0, .rw⟩, ⟨12, 12, .wo⟩]
  | .LANE_MRG_CTL => [⟨7, 0, .rw⟩, ⟨8, 8, .rw⟩, ⟨9, 9, .wo⟩, ⟨10, 10, .ro⟩, ⟨11, 11, .ro⟩, ⟨19, 12, .rw⟩, ⟨27, 20, .ro⟩]
  | .LANE_MRG_RES => [⟨5, 0, .ro⟩, ⟨11, 6, .ro⟩, ⟨12, 12, .ro⟩]
  | .LANE_RXPERM => [⟨23, 0, .rw⟩]
  | .LANE_STAT => [⟨7, 0, .ro⟩, ⟨15, 8, .ro⟩, ⟨18, 16, .ro⟩, ⟨19, 19, .ro⟩, ⟨20, 20, .ro⟩, ⟨21, 21, .ro⟩, ⟨22, 22, .ro⟩]
  | .LANE_CE => [⟨47, 0, .cnt⟩, ⟨63, 63, .cnt⟩]
  | .LANE_UE => [⟨47, 0, .cnt⟩, ⟨63, 63, .cnt⟩]
  | .LANE_MISLOCK => [⟨47, 0, .cnt⟩, ⟨63, 63, .cnt⟩]
  | .LANE_RING => [⟨2, 0, .ro⟩, ⟨5, 3, .ro⟩, ⟨6, 6, .rs⟩, ⟨22, 7, .ro⟩, ⟨38, 23, .ro⟩, ⟨54, 39, .ro⟩, ⟨55, 55, .ro⟩]
  | .PLY_STAT => [⟨6, 0, .ro⟩, ⟨7, 7, .ro⟩, ⟨10, 8, .ro⟩, ⟨23, 11, .ro⟩]
  | .PLY_PSLOT => [⟨63, 0, .rw⟩]
  | .PLY_STEP => [⟨47, 0, .rw⟩, ⟨48, 48, .rw⟩, ⟨49, 49, .ro⟩, ⟨50, 50, .ro⟩, ⟨51, 51, .ro⟩, ⟨53, 52, .ro⟩, ⟨54, 54, .ro⟩]
  | .PLY_STEP_CTL => [⟨0, 0, .wo⟩, ⟨1, 1, .wo⟩, ⟨2, 2, .wo⟩, ⟨10, 3, .ro⟩]
  | .PLY_LS => [⟨5, 0, .rw⟩, ⟨21, 6, .ro⟩, ⟨37, 22, .rw⟩, ⟨43, 38, .ro⟩]
  | .PLY_SEED => [⟨63, 0, .rw⟩]
  | .PLY_RULE_SEL => [⟨3, 0, .rw⟩, ⟨4, 4, .rw⟩]
  | .PLY_SPB => [⟨63, 0, .rw⟩]
  | .PLY_QDROP => [⟨47, 0, .cnt⟩, ⟨63, 63, .cnt⟩]
  | .PLY_COMB => [⟨47, 0, .cnt⟩, ⟨63, 63, .cnt⟩]
  | .PLY_SPLIT => [⟨47, 0, .cnt⟩, ⟨63, 63, .cnt⟩]
  | .PLY_NONFIN => [⟨47, 0, .cnt⟩, ⟨63, 63, .cnt⟩]
  | .PLY_SKFALL => [⟨47, 0, .cnt⟩, ⟨63, 63, .cnt⟩]
  | .PLY_SKIPS => [⟨47, 0, .cnt⟩, ⟨63, 63, .cnt⟩]
  | .TWIST_PHASE_BASE => [⟨47, 0, .rw⟩, ⟨48, 48, .rw⟩]
  | .TWIST_PHASE_IDX => [⟨47, 0, .cnt⟩, ⟨63, 63, .cnt⟩]
  | .TWIST_PHNOW => [⟨47, 0, .cnt⟩, ⟨63, 63, .cnt⟩]
  | .PLY_VRF_LIST => [⟨47, 0, .rw⟩]
  | .PLY_VRF_CTL => [⟨0, 0, .wo⟩, ⟨1, 1, .rw⟩, ⟨2, 2, .ro⟩, ⟨3, 3, .ro⟩, ⟨4, 4, .ro⟩, ⟨12, 5, .ro⟩, ⟨28, 13, .rw⟩, ⟨44, 29, .rw⟩, ⟨45, 45, .rw⟩, ⟨46, 46, .rw⟩]
  | .ZQL_PORT_STAT => [⟨1, 0, .ro⟩, ⟨2, 2, .ro⟩, ⟨3, 3, .ro⟩, ⟨5, 4, .ro⟩, ⟨9, 6, .ro⟩]
  | .ZQL_NAK => [⟨47, 0, .cnt⟩, ⟨63, 63, .cnt⟩]
  | .ZQL_RETRAIN => [⟨47, 0, .cnt⟩, ⟨63, 63, .cnt⟩]
  | .ZQL_EVDROP => [⟨47, 0, .cnt⟩, ⟨63, 63, .cnt⟩]
  | .ZQL_SQ => [⟨47, 0, .rw⟩, ⟨51, 48, .rw⟩, ⟨52, 52, .rw⟩]
  | .ZQL_CQ => [⟨47, 0, .rw⟩, ⟨51, 48, .rw⟩, ⟨52, 52, .rw⟩, ⟨53, 53, .rw⟩, ⟨54, 54, .ro⟩]
  | .ZQL_QPTR => [⟨11, 0, .ro⟩, ⟨23, 12, .ro⟩, ⟨35, 24, .ro⟩, ⟨47, 36, .ro⟩, ⟨63, 48, .rw⟩]
  | .ZQL_PCTL => [⟨2, 0, .ro⟩, ⟨4, 3, .rw⟩, ⟨36, 5, .ro⟩]
  | .ZQL_PGRP => [⟨15, 0, .rw⟩]
  | .ZQL_PFLOW => [⟨63, 0, .rw⟩]
  | .ZQL_PSYNC => [⟨31, 0, .rw⟩, ⟨47, 32, .rw⟩]
  | .MGMT_BOOT => [⟨0, 0, .ro⟩, ⟨1, 1, .ro⟩, ⟨5, 2, .ro⟩, ⟨8, 6, .ro⟩, ⟨11, 9, .ro⟩, ⟨18, 12, .ro⟩]
  | .RST_STAT => [⟨1, 0, .ro⟩, ⟨9, 2, .ro⟩, ⟨10, 10, .ro⟩]
  | .RST_STRAP => [⟨15, 0, .ro⟩, ⟨17, 16, .ro⟩, ⟨18, 18, .ro⟩, ⟨19, 19, .ro⟩]
  | .RST_CLK_STAT => [⟨15, 0, .ro⟩, ⟨16, 16, .ro⟩, ⟨17, 17, .ro⟩]
  | .RST_RAIL_STAT => [⟨7, 0, .ro⟩, ⟨15, 8, .ro⟩]
  | .RST_VREQ => [⟨7, 0, .ro⟩, ⟨15, 8, .ro⟩, ⟨31, 16, .ro⟩, ⟨32, 32, .rs⟩, ⟨33, 33, .rs⟩]
  | .RST_RRB_ERR => [⟨47, 0, .cnt⟩, ⟨63, 63, .cnt⟩]
  | .RST_DIE_RESETS => [⟨47, 0, .cnt⟩, ⟨63, 63, .cnt⟩]
  | .EVT_LOG_HEAD => [⟨47, 0, .cnt⟩, ⟨63, 63, .cnt⟩]
  | .EVT_DROP => [⟨47, 0, .cnt⟩, ⟨63, 63, .cnt⟩]
  | .EVT_FRZ_CFG => [⟨0, 0, .rw⟩, ⟨1, 1, .rw⟩, ⟨2, 2, .rw⟩, ⟨3, 3, .rw⟩, ⟨4, 4, .rw⟩]
  | .EVT_FRZ_CTL => [⟨0, 0, .wo⟩, ⟨1, 1, .wo⟩, ⟨3, 2, .ro⟩, ⟨7, 4, .ro⟩, ⟨9, 8, .ro⟩]
  | .EVT_FRZ_MATCH => [⟨7, 0, .rw⟩, ⟨15, 8, .rw⟩, ⟨18, 16, .rw⟩, ⟨19, 19, .rw⟩, ⟨20, 20, .rw⟩, ⟨21, 21, .rw⟩]
  | .EVT_FRZ_TWIST => [⟨63, 0, .rw⟩]
  | .EVT_FRZ_TIME => [⟨63, 0, .ro⟩]
  | .EVT_FRZ_MISSED => [⟨47, 0, .cnt⟩, ⟨63, 63, .cnt⟩]
  | .EVT_LOG => [⟨63, 0, .ro⟩]
  | .DBG_MON_CTL => [⟨1, 0, .rw⟩, ⟨2, 2, .ro⟩, ⟨5, 3, .ro⟩]
  | .DBG_MON_ERR => [⟨47, 0, .cnt⟩, ⟨63, 63, .cnt⟩]
  | .DBG_IDCODE => [⟨31, 0, .ro⟩]
  | .DBG_UNLOCK => [⟨0, 0, .rw⟩]

/-- The Reset column of a register's field map, fields with a dash as zero (notes/assumptions/3.md). -/
def Reg.reset0 : Reg → Nat
  | .LBI_DIE_STAT => 0x2
  | .LBI_MRG_CTL => 0x1000
  | .LANE_MRG_CTL => 0x1000
  | .MTX_SR_STATE => 0x1
  | .STR_SR_STATE => 0x1
  | .HBM_CFG => 0x1
  | .PLY_SEED => 0x1
  | .HBM_THERM_CFG => 0x3695f
  | .HBM_CH_STAT => 0x1ffffffe0
  | .HBM_MRG_CTL => 0x10000
  | .TWIST_CFG => 0x800000
  | .TWIST_PERIOD => 0x3e8
  | .SYNC_BAR => 0x1f8600000000000
  | .FAB_FSLOT => 0xffffffffffffffff
  | .PLY_PSLOT => 0xffffffffffffffff
  | .FAB_SPERM => 0x30fac688
  | .OPT_CFG => 0x9
  | .LANE_RXPERM => 0xfac688
  | .PLY_STAT => 0x700
  | .PLY_LS => 0x401f4000010
  | .PLY_RULE_SEL => 0xf
  | .ZQL_CQ => 0x40000000000000
  | .RST_VREQ => 0x6464
  | .EVT_FRZ_CFG => 0x4
  | .DBG_IDCODE => 0x51214b7
  | _ => 0

/-- The Reset column of `CREEL_BIAS_n` at the HBM channels (R182) and at the lanes (R252). -/
def creelReset (lane : Bool) (cls : Nat) : Nat :=
  match cls with
  | 0 => 0x400
  | 1 => 0x800
  | 2 => if lane then 0x1000 else 0x800
  | 4 => if lane then 0x800 else 0x1000
  | 5 => 0x800
  | 6 => 0x200
  | _ => 0

/-- The reset value of register `r` at index `i` (R8): the Reset column, with the per-class bias and the group that a
distaff serves at reset (`OPT_DSTAT_k.SERVES`: 0 for A and the spare, 1 for B). Log entry notes/assumptions/3.md (DESIGN CHOICE). -/
def Reg.reset (r : Reg) (i : Nat) : Word :=
  BitVec.ofNat 64 <|
    match r with
    | .CREEL_BIAS_HBM => creelReset false i
    | .CREEL_BIAS_FAB => creelReset true i
    | .OPT_DSTAT => if i % 3 = 1 then 8 else 0
    | r => r.reset0

/-- The local address of register `r`, index `i` (R154). The index of a register with a copy in several windows counts on
through the windows. -/
def Reg.addr (r : Reg) (i : Nat) : Nat :=
  let n := r.info
  0x01C000000000 + (n.win + i / n.count) * 0x1000000 + n.off + n.stride * (i % n.count)

/-- A field of a register. -/
structure Fld where
  reg : Reg
  hi : Nat
  lo : Nat
  deriving DecidableEq, Repr

/-- How many bits a field has. -/
def Fld.width (f : Fld) : Nat := f.hi - f.lo + 1

namespace F

def LBI_CAP_WORD : Fld := ⟨.LBI_CAP, 63, 0⟩
def LBI_DIE_STAT_ALIVE : Fld := ⟨.LBI_DIE_STAT, 0, 0⟩
def LBI_DIE_STAT_WRAP_CLOSED : Fld := ⟨.LBI_DIE_STAT, 1, 1⟩
def LBI_DIE_STAT_LOST : Fld := ⟨.LBI_DIE_STAT, 2, 2⟩
def LBI_DIE_STAT_CAUSE : Fld := ⟨.LBI_DIE_STAT, 4, 3⟩
def LBI_DIE_STAT_PORTS_ACTIVE : Fld := ⟨.LBI_DIE_STAT, 11, 5⟩
def LBI_WRAP_CTL_OPEN : Fld := ⟨.LBI_WRAP_CTL, 0, 0⟩
def LBI_PORT_STAT_STATE : Fld := ⟨.LBI_PORT_STAT, 3, 0⟩
def LBI_PORT_STAT_REASON : Fld := ⟨.LBI_PORT_STAT, 7, 4⟩
def LBI_PORT_STAT_SPARES_UP : Fld := ⟨.LBI_PORT_STAT, 13, 8⟩
def LBI_PORT_STAT_SPARES_DOWN : Fld := ⟨.LBI_PORT_STAT, 19, 14⟩
def LBI_PORT_STAT_SEQ : Fld := ⟨.LBI_PORT_STAT, 27, 20⟩
def LBI_PORT_STAT_CLK_ALT : Fld := ⟨.LBI_PORT_STAT, 31, 28⟩
def LBI_PORT_CTL_DISABLE : Fld := ⟨.LBI_PORT_CTL, 0, 0⟩
def LBI_PORT_CTL_RETRAIN : Fld := ⟨.LBI_PORT_CTL, 1, 1⟩
def LBI_REPLAY_VALUE : Fld := ⟨.LBI_REPLAY, 47, 0⟩
def LBI_REPLAY_SAT : Fld := ⟨.LBI_REPLAY, 63, 63⟩
def LBI_RETRAIN_VALUE : Fld := ⟨.LBI_RETRAIN, 47, 0⟩
def LBI_RETRAIN_SAT : Fld := ⟨.LBI_RETRAIN, 63, 63⟩
def LBI_MRG_CTL_PORT : Fld := ⟨.LBI_MRG_CTL, 6, 0⟩
def LBI_MRG_CTL_DIR : Fld := ⟨.LBI_MRG_CTL, 7, 7⟩
def LBI_MRG_CTL_AXIS : Fld := ⟨.LBI_MRG_CTL, 8, 8⟩
def LBI_MRG_CTL_START : Fld := ⟨.LBI_MRG_CTL, 9, 9⟩
def LBI_MRG_CTL_BUSY : Fld := ⟨.LBI_MRG_CTL, 10, 10⟩
def LBI_MRG_CTL_DONE : Fld := ⟨.LBI_MRG_CTL, 11, 11⟩
def LBI_MRG_CTL_DWELL : Fld := ⟨.LBI_MRG_CTL, 19, 12⟩
def LBI_MRG_CTL_STATUS : Fld := ⟨.LBI_MRG_CTL, 27, 20⟩
def LBI_MRG_RES_LOW : Fld := ⟨.LBI_MRG_RES, 5, 0⟩
def LBI_MRG_RES_HIGH : Fld := ⟨.LBI_MRG_RES, 11, 6⟩
def LBI_MRG_RES_PASS : Fld := ⟨.LBI_MRG_RES, 12, 12⟩
def LBI_MRG_RES_IN_USE : Fld := ⟨.LBI_MRG_RES, 13, 13⟩
def MTX_MAP_PHYS : Fld := ⟨.MTX_MAP, 9, 0⟩
def MTX_MAP_SPARE : Fld := ⟨.MTX_MAP, 10, 10⟩
def MTX_MAP_REPAIRED : Fld := ⟨.MTX_MAP, 11, 11⟩
def MTX_MAP_MISSING : Fld := ⟨.MTX_MAP, 12, 12⟩
def MTX_STAT_NAN : Fld := ⟨.MTX_STAT, 0, 0⟩
def MTX_STAT_OVF : Fld := ⟨.MTX_STAT, 1, 1⟩
def MTX_STAT_INT_SAT : Fld := ⟨.MTX_STAT, 2, 2⟩
def MTX_STAT_FAULT : Fld := ⟨.MTX_STAT, 3, 3⟩
def MTX_STAT_FAILED : Fld := ⟨.MTX_STAT, 4, 4⟩
def MTX_STAT_FAILED_ARRAY : Fld := ⟨.MTX_STAT, 6, 5⟩
def MTX_STAT_A0_TAG : Fld := ⟨.MTX_STAT, 9, 7⟩
def MTX_STAT_A1_TAG : Fld := ⟨.MTX_STAT, 12, 10⟩
def MTX_FAULT_VALUE : Fld := ⟨.MTX_FAULT, 47, 0⟩
def MTX_FAULT_SAT : Fld := ⟨.MTX_FAULT, 63, 63⟩
def MTX_SR_STATE_STATE : Fld := ⟨.MTX_SR_STATE, 63, 0⟩
def MTX_TEST_CTL_CORE : Fld := ⟨.MTX_TEST_CTL, 9, 0⟩
def MTX_TEST_CTL_START : Fld := ⟨.MTX_TEST_CTL, 10, 10⟩
def MTX_TEST_CTL_BUSY : Fld := ⟨.MTX_TEST_CTL, 11, 11⟩
def MTX_TEST_CTL_PASS : Fld := ⟨.MTX_TEST_CTL, 12, 12⟩
def MTX_TEST_CTL_ARRAY : Fld := ⟨.MTX_TEST_CTL, 14, 13⟩
def MTX_REPAIR_FREE : Fld := ⟨.MTX_REPAIR, 5, 0⟩
def MTX_REPAIR_USED : Fld := ⟨.MTX_REPAIR, 11, 6⟩
def STR_STAT_NAN : Fld := ⟨.STR_STAT, 0, 0⟩
def STR_STAT_OVF : Fld := ⟨.STR_STAT, 1, 1⟩
def STR_STAT_INT_SAT : Fld := ⟨.STR_STAT, 2, 2⟩
def STR_STAT_TRUNC : Fld := ⟨.STR_STAT, 3, 3⟩
def STR_STAT_UE : Fld := ⟨.STR_STAT, 4, 4⟩
def STR_STAT_FMT : Fld := ⟨.STR_STAT, 5, 5⟩
def STR_SR_STATE_STATE : Fld := ⟨.STR_SR_STATE, 63, 0⟩
def STR_CE_VALUE : Fld := ⟨.STR_CE, 47, 0⟩
def STR_CE_SAT : Fld := ⟨.STR_CE, 63, 63⟩
def STR_UE_VALUE : Fld := ⟨.STR_UE, 47, 0⟩
def STR_UE_SAT : Fld := ⟨.STR_UE, 63, 63⟩
def STR_PROMO_VALUE : Fld := ⟨.STR_PROMO, 47, 0⟩
def STR_PROMO_SAT : Fld := ⟨.STR_PROMO, 63, 63⟩
def STR_DMA_STAT_QUEUED : Fld := ⟨.STR_DMA_STAT, 4, 0⟩
def STR_DMA_STAT_RUNNING : Fld := ⟨.STR_DMA_STAT, 7, 5⟩
def STR_DMA_STAT_ERR : Fld := ⟨.STR_DMA_STAT, 8, 8⟩
def STR_DMA_STAT_LAST_ERR : Fld := ⟨.STR_DMA_STAT, 16, 9⟩
def CORE_CTL_ENTRY : Fld := ⟨.CORE_CTL, 12, 0⟩
def CORE_CTL_START : Fld := ⟨.CORE_CTL, 13, 13⟩
def CORE_CTL_STOP : Fld := ⟨.CORE_CTL, 14, 14⟩
def CORE_CTL_LOAD : Fld := ⟨.CORE_CTL, 15, 15⟩
def CORE_ILD_SRC : Fld := ⟨.CORE_ILD, 47, 0⟩
def CORE_ILD_COUNT : Fld := ⟨.CORE_ILD, 61, 48⟩
def CORE_STAT_STATE : Fld := ⟨.CORE_STAT, 2, 0⟩
def CORE_STAT_PC : Fld := ⟨.CORE_STAT, 15, 3⟩
def CORE_STAT_HALT_STATUS : Fld := ⟨.CORE_STAT, 23, 16⟩
def CORE_STAT_HALT_CAUSE : Fld := ⟨.CORE_STAT, 25, 24⟩
def CORE_STAT_LOAD_STATUS : Fld := ⟨.CORE_STAT, 33, 26⟩
def CORE_UST_M_FIRST : Fld := ⟨.CORE_UST, 7, 0⟩
def CORE_UST_V_FIRST : Fld := ⟨.CORE_UST, 15, 8⟩
def CORE_UST_X_FIRST : Fld := ⟨.CORE_UST, 23, 16⟩
def CORE_UST_T_FIRST : Fld := ⟨.CORE_UST, 31, 24⟩
def CORE_UST_MORE : Fld := ⟨.CORE_UST, 35, 32⟩
def HBM_CFG_HASH : Fld := ⟨.HBM_CFG, 0, 0⟩
def HBM_CFG_LOCK : Fld := ⟨.HBM_CFG, 1, 1⟩
def HBM_STAT_READY : Fld := ⟨.HBM_STAT, 0, 0⟩
def HBM_STAT_FAILED_CH : Fld := ⟨.HBM_STAT, 8, 1⟩
def CREEL_BIAS_HBM_BIAS : Fld := ⟨.CREEL_BIAS_HBM, 15, 0⟩
def CREEL_COMMIT_HBM_COMMIT : Fld := ⟨.CREEL_COMMIT_HBM, 0, 0⟩
def HBM_PART_VALID : Fld := ⟨.HBM_PART, 0, 0⟩
def HBM_PART_BASE : Fld := ⟨.HBM_PART, 5, 1⟩
def HBM_PART_SIZE : Fld := ⟨.HBM_PART, 11, 6⟩
def HBM_PART_KEY_LIVE : Fld := ⟨.HBM_PART, 12, 12⟩
def HBM_KEY_CTL_DROP : Fld := ⟨.HBM_KEY_CTL, 3, 0⟩
def HBM_KEY_CTL_BUSY : Fld := ⟨.HBM_KEY_CTL, 4, 4⟩
def HBM_THERM_TEMP : Fld := ⟨.HBM_THERM, 7, 0⟩
def HBM_THERM_LEVEL : Fld := ⟨.HBM_THERM, 9, 8⟩
def HBM_THERM_CRIT : Fld := ⟨.HBM_THERM, 10, 10⟩
def HBM_THERM_NO_READING : Fld := ⟨.HBM_THERM, 11, 11⟩
def HBM_THERM_CFG_THROTTLE : Fld := ⟨.HBM_THERM_CFG, 7, 0⟩
def HBM_THERM_CFG_CRITICAL : Fld := ⟨.HBM_THERM_CFG, 15, 8⟩
def HBM_THERM_CFG_HYST : Fld := ⟨.HBM_THERM_CFG, 19, 16⟩
def HBM_THERM_SUM_HEAT : Fld := ⟨.HBM_THERM_SUM, 0, 0⟩
def HBM_THERM_SUM_ABOVE : Fld := ⟨.HBM_THERM_SUM, 15, 8⟩
def HBM_THR_TIME_VALUE : Fld := ⟨.HBM_THR_TIME, 47, 0⟩
def HBM_THR_TIME_SAT : Fld := ⟨.HBM_THR_TIME, 63, 63⟩
def HBM_CH_STAT_SPARES_USED : Fld := ⟨.HBM_CH_STAT, 1, 0⟩
def HBM_CH_STAT_CHECK_ALT : Fld := ⟨.HBM_CH_STAT, 3, 2⟩
def HBM_CH_STAT_FAILED : Fld := ⟨.HBM_CH_STAT, 4, 4⟩
def HBM_CH_STAT_REPL_D0 : Fld := ⟨.HBM_CH_STAT, 11, 5⟩
def HBM_CH_STAT_REPL_D1 : Fld := ⟨.HBM_CH_STAT, 18, 12⟩
def HBM_CH_STAT_REPL_C0 : Fld := ⟨.HBM_CH_STAT, 25, 19⟩
def HBM_CH_STAT_REPL_C1 : Fld := ⟨.HBM_CH_STAT, 32, 26⟩
def HBM_CE_VALUE : Fld := ⟨.HBM_CE, 47, 0⟩
def HBM_CE_SAT : Fld := ⟨.HBM_CE, 63, 63⟩
def HBM_UE_VALUE : Fld := ⟨.HBM_UE, 47, 0⟩
def HBM_UE_SAT : Fld := ⟨.HBM_UE, 63, 63⟩
def HBM_MRG_CTL_CHANNEL : Fld := ⟨.HBM_MRG_CTL, 7, 0⟩
def HBM_MRG_CTL_AXIS : Fld := ⟨.HBM_MRG_CTL, 8, 8⟩
def HBM_MRG_CTL_DIR : Fld := ⟨.HBM_MRG_CTL, 9, 9⟩
def HBM_MRG_CTL_START : Fld := ⟨.HBM_MRG_CTL, 10, 10⟩
def HBM_MRG_CTL_BUSY : Fld := ⟨.HBM_MRG_CTL, 11, 11⟩
def HBM_MRG_CTL_DONE : Fld := ⟨.HBM_MRG_CTL, 12, 12⟩
def HBM_MRG_CTL_DWELL : Fld := ⟨.HBM_MRG_CTL, 23, 16⟩
def HBM_MRG_RES_LOW : Fld := ⟨.HBM_MRG_RES, 6, 0⟩
def HBM_MRG_RES_HIGH : Fld := ⟨.HBM_MRG_RES, 13, 7⟩
def HBM_MRG_RES_PASS : Fld := ⟨.HBM_MRG_RES, 14, 14⟩
def HBM_MRG_RES_IN_USE : Fld := ⟨.HBM_MRG_RES, 15, 15⟩
def TWIST_CFG_ROOT : Fld := ⟨.TWIST_CFG, 0, 0⟩
def TWIST_CFG_ENABLE : Fld := ⟨.TWIST_CFG, 1, 1⟩
def TWIST_CFG_FOLLOW : Fld := ⟨.TWIST_CFG, 2, 2⟩
def TWIST_CFG_FOLLOW_ID : Fld := ⟨.TWIST_CFG, 18, 3⟩
def TWIST_CFG_HOLD : Fld := ⟨.TWIST_CFG, 24, 19⟩
def TWIST_PERIOD_PERIOD : Fld := ⟨.TWIST_PERIOD, 13, 0⟩
def TWIST_PERIOD_AT_AT : Fld := ⟨.TWIST_PERIOD_AT, 63, 0⟩
def TWIST_COMMIT_COMMIT : Fld := ⟨.TWIST_COMMIT, 0, 0⟩
def TWIST_CNT_CNT : Fld := ⟨.TWIST_CNT, 63, 0⟩
def TWIST_CNT_INIT_INIT : Fld := ⟨.TWIST_CNT_INIT, 63, 0⟩
def TWIST_ALIGN_STATE : Fld := ⟨.TWIST_ALIGN, 2, 0⟩
def TWIST_ALIGN_REASON : Fld := ⟨.TWIST_ALIGN, 5, 3⟩
def TWIST_ALIGN_SOURCE : Fld := ⟨.TWIST_ALIGN, 21, 6⟩
def TWIST_ALIGN_HOPS : Fld := ⟨.TWIST_ALIGN, 29, 22⟩
def TWIST_ALIGN_ERROR : Fld := ⟨.TWIST_ALIGN, 45, 30⟩
def TWIST_CAL_DELAY : Fld := ⟨.TWIST_CAL, 31, 0⟩
def TWIST_CAL_ASYM : Fld := ⟨.TWIST_CAL, 47, 32⟩
def TWIST_CAL_VALID : Fld := ⟨.TWIST_CAL, 48, 48⟩
def TWIST_START_START : Fld := ⟨.TWIST_START, 63, 0⟩
def TWIST_SLIPS_VALUE : Fld := ⟨.TWIST_SLIPS, 47, 0⟩
def TWIST_SLIPS_SAT : Fld := ⟨.TWIST_SLIPS, 63, 63⟩
def SYNC_DBG_MODE : Fld := ⟨.SYNC_DBG, 1, 0⟩
def SYNC_ZERO_FIRST : Fld := ⟨.SYNC_ZERO, 15, 0⟩
def SYNC_ZERO_COUNT : Fld := ⟨.SYNC_ZERO, 32, 16⟩
def SYNC_ZERO_START : Fld := ⟨.SYNC_ZERO, 33, 33⟩
def SYNC_ZERO_BUSY : Fld := ⟨.SYNC_ZERO, 34, 34⟩
def SYNC_ZERO_STATUS : Fld := ⟨.SYNC_ZERO, 42, 35⟩
def SYNC_DIE_CTL_CLEAR : Fld := ⟨.SYNC_DIE_CTL, 1, 0⟩
def SYNC_BAR_ENABLE : Fld := ⟨.SYNC_BAR, 0, 0⟩
def SYNC_BAR_LOCAL_N : Fld := ⟨.SYNC_BAR, 12, 1⟩
def SYNC_BAR_PARTS_N : Fld := ⟨.SYNC_BAR, 28, 13⟩
def SYNC_BAR_HOME : Fld := ⟨.SYNC_BAR, 44, 29⟩
def SYNC_BAR_TIMEOUT : Fld := ⟨.SYNC_BAR, 50, 45⟩
def SYNC_BAR_GRACE : Fld := ⟨.SYNC_BAR, 56, 51⟩
def SYNC_BAR_STAT_LOCAL_COUNT : Fld := ⟨.SYNC_BAR_STAT, 11, 0⟩
def SYNC_BAR_STAT_PARTS_COUNT : Fld := ⟨.SYNC_BAR_STAT, 27, 12⟩
def SYNC_BAR_STAT_GRACE_ON : Fld := ⟨.SYNC_BAR_STAT, 28, 28⟩
def SYNC_BAR_STAT_HEAT_SENT : Fld := ⟨.SYNC_BAR_STAT, 29, 29⟩
def SYNC_BAR_STAT_LAST_STATUS : Fld := ⟨.SYNC_BAR_STAT, 37, 30⟩
def SYNC_BAR_STAT_LAST_GEN : Fld := ⟨.SYNC_BAR_STAT, 53, 38⟩
def SYNC_FAILMAP_MAP : Fld := ⟨.SYNC_FAILMAP, 63, 0⟩
def SYNC_BAR_CTL_ABORT : Fld := ⟨.SYNC_BAR_CTL, 0, 0⟩
def SYNC_OBJ_LO_VALUE : Fld := ⟨.SYNC_OBJ_LO, 31, 0⟩
def SYNC_OBJ_LO_WAITERS : Fld := ⟨.SYNC_OBJ_LO, 47, 32⟩
def SYNC_OBJ_LO_STATE : Fld := ⟨.SYNC_OBJ_LO, 49, 48⟩
def SYNC_OBJ_HI_LAST_PART : Fld := ⟨.SYNC_OBJ_HI, 15, 0⟩
def SYNC_OBJ_HI_LAST_SRC : Fld := ⟨.SYNC_OBJ_HI, 27, 16⟩
def SYNC_OBJ_HI_LAST_CH : Fld := ⟨.SYNC_OBJ_HI, 31, 28⟩
def SYNC_OBJ_HI_LAST_TWIST : Fld := ⟨.SYNC_OBJ_HI, 63, 32⟩
def FAB_ID_ID : Fld := ⟨.FAB_ID, 15, 0⟩
def CREEL_BIAS_FAB_BIAS : Fld := ⟨.CREEL_BIAS_FAB, 15, 0⟩
def CREEL_COMMIT_FAB_COMMIT : Fld := ⟨.CREEL_COMMIT_FAB, 0, 0⟩
def FAB_PLAN_CTL_PREPARE : Fld := ⟨.FAB_PLAN_CTL, 0, 0⟩
def FAB_PLAN_CTL_ARM : Fld := ⟨.FAB_PLAN_CTL, 1, 1⟩
def FAB_PLAN_CTL_STOP : Fld := ⟨.FAB_PLAN_CTL, 2, 2⟩
def FAB_PLAN_CTL_DISCARD : Fld := ⟨.FAB_PLAN_CTL, 3, 3⟩
def FAB_PLAN_CTL_BAR : Fld := ⟨.FAB_PLAN_CTL, 15, 4⟩
def FAB_PLAN_STAT_STAGED : Fld := ⟨.FAB_PLAN_STAT, 2, 0⟩
def FAB_PLAN_STAT_ACTIVE : Fld := ⟨.FAB_PLAN_STAT, 3, 3⟩
def FAB_PLAN_STAT_STATUS : Fld := ⟨.FAB_PLAN_STAT, 11, 4⟩
def FAB_PLAN_STAT_SECTION : Fld := ⟨.FAB_PLAN_STAT, 15, 12⟩
def FAB_PLAN_STAT_ENTRY : Fld := ⟨.FAB_PLAN_STAT, 39, 16⟩
def FAB_PLAN_STAT_DEFER : Fld := ⟨.FAB_PLAN_STAT, 47, 40⟩
def FAB_PLAN_STAT_KEY_LIVE : Fld := ⟨.FAB_PLAN_STAT, 48, 48⟩
def FAB_PLAN_AT_AT : Fld := ⟨.FAB_PLAN_AT, 63, 0⟩
def FAB_PLAN_SRC_ADDR : Fld := ⟨.FAB_PLAN_SRC, 47, 0⟩
def FAB_RETX_VALUE : Fld := ⟨.FAB_RETX, 47, 0⟩
def FAB_RETX_SAT : Fld := ⟨.FAB_RETX, 63, 63⟩
def FAB_DROP_VALUE : Fld := ⟨.FAB_DROP, 47, 0⟩
def FAB_DROP_SAT : Fld := ⟨.FAB_DROP, 63, 63⟩
def FAB_AUTH_VALUE : Fld := ⟨.FAB_AUTH, 47, 0⟩
def FAB_AUTH_SAT : Fld := ⟨.FAB_AUTH, 63, 63⟩
def FAB_TRN_DROP_VALUE : Fld := ⟨.FAB_TRN_DROP, 47, 0⟩
def FAB_TRN_DROP_SAT : Fld := ⟨.FAB_TRN_DROP, 63, 63⟩
def FAB_PMAP_DEST : Fld := ⟨.FAB_PMAP, 15, 0⟩
def FAB_PMAP_DEST_LE : Fld := ⟨.FAB_PMAP, 18, 16⟩
def FAB_PMAP_DEST_FIBRE : Fld := ⟨.FAB_PMAP, 23, 19⟩
def FAB_PMAP_VALID : Fld := ⟨.FAB_PMAP, 24, 24⟩
def FAB_PMAP_WORLD : Fld := ⟨.FAB_PMAP, 25, 25⟩
def FAB_PMAP_FLIGHT : Fld := ⟨.FAB_PMAP, 49, 26⟩
def FAB_FSLOT_OWNER : Fld := ⟨.FAB_FSLOT, 63, 0⟩
def FAB_SPERM_PERM : Fld := ⟨.FAB_SPERM, 23, 0⟩
def FAB_SPERM_GUARD : Fld := ⟨.FAB_SPERM, 33, 24⟩
def FAB_TRN_VALID : Fld := ⟨.FAB_TRN, 0, 0⟩
def FAB_TRN_SLICE : Fld := ⟨.FAB_TRN, 16, 1⟩
def FAB_TRN_DST : Fld := ⟨.FAB_TRN, 32, 17⟩
def FAB_RT_KIND : Fld := ⟨.FAB_RT, 1, 0⟩
def FAB_RT_PART : Fld := ⟨.FAB_RT, 3, 2⟩
def FAB_RT_SLICE : Fld := ⟨.FAB_RT, 19, 4⟩
def FAB_RT_DIRECT_EN : Fld := ⟨.FAB_RT, 20, 20⟩
def FAB_RT_RELAY_EN : Fld := ⟨.FAB_RT, 24, 21⟩
def FAB_RT_RELAY0 : Fld := ⟨.FAB_RT, 32, 25⟩
def FAB_RT_RELAY1 : Fld := ⟨.FAB_RT, 40, 33⟩
def FAB_RT_RELAY2 : Fld := ⟨.FAB_RT, 48, 41⟩
def FAB_RT_RELAY3 : Fld := ⟨.FAB_RT, 56, 49⟩
def FAB_FCTX_WORD : Fld := ⟨.FAB_FCTX, 63, 0⟩
def OPT_CFG_AUTO_PLAN : Fld := ⟨.OPT_CFG, 0, 0⟩
def OPT_CFG_LEAD : Fld := ⟨.OPT_CFG, 5, 1⟩
def OPT_SW_CTL_PLAN : Fld := ⟨.OPT_SW_CTL, 0, 0⟩
def OPT_SW_CTL_FORCE : Fld := ⟨.OPT_SW_CTL, 1, 1⟩
def OPT_SW_CTL_GROUP : Fld := ⟨.OPT_SW_CTL, 2, 2⟩
def OPT_SW_STAT_STATE : Fld := ⟨.OPT_SW_STAT, 2, 0⟩
def OPT_SW_STAT_GROUP : Fld := ⟨.OPT_SW_STAT, 3, 3⟩
def OPT_SW_STAT_FORCED : Fld := ⟨.OPT_SW_STAT, 4, 4⟩
def OPT_SW_STAT_REFUSE : Fld := ⟨.OPT_SW_STAT, 6, 5⟩
def OPT_SW_STAT_LAST_US : Fld := ⟨.OPT_SW_STAT, 22, 7⟩
def OPT_SW_STAT_EXTRA : Fld := ⟨.OPT_SW_STAT, 24, 23⟩
def OPT_SW_AT_AT : Fld := ⟨.OPT_SW_AT, 63, 0⟩
def OPT_DSTAT_STATE : Fld := ⟨.OPT_DSTAT, 2, 0⟩
def OPT_DSTAT_SERVES : Fld := ⟨.OPT_DSTAT, 3, 3⟩
def OPT_DSTAT_BASE_OK : Fld := ⟨.OPT_DSTAT, 4, 4⟩
def OPT_DSTAT_NOTIFY : Fld := ⟨.OPT_DSTAT, 5, 5⟩
def OPT_DSTAT_PLANNED : Fld := ⟨.OPT_DSTAT, 6, 6⟩
def OPT_DSTAT_FORCED : Fld := ⟨.OPT_DSTAT, 7, 7⟩
def OPT_DSTAT_WORST : Fld := ⟨.OPT_DSTAT, 10, 8⟩
def OPT_DSTAT_FADE : Fld := ⟨.OPT_DSTAT, 26, 11⟩
def OPT_BASELINE_POWER : Fld := ⟨.OPT_BASELINE, 15, 0⟩
def OPT_BASELINE_VALID : Fld := ⟨.OPT_BASELINE, 16, 16⟩
def OPT_POWER_POWER : Fld := ⟨.OPT_POWER, 15, 0⟩
def OPT_POWER_FADE : Fld := ⟨.OPT_POWER, 31, 16⟩
def OPT_POWER_VALID : Fld := ⟨.OPT_POWER, 32, 32⟩
def LANE_CTL_RING : Fld := ⟨.LANE_CTL, 11, 0⟩
def LANE_CTL_RETRY : Fld := ⟨.LANE_CTL, 12, 12⟩
def LANE_MRG_CTL_LANE : Fld := ⟨.LANE_MRG_CTL, 7, 0⟩
def LANE_MRG_CTL_AXIS : Fld := ⟨.LANE_MRG_CTL, 8, 8⟩
def LANE_MRG_CTL_START : Fld := ⟨.LANE_MRG_CTL, 9, 9⟩
def LANE_MRG_CTL_BUSY : Fld := ⟨.LANE_MRG_CTL, 10, 10⟩
def LANE_MRG_CTL_DONE : Fld := ⟨.LANE_MRG_CTL, 11, 11⟩
def LANE_MRG_CTL_DWELL : Fld := ⟨.LANE_MRG_CTL, 19, 12⟩
def LANE_MRG_CTL_STATUS : Fld := ⟨.LANE_MRG_CTL, 27, 20⟩
def LANE_MRG_RES_LOW : Fld := ⟨.LANE_MRG_RES, 5, 0⟩
def LANE_MRG_RES_HIGH : Fld := ⟨.LANE_MRG_RES, 11, 6⟩
def LANE_MRG_RES_PASS : Fld := ⟨.LANE_MRG_RES, 12, 12⟩
def LANE_RXPERM_PERM : Fld := ⟨.LANE_RXPERM, 23, 0⟩
def LANE_STAT_VERIFIED : Fld := ⟨.LANE_STAT, 7, 0⟩
def LANE_STAT_FAILED : Fld := ⟨.LANE_STAT, 15, 8⟩
def LANE_STAT_LINE : Fld := ⟨.LANE_STAT, 18, 16⟩
def LANE_STAT_ACTIVE : Fld := ⟨.LANE_STAT, 19, 19⟩
def LANE_STAT_DARK : Fld := ⟨.LANE_STAT, 20, 20⟩
def LANE_STAT_EXCLUDED : Fld := ⟨.LANE_STAT, 21, 21⟩
def LANE_STAT_OUT : Fld := ⟨.LANE_STAT, 22, 22⟩
def LANE_CE_VALUE : Fld := ⟨.LANE_CE, 47, 0⟩
def LANE_CE_SAT : Fld := ⟨.LANE_CE, 63, 63⟩
def LANE_UE_VALUE : Fld := ⟨.LANE_UE, 47, 0⟩
def LANE_UE_SAT : Fld := ⟨.LANE_UE, 63, 63⟩
def LANE_MISLOCK_VALUE : Fld := ⟨.LANE_MISLOCK, 47, 0⟩
def LANE_MISLOCK_SAT : Fld := ⟨.LANE_MISLOCK, 63, 63⟩
def LANE_RING_STATE : Fld := ⟨.LANE_RING, 2, 0⟩
def LANE_RING_FOUND : Fld := ⟨.LANE_RING, 5, 3⟩
def LANE_RING_MISLOCK : Fld := ⟨.LANE_RING, 6, 6⟩
def LANE_RING_BIAS : Fld := ⟨.LANE_RING, 22, 7⟩
def LANE_RING_STORED_ACT : Fld := ⟨.LANE_RING, 38, 23⟩
def LANE_RING_STORED_SPR : Fld := ⟨.LANE_RING, 54, 39⟩
def LANE_RING_STORED_OK : Fld := ⟨.LANE_RING, 55, 55⟩
def PLY_STAT_BINS_OPEN : Fld := ⟨.PLY_STAT, 6, 0⟩
def PLY_STAT_SOLVER : Fld := ⟨.PLY_STAT, 7, 7⟩
def PLY_STAT_SLOT_OWNER : Fld := ⟨.PLY_STAT, 10, 8⟩
def PLY_STAT_QUEUE_KIB : Fld := ⟨.PLY_STAT, 23, 11⟩
def PLY_PSLOT_OWNER : Fld := ⟨.PLY_PSLOT, 63, 0⟩
def PLY_STEP_CURRENT : Fld := ⟨.PLY_STEP, 47, 0⟩
def PLY_STEP_VER : Fld := ⟨.PLY_STEP, 48, 48⟩
def PLY_STEP_PENDING : Fld := ⟨.PLY_STEP, 49, 49⟩
def PLY_STEP_SPB_OK : Fld := ⟨.PLY_STEP, 50, 50⟩
def PLY_STEP_OVF : Fld := ⟨.PLY_STEP, 51, 51⟩
def PLY_STEP_STATE : Fld := ⟨.PLY_STEP, 53, 52⟩
def PLY_STEP_LAST_SKIP : Fld := ⟨.PLY_STEP, 54, 54⟩
def PLY_STEP_CTL_SUBMIT : Fld := ⟨.PLY_STEP_CTL, 0, 0⟩
def PLY_STEP_CTL_COMMIT : Fld := ⟨.PLY_STEP_CTL, 1, 1⟩
def PLY_STEP_CTL_ROLLBACK : Fld := ⟨.PLY_STEP_CTL, 2, 2⟩
def PLY_STEP_CTL_STATUS : Fld := ⟨.PLY_STEP_CTL, 10, 3⟩
def PLY_LS_EXP : Fld := ⟨.PLY_LS, 5, 0⟩
def PLY_LS_CLEAN : Fld := ⟨.PLY_LS, 21, 6⟩
def PLY_LS_INTERVAL : Fld := ⟨.PLY_LS, 37, 22⟩
def PLY_LS_RES_EXP : Fld := ⟨.PLY_LS, 43, 38⟩
def PLY_SEED_SEED : Fld := ⟨.PLY_SEED, 63, 0⟩
def PLY_RULE_SEL_ALLOW : Fld := ⟨.PLY_RULE_SEL, 3, 0⟩
def PLY_RULE_SEL_SK_AS_TRUST : Fld := ⟨.PLY_RULE_SEL, 4, 4⟩
def PLY_SPB_WORD : Fld := ⟨.PLY_SPB, 63, 0⟩
def PLY_QDROP_VALUE : Fld := ⟨.PLY_QDROP, 47, 0⟩
def PLY_QDROP_SAT : Fld := ⟨.PLY_QDROP, 63, 63⟩
def PLY_COMB_VALUE : Fld := ⟨.PLY_COMB, 47, 0⟩
def PLY_COMB_SAT : Fld := ⟨.PLY_COMB, 63, 63⟩
def PLY_SPLIT_VALUE : Fld := ⟨.PLY_SPLIT, 47, 0⟩
def PLY_SPLIT_SAT : Fld := ⟨.PLY_SPLIT, 63, 63⟩
def PLY_NONFIN_VALUE : Fld := ⟨.PLY_NONFIN, 47, 0⟩
def PLY_NONFIN_SAT : Fld := ⟨.PLY_NONFIN, 63, 63⟩
def PLY_SKFALL_VALUE : Fld := ⟨.PLY_SKFALL, 47, 0⟩
def PLY_SKFALL_SAT : Fld := ⟨.PLY_SKFALL, 63, 63⟩
def PLY_SKIPS_VALUE : Fld := ⟨.PLY_SKIPS, 47, 0⟩
def PLY_SKIPS_SAT : Fld := ⟨.PLY_SKIPS, 63, 63⟩
def TWIST_PHASE_BASE_ADDR : Fld := ⟨.TWIST_PHASE_BASE, 47, 0⟩
def TWIST_PHASE_BASE_EN : Fld := ⟨.TWIST_PHASE_BASE, 48, 48⟩
def TWIST_PHASE_IDX_VALUE : Fld := ⟨.TWIST_PHASE_IDX, 47, 0⟩
def TWIST_PHASE_IDX_SAT : Fld := ⟨.TWIST_PHASE_IDX, 63, 63⟩
def TWIST_PHNOW_VALUE : Fld := ⟨.TWIST_PHNOW, 47, 0⟩
def TWIST_PHNOW_SAT : Fld := ⟨.TWIST_PHNOW, 63, 63⟩
def PLY_VRF_LIST_ADDR : Fld := ⟨.PLY_VRF_LIST, 47, 0⟩
def PLY_VRF_CTL_START : Fld := ⟨.PLY_VRF_CTL, 0, 0⟩
def PLY_VRF_CTL_MODE : Fld := ⟨.PLY_VRF_CTL, 1, 1⟩
def PLY_VRF_CTL_BUSY : Fld := ⟨.PLY_VRF_CTL, 2, 2⟩
def PLY_VRF_CTL_DONE : Fld := ⟨.PLY_VRF_CTL, 3, 3⟩
def PLY_VRF_CTL_MISMATCH : Fld := ⟨.PLY_VRF_CTL, 4, 4⟩
def PLY_VRF_CTL_STATUS : Fld := ⟨.PLY_VRF_CTL, 12, 5⟩
def PLY_VRF_CTL_COUNT : Fld := ⟨.PLY_VRF_CTL, 28, 13⟩
def PLY_VRF_CTL_SYNC : Fld := ⟨.PLY_VRF_CTL, 44, 29⟩
def PLY_VRF_CTL_SIG : Fld := ⟨.PLY_VRF_CTL, 45, 45⟩
def PLY_VRF_CTL_CMP : Fld := ⟨.PLY_VRF_CTL, 46, 46⟩
def ZQL_PORT_STAT_STATE : Fld := ⟨.ZQL_PORT_STAT, 1, 0⟩
def ZQL_PORT_STAT_ADMIN : Fld := ⟨.ZQL_PORT_STAT, 2, 2⟩
def ZQL_PORT_STAT_BOUND : Fld := ⟨.ZQL_PORT_STAT, 3, 3⟩
def ZQL_PORT_STAT_PART : Fld := ⟨.ZQL_PORT_STAT, 5, 4⟩
def ZQL_PORT_STAT_ALIGNED : Fld := ⟨.ZQL_PORT_STAT, 9, 6⟩
def ZQL_NAK_VALUE : Fld := ⟨.ZQL_NAK, 47, 0⟩
def ZQL_NAK_SAT : Fld := ⟨.ZQL_NAK, 63, 63⟩
def ZQL_RETRAIN_VALUE : Fld := ⟨.ZQL_RETRAIN, 47, 0⟩
def ZQL_RETRAIN_SAT : Fld := ⟨.ZQL_RETRAIN, 63, 63⟩
def ZQL_EVDROP_VALUE : Fld := ⟨.ZQL_EVDROP, 47, 0⟩
def ZQL_EVDROP_SAT : Fld := ⟨.ZQL_EVDROP, 63, 63⟩
def ZQL_SQ_BASE : Fld := ⟨.ZQL_SQ, 47, 0⟩
def ZQL_SQ_LOG2N : Fld := ⟨.ZQL_SQ, 51, 48⟩
def ZQL_SQ_EN : Fld := ⟨.ZQL_SQ, 52, 52⟩
def ZQL_CQ_BASE : Fld := ⟨.ZQL_CQ, 47, 0⟩
def ZQL_CQ_LOG2N : Fld := ⟨.ZQL_CQ, 51, 48⟩
def ZQL_CQ_EN : Fld := ⟨.ZQL_CQ, 52, 52⟩
def ZQL_CQ_SIG : Fld := ⟨.ZQL_CQ, 53, 53⟩
def ZQL_CQ_PHASE : Fld := ⟨.ZQL_CQ, 54, 54⟩
def ZQL_QPTR_SQ_HEAD : Fld := ⟨.ZQL_QPTR, 11, 0⟩
def ZQL_QPTR_SQ_TAIL : Fld := ⟨.ZQL_QPTR, 23, 12⟩
def ZQL_QPTR_CQ_TAIL : Fld := ⟨.ZQL_QPTR, 35, 24⟩
def ZQL_QPTR_CQ_HEAD : Fld := ⟨.ZQL_QPTR, 47, 36⟩
def ZQL_QPTR_CQ_SYNC : Fld := ⟨.ZQL_QPTR, 63, 48⟩
def ZQL_PCTL_STATE : Fld := ⟨.ZQL_PCTL, 2, 0⟩
def ZQL_PCTL_PORT : Fld := ⟨.ZQL_PCTL, 4, 3⟩
def ZQL_PCTL_REMAIN : Fld := ⟨.ZQL_PCTL, 36, 5⟩
def ZQL_PGRP_GROUPS : Fld := ⟨.ZQL_PGRP, 15, 0⟩
def ZQL_PFLOW_FLOWS : Fld := ⟨.ZQL_PFLOW, 63, 0⟩
def ZQL_PSYNC_PF : Fld := ⟨.ZQL_PSYNC, 31, 0⟩
def ZQL_PSYNC_BAR : Fld := ⟨.ZQL_PSYNC, 47, 32⟩
def MGMT_BOOT_ROM_DONE : Fld := ⟨.MGMT_BOOT, 0, 0⟩
def MGMT_BOOT_HALTED : Fld := ⟨.MGMT_BOOT, 1, 1⟩
def MGMT_BOOT_HALT_REASON : Fld := ⟨.MGMT_BOOT, 5, 2⟩
def MGMT_BOOT_FW : Fld := ⟨.MGMT_BOOT, 8, 6⟩
def MGMT_BOOT_FW_REASON : Fld := ⟨.MGMT_BOOT, 11, 9⟩
def MGMT_BOOT_FW_SVN : Fld := ⟨.MGMT_BOOT, 18, 12⟩
def RST_STAT_CAUSE : Fld := ⟨.RST_STAT, 1, 0⟩
def RST_STAT_DOMAINS : Fld := ⟨.RST_STAT, 9, 2⟩
def RST_STAT_SEQ_DONE : Fld := ⟨.RST_STAT, 10, 10⟩
def RST_STRAP_FAB_ID : Fld := ⟨.RST_STRAP, 15, 0⟩
def RST_STRAP_ADMIN_PORT : Fld := ⟨.RST_STRAP, 17, 16⟩
def RST_STRAP_TWIST_ROOT : Fld := ⟨.RST_STRAP, 18, 18⟩
def RST_STRAP_STRAP_TEST : Fld := ⟨.RST_STRAP, 19, 19⟩
def RST_CLK_STAT_REF_OFFSET : Fld := ⟨.RST_CLK_STAT, 15, 0⟩
def RST_CLK_STAT_CD0_CLK : Fld := ⟨.RST_CLK_STAT, 16, 16⟩
def RST_CLK_STAT_CD1_CLK : Fld := ⟨.RST_CLK_STAT, 17, 17⟩
def RST_RAIL_STAT_RAILS : Fld := ⟨.RST_RAIL_STAT, 7, 0⟩
def RST_RAIL_STAT_HBM : Fld := ⟨.RST_RAIL_STAT, 15, 8⟩
def RST_VREQ_REQ : Fld := ⟨.RST_VREQ, 7, 0⟩
def RST_VREQ_ACK : Fld := ⟨.RST_VREQ, 15, 8⟩
def RST_VREQ_CURRENT : Fld := ⟨.RST_VREQ, 31, 16⟩
def RST_VREQ_FAIL : Fld := ⟨.RST_VREQ, 32, 32⟩
def RST_VREQ_ALERT : Fld := ⟨.RST_VREQ, 33, 33⟩
def RST_RRB_ERR_VALUE : Fld := ⟨.RST_RRB_ERR, 47, 0⟩
def RST_RRB_ERR_SAT : Fld := ⟨.RST_RRB_ERR, 63, 63⟩
def RST_DIE_RESETS_VALUE : Fld := ⟨.RST_DIE_RESETS, 47, 0⟩
def RST_DIE_RESETS_SAT : Fld := ⟨.RST_DIE_RESETS, 63, 63⟩
def EVT_LOG_HEAD_VALUE : Fld := ⟨.EVT_LOG_HEAD, 47, 0⟩
def EVT_LOG_HEAD_SAT : Fld := ⟨.EVT_LOG_HEAD, 63, 63⟩
def EVT_DROP_VALUE : Fld := ⟨.EVT_DROP, 47, 0⟩
def EVT_DROP_SAT : Fld := ⟨.EVT_DROP, 63, 63⟩
def EVT_FRZ_CFG_EN_MATCH : Fld := ⟨.EVT_FRZ_CFG, 0, 0⟩
def EVT_FRZ_CFG_EN_TWIST : Fld := ⟨.EVT_FRZ_CFG, 1, 1⟩
def EVT_FRZ_CFG_EN_CMD : Fld := ⟨.EVT_FRZ_CFG, 2, 2⟩
def EVT_FRZ_CFG_EN_PIN : Fld := ⟨.EVT_FRZ_CFG, 3, 3⟩
def EVT_FRZ_CFG_DRIVE : Fld := ⟨.EVT_FRZ_CFG, 4, 4⟩
def EVT_FRZ_CTL_ARM : Fld := ⟨.EVT_FRZ_CTL, 0, 0⟩
def EVT_FRZ_CTL_NOW : Fld := ⟨.EVT_FRZ_CTL, 1, 1⟩
def EVT_FRZ_CTL_STATE : Fld := ⟨.EVT_FRZ_CTL, 3, 2⟩
def EVT_FRZ_CTL_SOURCE : Fld := ⟨.EVT_FRZ_CTL, 7, 4⟩
def EVT_FRZ_CTL_STALE_DIE : Fld := ⟨.EVT_FRZ_CTL, 9, 8⟩
def EVT_FRZ_MATCH_CLASS : Fld := ⟨.EVT_FRZ_MATCH, 7, 0⟩
def EVT_FRZ_MATCH_CODE : Fld := ⟨.EVT_FRZ_MATCH, 15, 8⟩
def EVT_FRZ_MATCH_PART : Fld := ⟨.EVT_FRZ_MATCH, 18, 16⟩
def EVT_FRZ_MATCH_M_CLASS : Fld := ⟨.EVT_FRZ_MATCH, 19, 19⟩
def EVT_FRZ_MATCH_M_CODE : Fld := ⟨.EVT_FRZ_MATCH, 20, 20⟩
def EVT_FRZ_MATCH_M_PART : Fld := ⟨.EVT_FRZ_MATCH, 21, 21⟩
def EVT_FRZ_TWIST_TWIST : Fld := ⟨.EVT_FRZ_TWIST, 63, 0⟩
def EVT_FRZ_TIME_TIME : Fld := ⟨.EVT_FRZ_TIME, 63, 0⟩
def EVT_FRZ_MISSED_VALUE : Fld := ⟨.EVT_FRZ_MISSED, 47, 0⟩
def EVT_FRZ_MISSED_SAT : Fld := ⟨.EVT_FRZ_MISSED, 63, 63⟩
def EVT_LOG_WORD : Fld := ⟨.EVT_LOG, 63, 0⟩
def DBG_MON_CTL_MODE : Fld := ⟨.DBG_MON_CTL, 1, 0⟩
def DBG_MON_CTL_BUSY : Fld := ⟨.DBG_MON_CTL, 2, 2⟩
def DBG_MON_CTL_BAUD : Fld := ⟨.DBG_MON_CTL, 5, 3⟩
def DBG_MON_ERR_VALUE : Fld := ⟨.DBG_MON_ERR, 47, 0⟩
def DBG_MON_ERR_SAT : Fld := ⟨.DBG_MON_ERR, 63, 63⟩
def DBG_IDCODE_IDCODE : Fld := ⟨.DBG_IDCODE, 31, 0⟩
def DBG_UNLOCK_HELD : Fld := ⟨.DBG_UNLOCK, 0, 0⟩

end F

end Sys2Proof.Machine
end

