-- ==== Sys2Proof/Config.lean ====
section
/-!
DEFINITION. What the spec leaves open, as constants with no body: the free values. A statement about a free value
holds whatever it is. The notes/assumptions rows name each one.
-/

namespace Sys2Proof.Config

/-- A byte of HBM that nothing has written since its contents last became unspecified (R157, R173, R175, R180), by how often that
has happened to its 16 GiB unit or its 4 KiB page, and by its address. Log entry notes/assumptions/6.md (DESIGN CHOICE). -/
opaque hbmByte : Nat → Nat → Byte

/-- A fresh value that the spec does not state: drawn from a true random source, or a result with no rule. The
argument is the state's count of values taken. Log entry notes/assumptions/7.md (DESIGN CHOICE). -/
opaque freeValue : Nat → Nat

/-- The private half of the key-agreement key of a draw, before it is brought into the range of the curve's order (R361). Log entry notes/assumptions/11.md (DESIGN CHOICE). -/
opaque agreeKey : Nat → Nat

/-- The private half of the identity key in the fuses, before it is brought into the range of the curve's order (R370). Log entry notes/assumptions/11.md (DESIGN CHOICE). -/
opaque identKey : Nat

/-- The unit serial number in the fuses (R370, R416). Log entry notes/assumptions/11.md (DESIGN CHOICE). -/
opaque serial : Word

/-- Byte `i` of the firmware key hash in the fuses (R368). Log entry notes/assumptions/11.md (DESIGN CHOICE). -/
opaque fwKeyHash : Nat → Byte

/-- Where a control port's mover writes its completion records, by port: no rule gives a port the bobbin of R109 (R355). Log entry notes/assumptions/53.md (DEDUCED). -/
opaque portRecords : Nat → Nat

/-- The result of a NaN in an integer or BIT destination of a stream operation: by the instruction, its operands and the element (R94, R95). Log entry notes/assumptions/7.md (DESIGN CHOICE). -/
opaque nanInt : Word → List Nat → Nat → Nat

/-- The count that a stream operation reports when it has failed: by the instruction, its operands and how far it has come (R94). Log entry notes/assumptions/7.md (DESIGN CHOICE). -/
opaque failedCount : Word → List Nat → Nat → Nat

/-- RST_CLK_STAT.REF_OFFSET as measured at a time, in ns (R396). Log entry notes/assumptions/81.md (DESIGN CHOICE). -/
opaque refOffset : Nat → BitVec 16

/-- A core rail is in tolerance at a time, in ns, while its die's detector holds the die: by the die and the time (R374, R396). Log entry notes/assumptions/81.md (DESIGN CHOICE). -/
opaque coreRailOk : Nat → Nat → Bool

/-- A stack's HBM4E rails are in tolerance at a time, in ns, after they have once been out of it: by the stack and the time (R395, R396). Log entry notes/assumptions/81.md (DESIGN CHOICE). -/
opaque hbmRailOk : Nat → Nat → Bool

end Sys2Proof.Config
end

