-- ==== Sys2Proof/Machine/Table.lean ====
section
/-!
DEFINITION. Sparse tables: reading, writing and folding. A key that is not listed holds the table's default, which
the reader names.
-/

namespace Sys2Proof

/-- Put `v` at key `k` of a list of pairs with rising keys. -/
def insertKey {α : Type} (k : Nat) (v : α) : List (Nat × α) → List (Nat × α)
  | [] => [(k, v)]
  | (k', v') :: t =>
    if k < k' then (k, v) :: (k', v') :: t
    else if k = k' then (k, v) :: t
    else (k', v') :: insertKey k v t

/-- Take key `k` out of a list of pairs. -/
def eraseKey {α : Type} (k : Nat) : List (Nat × α) → List (Nat × α)
  | [] => []
  | (k', v') :: t => if k = k' then t else (k', v') :: eraseKey k t

/-- The value at key `k`, if it is listed. -/
def lookupKey {α : Type} (k : Nat) : List (Nat × α) → Option α
  | [] => none
  | (k', v') :: t => if k = k' then some v' else lookupKey k t

/-- The keys of a list of pairs rise. -/
def rising {α : Type} : List (Nat × α) → Bool
  | [] => true
  | [_] => true
  | (k, _) :: (k', v') :: t => decide (k < k') && rising ((k', v') :: t)

namespace Tab

variable {α : Type}

/-- The empty table. -/
def empty : Tab α := ⟨[]⟩

/-- The listed value at `k`. -/
def find (t : Tab α) (k : Nat) : Option α := lookupKey k t.entries

/-- The value at `k`, `d` when it is not listed. -/
def get (t : Tab α) (d : α) (k : Nat) : α := (t.find k).getD d

/-- Write `v` at `k`. -/
def set (t : Tab α) (k : Nat) (v : α) : Tab α := ⟨insertKey k v t.entries⟩

/-- Take `k` out. -/
def erase (t : Tab α) (k : Nat) : Tab α := ⟨eraseKey k t.entries⟩

/-- Change the value at `k`. -/
def modify (t : Tab α) (d : α) (k : Nat) (f : α → α) : Tab α := t.set k (f (t.get d k))

/-- The listed keys. -/
def keys (t : Tab α) : List Nat := t.entries.map (·.1)

/-- Keep the listed entries that satisfy `p`. -/
def filter (t : Tab α) (p : Nat → α → Bool) : Tab α := ⟨t.entries.filter fun e => p e.1 e.2⟩

/-- Change every listed value. -/
def mapValues (t : Tab α) (f : Nat → α → α) : Tab α := ⟨t.entries.map fun e => (e.1, f e.1 e.2)⟩

end Tab

end Sys2Proof
end

