-- ==== Sys2Proof/Machine/State.lean ====
section
/-!
DEFINITION. The state of the block: every register, store, queue, engine and pin that the spec gives the part, as plain
data, with the waiting commands first in first out; the faults and refusals; the state right after reset.
-/

namespace Sys2Proof.Machine

/-- Why the block would stop. No command of the table stops it with a fault: a failing access completes with a status
(R10, R11) and the part goes on. Raised by nobody; kept closed so that a statement can say so. Safe. -/
inductive Fault where
  /-- Raised by nobody. Safe. -/
  | unused
  deriving DecidableEq, Repr

/-- Why a command is not run. -/
inductive Refusal where
  /-- Raised by `exec` for a row that has no meaning yet. Safe: nothing can be proved of it. -/
  | notModelled (mnemonic : String)
  deriving DecidableEq, Repr

/-- The completion status codes of R10. -/
inductive Status where
  | ok | eccUncorrected | dieLost | isolated | sliceDenied | partitionDenied | versionSkew | epochStale
  | deadlineMissed | pathLost | writeRefused | keyRevoked | saturated | formatFault | stepStale | notLocked
  deriving DecidableEq, Repr

/-- The state of one core's issue (R448: `CORE_STAT_n.STATE`). -/
inductive RunState where
  | idle | loading | run | wait | stopping | halt
  deriving DecidableEq, Repr

/-- The type tag of an accumulator bank (before R55). -/
inductive Tag where
  | empty | fp32 | fp16 | int32 | int16 | failed
  deriving DecidableEq, Repr

/-- An accumulator bank: its tag, and the 32-bit register of output element `(i, c)` at key `128 i + c` (R49, R55). -/
structure Bank where
  tag : Tag := .empty
  cells : Tab Nat := ⟨[]⟩
  deriving DecidableEq, Repr

/-- An instruction issued to the matrix unit or the stream engine and not complete (R118): its issue number, whether it is a drain, whether
it completes by itself once it is the oldest, the status with which it completes, the scalar register it writes with the value, and
the sticky flags it sets. Log entry notes/assumptions/9.md (DESIGN CHOICE). -/
structure Staged where
  seq : Nat
  drain : Bool := false
  auto : Bool := false
  status : Status := .ok
  result : Option (Nat × Word) := none
  flags : Nat := 0
  deriving DecidableEq, Repr

/-- A scalar load or store to another store or to HBM that is on its way (R122, R130). Log entry notes/assumptions/9.md (DESIGN CHOICE). -/
structure Remote where
  seq : Nat
  load : Bool
  addr : Nat
  size : Nat
  signed : Bool
  reg : Nat
  value : Nat
  pc : Nat
  deriving DecidableEq, Repr

/-- A descriptor or an instruction load held by a DMA mover (R109, R114, R138). `load` holds the start index, the count and
the source of an XILD. After the start `words` holds the descriptor, and the outcome stands in `status`, `bytes` and `faultAddr`; `sent` says
that its signal is on the way, `bonds` names the compute dies whose bonds it has crossed (R40, R45). Log entry notes/assumptions/9.md (DESIGN CHOICE). -/
structure Dma where
  seq : Nat
  addr : Nat
  load : Option (Nat × Nat × Nat) := none
  running : Bool := false
  readable : Bool := true
  words : List Nat := []
  status : Status := .ok
  bytes : Nat := 0
  faultAddr : Nat := 0
  sent : Bool := false
  bonds : List Nat := []
  deriving DecidableEq, Repr

/-- The kinds of class Y instruction (R127). -/
inductive YKind where
  | sig | wait | bar | read
  deriving DecidableEq, Repr

/-- A class Y instruction in flight in a core's sync port (R118, R140): the object, the value, the destination register,
the unit mask, the comparison and the timeout, and the status it is refused with, if it is. -/
structure YOp where
  seq : Nat
  kind : YKind
  id : Nat
  x : Nat
  rd : Nat
  mask : Nat := 0
  eq : Bool := false
  timeout : Nat := 0
  refused : Option Status := none
  sent : Bool := false
  deriving DecidableEq, Repr

/-- A skein handed over by TSKEIN and not yet accepted (R147). -/
structure Hand where
  seq : Nat
  addr : Nat
  rd : Nat
  /-- The units whose earlier instructions it waits for (R121). -/
  mask : Nat := 0
  deriving DecidableEq, Repr

/-- What a core's issue waits for (R142, R143, R145). Log entry notes/assumptions/50.md (DEDUCED). -/
inductive Stall where
  | none
  | sync (id : Nat)
  | barrier (id : Nat)
  | twist (n : Int)
  deriving DecidableEq, Repr

/-- One core: the architectural state of R116, its unit queues (R118) and the registers it shows (R448). Log entry notes/assumptions/4.md (DESIGN CHOICE). -/
structure Core where
  /-- s0 to s31 (R116). -/
  sregs : Tab Word := ⟨[]⟩
  /-- The registers marked pending (R117). -/
  pending : List Nat := []
  /-- The program counter (R116). -/
  pc : Nat := 0
  /-- The instruction store (R116). -/
  istore : Tab Word := ⟨[]⟩
  /-- Indices of instruction words with an uncorrectable error (R116, R138). -/
  ibad : List Nat := []
  /-- The words of d0 to d15: word `w` of roving `d` at key `4 d + w` (R87). -/
  rovings : Tab Word := ⟨[]⟩
  /-- Accumulator bank a0 (R116). -/
  a0 : Bank := {}
  /-- Accumulator bank a1 (R116). -/
  a1 : Bank := {}
  /-- The matrix unit's rounding generator (R67). -/
  mgen : Word := 1
  /-- The stream engine's rounding generator (R99). -/
  vgen : Word := 1
  /-- First-status of units M, V, X and T at keys 0 to 3 (R124). -/
  first : Tab Status := ⟨[]⟩
  /-- The MORE bits (R124). -/
  more : List Nat := []
  /-- The due twist (R146). -/
  due : Option Int := none
  /-- The phase that the core last reported (R148). -/
  phase : Option Nat := none
  /-- `CORE_STAT_n.STATE`. -/
  run : RunState := .idle
  /-- The state to which a LOAD returns (R151). -/
  beforeLoad : RunState := .idle
  /-- The source and the count of the LOAD under way (R151). -/
  loadFrom : Nat × Nat := (0, 0)
  /-- `CORE_STAT_n.HALT_STATUS`. -/
  haltStatus : Status := .ok
  /-- `CORE_STAT_n.HALT_CAUSE`: 0 none, 1 SHALT, 2 STOP, 3 FAULT. -/
  haltCause : Nat := 0
  /-- `CORE_STAT_n.LOAD_STATUS`. -/
  loadStatus : Status := .ok
  /-- The next issue number. -/
  seq : Nat := 0
  /-- The matrix unit's queue (R118). -/
  mq : List Staged := []
  /-- The stream engine's queue (R118). -/
  vq : List Staged := []
  /-- The DMA mover's descriptors (R114). -/
  xq : List Dma := []
  /-- The skein queue (R118). -/
  tq : List Hand := []
  /-- Scalar accesses on their way (R122). -/
  sq : List Remote := []
  /-- The sync port (R118). -/
  yq : List YOp := []
  /-- What issue waits for. -/
  stall : Stall := .none
  deriving DecidableEq, Repr

/-- A flit at its sender (R28, R31): its virtual network, the TAG of its message, whether it is the message's first, and its sixteen words. -/
structure Flit where
  vn : Nat
  tag : Nat
  head : Bool
  words : List Nat
  deriving DecidableEq, Repr

/-- One direction of a bond port, at its sender and at its receiver (R28 to R30): the flits sent and not acknowledged with
their numbers, those waiting for a credit, the number of the next flit, the credits of the two virtual networks, the receiver's next
number and whether it discards until a replay, the last flit NAKed and how often in a row, the flits in the receiver's buffers of each virtual
network, and those of a message that have left the buffers. -/
structure BondDir where
  unacked : List (Nat × Flit) := []
  waiting : List Flit := []
  next : Nat := 0
  credits : Tab Nat := ⟨[]⟩
  rxNext : Nat := 0
  discarding : Bool := false
  lastNak : Option Nat := none
  nakRun : Nat := 0
  parts : Tab (List (List Nat)) := ⟨[]⟩
  taken : Tab (List (List Nat)) := ⟨[]⟩
  corrected : Nat := 0
  deriving DecidableEq, Repr

/-- What a port has settled (R36): LBI revision, network revision, features, data lanes per direction. -/
structure Agreement where
  lbi : Nat
  net : Nat
  feat : Nat
  width : Nat
  deriving DecidableEq, Repr

/-- Hidden state of a bond port beside its registers (R38 to R42). -/
structure BondPort where
  /-- The settled agreement (R36). -/
  agreed : Option Agreement := none
  /-- Capability blocks refused for their CRC in this attempt (R36). -/
  capRetries : Nat := 0
  /-- Consecutive failed attempts (R41). -/
  failures : Nat := 0
  /-- Down with CAP_MISMATCH until the die resets (R36). -/
  locked : Bool := false
  /-- The SEQ of the next attempt minus one (R39). -/
  seq : Nat := 0
  /-- Failed lanes of the up direction as group and lane (R38). -/
  failedUp : List (Nat × Nat) := []
  /-- Failed lanes of the down direction (R38). -/
  failedDown : List (Nat × Nat) := []
  /-- The repair map of the up direction, once received (R38). -/
  mapUp : Option (List Nat) := none
  /-- The repair map of the down direction (R38). -/
  mapDown : Option (List Nat) := none
  /-- Beacons agreed in step 5 (R38). -/
  beacons : Nat := 0
  /-- The up direction. -/
  up : BondDir := {}
  /-- The down direction. -/
  down : BondDir := {}
  deriving DecidableEq, Repr

/-- A request whose entries are not all done (R158, R163): its number, the endpoint that sent it and its tag, its local address and length, the entries that
have still to complete, the status met first, the bytes read so far by HBM address, and whether its way back has an error (R167). -/
structure HbmOpen where
  id : Nat
  src : Nat
  tag : Nat
  addr : Nat
  len : Nat
  left : Nat
  status : Status := .ok
  parts : List (Nat × List Byte) := []
  respBad : Bool := false
  deriving DecidableEq, Repr

/-- An entry of a request on its way to its channel (R158, R159): the request, its source, partition, class and ingress port, its HBM address and length, the
bytes that it writes, and whether it takes the staple path. -/
structure HbmPart where
  id : Nat
  src : Nat
  who : Option Nat
  cls : Nat
  port : Nat
  addr : Nat
  len : Nat
  data : Option (List Byte)
  staple : Bool
  deriving DecidableEq, Repr

/-- An entry in a channel queue (R158 to R160): its request, source, class, address, length, whether it is a write that has been acknowledged, the bytes
read or the write's status, its arrival in controller cycles and the bursts it still needs. -/
structure HbmReq where
  id : Nat
  src : Nat
  cls : Nat
  addr : Nat
  len : Nat
  write : Bool
  port : Nat
  status : Status
  data : List Byte
  arrival : Nat
  bursts : Nat
  deriving DecidableEq, Repr

/-- One HBM channel controller: its bulk and staple queues (R159), its cycle count, which of each pseudo-channel's last
four cycles started a burst (R169), the patrol scrub's next offset, and when a burst of it that waits arrived (R168). -/
structure Chan where
  bulk : List HbmReq := []
  staple : List HbmReq := []
  cycle : Nat := 0
  recent : Tab (List Bool) := ⟨[]⟩
  patrol : Nat := 0
  scrub : Option Nat := none
  deriving DecidableEq, Repr

/-- The throttle of one stack (R170): readings since the last change of level, the cool readings in a row after it, and whether
it has been silent for 1 ms and since when. `down` says that the stack is out of service (R172). Log entry notes/assumptions/4.md (DESIGN CHOICE). -/
structure Therm where
  since : Nat := 10
  cool : Nat := 0
  silent : Bool := false
  silentAt : Nat := 0
  down : Bool := false
  deriving DecidableEq, Repr

/-- The HBM subsystem's hidden state. -/
structure Hbm where
  /-- The channel controllers (R159). -/
  chans : Tab Chan := ⟨[]⟩
  /-- The committed biases of the channels (R162). -/
  bias : Tab Nat := ⟨[]⟩
  /-- The throttles (R170). -/
  therm : Tab Therm := ⟨[]⟩
  /-- Requests whose entries are not all done (R163), and the entries that wait in the network (R159), oldest first. -/
  requests : List HbmOpen := []
  waiting : List HbmPart := []
  /-- The number of the next request. -/
  nextId : Nat := 0
  /-- CHANNEL and AXIS of the margin run that BUSY shows (R175, R176). -/
  run : Nat × Nat := (0, 0)
  /-- The 512-bit keys of slots 0 to 4 that hold one (R177). -/
  keys : Tab Nat := ⟨[]⟩
  /-- Key slots destroyed and not rekeyed (R181): partitions whose requests and stores answer KEY_REVOKED. -/
  revoked : List Nat := []
  /-- Key slots whose destruction is under way (R181). -/
  dropping : List Nat := []
  /-- The keys that destroyed slots held: no unit reads with them, but ciphertext under them stays (R181). -/
  gone : Tab Nat := ⟨[]⟩
  /-- Ciphertext that stands though its key has changed since (R180, R181): by the unit's number, the key and the plaintext that it was written from. -/
  kept : Tab (Nat × List Byte) := ⟨[]⟩
  /-- Initialisation has written zero ciphertext to every unit (R173), and the channels whose first MiB a margin run has overwritten since (R175), with the
  hash. -/
  zeroed : Bool := false
  vague : List (Bool × Nat) := []
  deriving DecidableEq, Repr

/-- Who sent a signal or waits, and where the status goes (R200): nobody, a core's sync port, a DMA descriptor, the receive
context whose packet carried the signal, a control port's frame, the plan switch of a partition, a queue entry of a port. -/
inductive Reply where
  | none
  | core (c rd seq : Nat)
  | dma (c seq : Nat)
  | flow (n seq : Nat)
  | port (p tag : Nat)
  | plan (p : Nat)
  | entry (p id : Nat)
  deriving DecidableEq, Repr

/-- An operation on its way to a bank of the sync object store (R199). `part` is the partition whose right it uses, 4 for the
management processor and the owner port (R448). -/
inductive SyncOp where
  | signal (id x part src ch fab : Nat) (reply : Reply)
  | wait (id x : Nat) (eq : Bool) (part : Nat) (timeout : Option Nat) (reply : Reply)
  | arrive (id part : Nat) (reply : Reply)
  deriving DecidableEq, Repr

/-- A waiter blocked on an object, oldest first (R197, R201). `left` counts the twist boundaries until it gives up (R142). A
barrier waiter waits for the release of the generation. -/
structure Waiter where
  id : Nat
  barrier : Bool
  eq : Bool
  x : Nat
  left : Option Nat
  reply : Reply
  deriving DecidableEq, Repr

/-- A barrier's hidden state on this part (R208 to R212): the home's deadline, the twist of the first arrival, the local
deadline, the twist in which the local count was complete, whether a grace notice is held, and at the home the last 256 released
generations with their statuses and switch twists. Log entry notes/assumptions/61.md (DEDUCED). -/
structure Barrier where
  deadline : Option Nat := none
  first : Option Nat := none
  localDue : Option Nat := none
  localAt : Option Nat := none
  grace : Bool := false
  history : List (Nat × Status × Nat) := []
  deriving DecidableEq, Repr

/-- The sync object store's hidden state. -/
structure Sync where
  /-- Operations on their way to the banks, oldest first (R199). -/
  arrivals : List SyncOp := []
  /-- Blocked waiters (R197). -/
  waiters : List Waiter := []
  /-- The barriers (R208). -/
  bars : Tab Barrier := ⟨[]⟩
  /-- The requester and the next id of a zeroing run (R202). -/
  zeroRun : Option (Nat × Nat) := none
  deriving DecidableEq, Repr

/-! ### Fabric -/

/-- An allowance of a plan (R247): engine, fibre, slot, lane, context and units. -/
structure Allow where
  e : Nat
  f : Nat
  slot : Nat
  lane : Nat
  flow : Nat
  units : Nat
  deriving DecidableEq, Repr

/-- A plan as its image gives it (R247, R315): header fields, contexts with their eight words, route entries, permutations by
fibre-slot key `(18 e + f) * 64 + slot`, with the section and entry of each (R268), allowances, Ply entries of eight words. -/
structure Plan where
  slice : Nat
  guard : Nat
  ackRes : Nat
  rows : Nat
  cols : Nat
  myrow : Nat
  mycol : Nat
  rowNext : Nat
  colNext : Nat
  ctxs : List (Nat × List Nat) := []
  routes : List (Nat × Nat) := []
  perms : Tab Nat := ⟨[]⟩
  places : Tab (Nat × Nat) := ⟨[]⟩
  allows : List Allow := []
  ply : List (List Nat) := []
  deriving DecidableEq, Repr

/-- The two banks of a partition (R9, R248 to R251): the active and the staged plan, the new send contexts whose primes are
not answered, the arrival at the switch barrier, the twist of a released switch, a STOP that waits for the boundary, the plan that entry to UNALIGNED has halted,
whose permutations still carry unscheduled traffic (R190), and the plan under which the slots before the last boundary ran (R221). -/
structure PlanBank where
  active : Option Plan := none
  staged : Option Plan := none
  unprimed : List Nat := []
  arrived : Bool := false
  switchAt : Option Nat := none
  stopping : Bool := false
  halted : Option Plan := none
  before : Option Plan := none
  deriving DecidableEq, Repr

/-- An accepted skein (R237, R238): its fields, how many of its bytes have been cut into packets, whether its tag packet
has, its last SEQ so far, the bytes sent at least once and the bytes acknowledged, the packets that a Ply engine has made for it, the status of its signal where that is not OK
(R200), and the status it failed with. -/
structure Skein where
  id : Nat
  part : Nat
  flow : Nat
  addr : Nat
  kind : Nat
  sig : Bool
  tag : Bool
  localSig : Bool
  sync : Nat
  compSync : Nat
  src : Nat
  bytes : Nat
  off : Nat
  due : Nat
  epoch : Nat
  pe : Nat
  tags : List Nat
  origin : SkeinFrom
  cut : Nat := 0
  tagCut : Bool := false
  lastSeq : Option Nat := none
  sent : Nat := 0
  acked : Nat := 0
  ready : List Packet := []
  note : Option Status := none
  failed : Option Status := none
  deriving DecidableEq, Repr

/-- What leaves the part, by kind. `dst` and `body` are read by the rule that sends it. -/
inductive MsgKind where
  | bondFlit | bondNak | bondAck | bondCredit | bondBeacon | bondCap | bondMap | bondTrain
  | netReply | hbmReply | beacon | calRequest | calAnswer | packet | ack | prime | frame | railBus | monitor | tdo | pin
  deriving DecidableEq, Repr

/-- A packet sent and not acknowledged (R233, R243, R244): its flow, who must acknowledge it, the packet, the plan twist in
which it was first sent, the path it last took (a relay's fabric id, or direct), its NAK retransmissions, whether it is in its
deadline retransmission, its skein, and whether it is the copy of a grid broadcast for the column ring (R246). -/
structure Flight where
  flow : Nat
  peer : Nat
  packet : Packet
  twist : Int
  path : Option Nat
  naks : Nat := 0
  late : Bool := false
  skein : Option Nat := none
  copy : Bool := false
  deriving DecidableEq, Repr

/-- A receive context's hidden state (R200, R234 to R236): SEQs landed beyond CUM, signals held for order, SEQs whose signal is on its way to its bank, with its status once it has come back, packets landed since the
last acknowledgement, whether a landed packet is unacknowledged and since when, since when a gap stands, the SEQ of the tag packet that failed its comparison with that of its
skein's last packet once it has come, and the part that the last ring packet came from. Times are timebase nanoseconds. -/
structure Rx where
  landed : List Nat := []
  held : List (Nat × Nat) := []
  posted : List (Nat × Option Status) := []
  since : Nat := 0
  owed : Bool := false
  owedAt : Nat := 0
  gapAt : Option Nat := none
  skew : Option (Nat × Option Nat) := none
  hop : Nat := 0
  deriving DecidableEq, Repr

/-- A remainder packet that waits at a lane (R239, R242): its partition (4 for transit), its next destination, its channel,
whether only direct lanes serve it, a path it must not take, the packet (none: the next one of its flow), its lane, and the block
time at which it was queued. -/
structure RemReq where
  id : Nat
  who : Nat
  flow : Option Nat
  dst : Nat
  ch : Nat
  direct : Bool
  avoid : Option (Option Nat) := none
  packet : Option Packet := none
  lane : Option Nat := none
  stamp : Nat
  deriving DecidableEq, Repr

/-- A packet that a relay forwards under a forward context (R229, R246). -/
structure FwdReq where
  id : Nat
  flow : Nat
  packet : Packet
  stamp : Nat
  deriving DecidableEq, Repr

/-- An acknowledgement or a prime that waits for a lane (R239): the partition whose fibre-slots it uses (none: those of no partition), the part that it is for, its 256 bits, and the
block time at which it was queued. -/
structure CtrlReq where
  id : Nat
  kind : MsgKind
  who : Option Nat
  dst : Nat
  unit : Nat
  stamp : Nat
  deriving DecidableEq, Repr

/-- A slice key (R226, R363): the tag it was installed with, its 32 bytes, whether it lives, whether it has been dropped. -/
structure SliceKey where
  tag : Nat := 0
  key : List Byte := []
  live : Bool := false
  dropped : Bool := false
  deriving DecidableEq, Repr

/-- A packet that a relay holds for combining, with its engine and the timebase nanosecond at which it came (R293). -/
structure Held where
  engine : Nat
  part : Nat
  packet : Packet
  since : Nat
  deriving DecidableEq, Repr

/-- The fabric's hidden state. -/
structure Fab where
  /-- The plan banks of the partitions (R248 to R251). -/
  plans : Tab PlanBank := ⟨[]⟩
  /-- Open skeins in order of acceptance (R238). -/
  skeins : List Skein := []
  /-- Packets not acknowledged (R233). -/
  flights : List Flight := []
  /-- Receive contexts (R234). -/
  rx : Tab Rx := ⟨[]⟩
  /-- Remainder packets that wait (R242). -/
  rem : List RemReq := []
  /-- Packets that wait under forward contexts (R229). -/
  fwd : List FwdReq := []
  /-- Acknowledgements and primes that wait for a lane, and the blocks that such units have taken of ACK_RES in the slot, by lane (R239). -/
  ctrl : List CtrlReq := []
  ackSpent : Tab Nat := ⟨[]⟩
  /-- The last 58 bits that each lane's scrambler has sent (R222). -/
  scram : Tab Nat := ⟨[]⟩
  /-- Packets held for combining (R293). -/
  holds : List Held := []
  /-- Packets that wait for a Ply engine, with the engine and the receive context (R285). -/
  plyIn : List (Nat × Nat × Packet) := []
  /-- PCTR of each partition (R226). -/
  pctr : Tab Nat := ⟨[]⟩
  /-- Slice keys of the partitions; the pod management key at 4 (R363). -/
  keys : Tab SliceKey := ⟨[]⟩
  /-- Block times of 1.28 ns counted at the lanes (R240), and their number at the start of the slot. -/
  block : Nat := 0
  slotBase : Nat := 0
  /-- The block time at which each lane is free again, by `(18 e + f) * 8 + i`. -/
  laneFree : Tab Nat := ⟨[]⟩
  /-- Units spent in the slot of an allowance, by 4 × its place in its plan + the partition (R239). -/
  spent : Tab Nat := ⟨[]⟩
  /-- The block time at which the head packet of each scheduled send context reached its queue. -/
  head : Tab Nat := ⟨[]⟩
  /-- The committed biases of the lanes (R241). -/
  bias : Tab Nat := ⟨[]⟩
  /-- The next number of a skein or request. -/
  nextId : Nat := 0
  /-- Receive contexts whose layer holds a retained accumulator of the epoch before (R313, R314). -/
  retained : List Nat := []
  /-- Skeins of Ply engines and hosts that have completed, with their record address, status and ACKED, for their submitters (R238). -/
  finished : List (SkeinFrom × Nat × Status × Nat) := []
  deriving DecidableEq, Repr

/-! ### Light -/

/-- The lock loop of one ring (R264, R266): failed sweeps in a row, consecutive passes, weak windows and windows in VERIFY, bias
steps without LOCKED, the distaff that fed it, and which of its two biases are stored. -/
structure RingLoop where
  sweeps : Nat := 0
  passes : Nat := 0
  weak : Nat := 0
  windows : Nat := 0
  steps : Nat := 0
  fed : Nat := 0
  hasAct : Bool := false
  hasSpr : Bool := false
  deriving DecidableEq, Repr

/-- The laser switch of an engine (R270 to R273): rings verified before the exclusion, the boundary at which the lanes return, the timebase
nanosecond at which the switches began to turn, whether they have turned, groups out of service, lanes that wait for a slot start after a forced switch,
and whether the switch runs without an exclusion. -/
structure LaserSwitch where
  before : List Nat := []
  back : Option Nat := none
  turnAt : Nat := 0
  turned : Bool := false
  out : List Nat := []
  forcedDark : List Nat := []
  quiet : Bool := false
  deriving DecidableEq, Repr

/-- Hidden state of a distaff (R269): which of the three actions have happened. -/
structure Distaff where
  notified : Bool := false
  planned : Bool := false
  forced : Bool := false
  deriving DecidableEq, Repr

/-- The light engines' hidden state. -/
structure Light where
  /-- Rings, by `2304 e + m`. -/
  rings : Tab RingLoop := ⟨[]⟩
  /-- Switches, by engine. -/
  switches : Tab LaserSwitch := ⟨[]⟩
  /-- Distaffs, by `3 e + k`. -/
  distaffs : Tab Distaff := ⟨[]⟩
  /-- The receive lane under margin, by engine (R276). -/
  margin : Tab Nat := ⟨[]⟩
  /-- Uncorrectable blocks of each receive lane with the timebase nanosecond at which they came, by `144 e + k` (R274). -/
  bad : Tab (List (Nat × Nat)) := ⟨[]⟩
  /-- Fibres reported failed: input fibres by `18 e + f`, output fibres by `144 + 18 e + f` (R274). -/
  failed : List Nat := []
  /-- An optical rail is low: every lane has stopped (R395). -/
  railLow : Bool := false
  deriving DecidableEq, Repr

/-! ### Ply engines -/

/-- A bound bin (R286, R287): its engine, partition, layer, whether it is a retained accumulator of the epoch before (R314), its
tile, the FP32 accumulators by element of the tile, and the blocks added, each with its context (4,096 + context for a self
contribution). -/
structure Bin where
  e : Nat
  part : Nat
  layer : Nat
  old : Bool := false
  tile : Nat
  acc : Tab Nat := ⟨[]⟩
  added : List (Nat × Nat) := []
  deriving DecidableEq, Repr

/-- A layer in the current step (R290, R306, R308, R312): tiles finished, the FP64 sums of pass 1, whether its group messages are
sent, the group's norms and matrix, the solver's answer (P, or none for the fallback), whether its records are written, whether it has
finished, the step it belongs to, and that step's flag once the step has ended (R314). -/
structure LayerRun where
  part : Nat
  layer : Nat
  old : Bool := false
  finished : Nat := 0
  nw : Nat := 0
  nd : Nat := 0
  sent : Bool := false
  norms : Option (Nat × Nat) := none
  matrix : Option (List Nat) := none
  solved : Option (Option (List Nat)) := none
  written : Bool := false
  done : Bool := false
  step : Nat := 0
  ovf : Bool := false
  deriving DecidableEq, Repr

/-- One piece of a contribution at a group's home (R310): partition, kind, layer, sender, piece, OVF and values. -/
structure GroupIn where
  part : Nat
  kind : Nat
  layer : Nat
  sender : Nat
  piece : Nat
  ovf : Bool
  values : List Nat
  deriving DecidableEq, Repr

/-- The Ply engines' hidden state. An old entry carries its contributors behind its eight words. -/
structure Ply where
  /-- The accepted step parameter block of each partition (R298). -/
  spb : Tab (List Nat) := ⟨[]⟩
  /-- Bound bins (R286). -/
  bins : List Bin := []
  /-- Tiles bound so far in an engine's sequence for a partition, by `4 e + p` (R286). -/
  cursor : Tab Nat := ⟨[]⟩
  /-- Layers of the current step. -/
  runs : List LayerRun := []
  /-- Due marks: partition, layer, retained, due (R291). -/
  marks : List (Nat × Nat × Bool × Int) := []
  /-- Old layer entries whose tiles finish in the retained accumulator (R314). -/
  old : List (Nat × List Nat) := []
  /-- Contributions at homes (R310). -/
  home : List GroupIn := []
  /-- Group messages sent without a result yet: partition, kind, layer, twist counter (R301). -/
  awaiting : List (Nat × Nat × Nat × Nat) := []
  /-- RES_EXP' of a pending step, as the register field (R300). -/
  resNext : Tab Nat := ⟨[]⟩
  /-- The loss-scale snapshot: EXP, CLEAN and RES_EXP as register fields (R302). -/
  snap : Tab (Nat × Nat × Nat) := ⟨[]⟩
  /-- SK_AS_TRUST as sampled at the first finish of the step (R308). -/
  trust : Tab Bool := ⟨[]⟩
  /-- Partitions whose step has been waiting for a boundary since its block was accepted (R300). -/
  boundary : List Nat := []
  /-- Verify runs in progress by `4 e + p`: list address, entries, MODE, CMP, SYNC, SIG (R326). -/
  vrf : Tab (List Nat) := ⟨[]⟩
  deriving DecidableEq, Repr

/-- A slip of a partition's slice that has been raised or received (R193 to R195): the counter values of its raising boundary and of the boundary at
which it applies, and whether this part has sent its notice. Log entry notes/assumptions/60.md (DEDUCED). -/
structure Slip where
  part : Nat
  at_ : Nat
  target : Nat
  sent : Bool
  deriving DecidableEq, Repr

/-- The twist logic's hidden state (R183 to R196). Log entry notes/assumptions/60.md (DEDUCED). -/
structure Twist where
  /-- The period in force, µs (R183, R189). -/
  period : Nat := 1000
  /-- A committed or announced next period and its twist (R191). -/
  next : Option (Nat × Nat) := none
  /-- The timebase nanosecond of the last boundary. -/
  boundary : Nat := 0
  /-- The current plan slot (R184). -/
  slot : Nat := 0
  /-- The selected source (R187). -/
  source : Option Beacon := none
  /-- The source's beacon has come since the last boundary (R187, R189). -/
  seen : Bool := false
  /-- The part is choosing its source (R187). -/
  choosing : Bool := true
  /-- Consecutive beacons within ±4 ns (R189). -/
  good : Nat := 0
  /-- Twists spent in HOLDOVER, and the timebase nanosecond of its start (R189). -/
  held : Nat := 0
  heldAt : Nat := 0
  /-- UNALIGNED with reason COUNT until PKG_RST_N (R190). -/
  stuck : Bool := false
  /-- The slips of the active plans, raised or received (R193 to R195). -/
  slips : List Slip := []
  /-- Partitions whose current plan twist runs a second time after a slip (R193, R342). -/
  rerun : List Nat := []
  /-- Slips applied to each partition since its last phase ring entry (R343). -/
  entrySlips : Tab Nat := ⟨[]⟩
  /-- Twists since the last calibration (R188). -/
  sinceCal : Nat := 0
  /-- The calibration under way: the time of its last request and the (t4 − t1) − (t3 − t2) measured, ns (R188). -/
  cal : Option (Nat × List Int) := none
  deriving DecidableEq, Repr

/-! ### Control ports -/

/-- A frame that a port sends (R349, R350): its type and the fields that the type uses. -/
structure Frame where
  type : Nat
  tag : Nat := 0
  status : Nat := 0
  op : Nat := 0
  id : Nat := 0
  val : Nat := 0
  aux : Nat := 0
  data : List Byte := []
  deriving DecidableEq, Repr

/-- A running queue entry (R355, R356): its number, queue, index and USER, its operation and address, whether its skein has been handed to the flow
engine, a DMA transfer's outcome while its signal is on the way, and once it has completed its status and its BYTES or ACKED. -/
structure QEntry where
  id : Nat
  q : Nat
  idx : Nat
  user : Nat
  op : Nat
  addr : Nat := 0
  handed : Bool := false
  moved : Option (Status × Nat) := none
  done : Option (Status × Nat) := none
  deriving DecidableEq, Repr

/-- The hidden state of a control port (R346 to R353, R355): lanes that have ended their PRBS-31, TRAIN frames received in a row, the next
LSEQ to accept and to send, the last LSEQ that the peer's credit admits, frames not acknowledged, responses and messages that wait,
the NAKs received of one frame in a row and those sent of the frame to accept next, the timebase nanosecond at which each host wait with a
timeout gives up by its TAG, the running entries, the queue served last and the next entry number. Log entry notes/assumptions/4.md (DESIGN CHOICE). -/
structure ZqlPort where
  prbs : Bool := false
  trained : Nat := 0
  rxNext : Nat := 0
  txNext : Nat := 0
  room : Nat := 0
  unacked : List (Nat × Frame) := []
  queue : List Frame := []
  held : List Frame := []
  lastNak : Option Nat := none
  nakRun : Nat := 0
  naks : Nat := 0
  timed : Tab Nat := ⟨[]⟩
  entries : List QEntry := []
  served : Nat := 7
  nextEntry : Nat := 0
  deriving DecidableEq, Repr

/-- The firmware image as staged, and the header of the image that was accepted (R368, R370). -/
structure Firmware where
  header : List Byte := []
  body : List Byte := []
  accepted : List Byte := []
  deriving DecidableEq, Repr

/-- Tenancy and the ports' hidden state: the ports, the deadline D of each partition in NOTICE (R364), the key-agreement keys by the number of their
draw (partitions 0 to 3, management 4; R361), how many have been drawn, how far each clearing has come (R365), and the firmware. The stream of each port (R345): how many of
its blocks have been sent, the last 58 bits of each lane's scrambler (lane k of port p at 4p + k), and the 136-bit blocks sent, with their port and lane. -/
structure Zql where
  ports : Tab ZqlPort := ⟨[]⟩
  deadline : Tab Nat := ⟨[]⟩
  agree : Tab Nat := ⟨[]⟩
  draws : Nat := 0
  clearing : List Nat := []
  fw : Firmware := {}
  blocks : Tab Nat := ⟨[]⟩
  scram : Tab Nat := ⟨[]⟩
  wire : List (Nat × Nat × Nat) := []
  deriving DecidableEq, Repr

/-- The rows of the event table (R403). -/
inductive EvKind where
  | spareExhausted | bondPortFailing | controlPortRetrained | dieLost | dieRejoined | arrayCheckFailed
  | arrayDeclaredFailed | coreHalted | storeWord | hbmWord | scrubWord | throttleChanged | noStackReading
  | stackCritical | mislock | fadeNotify | plannedSwitch | exclusionExtended | forcedSwitch | fibreFailed
  | fabricIdNotUsable | packetAuth | slipRaised | lateSlip | unaligned | lateSwitch | switchBarrierTimeout
  | switchReleaseLate | periodChanged | barrierTimeout | barrierMessage | repairWrite | barrierAborted
  | plyStepFailed | sketchFallback | groupMessage | railBusFailed | regulatorAlert | opticalRailLow
  | partitionReady | reclaimNotice | partitionFreed | awaitingImage | partReady | imageRefused
  | counterSaturated | freezeTaken
  deriving DecidableEq, Repr

/-- A raised event (R402). `part` is a partition or 7. -/
structure Event where
  kind : EvKind
  part : Nat
  unit : Nat
  status : Status
  detail : Nat
  time : Nat
  twist : Nat
  deriving DecidableEq, Repr

/-- A message, frame, line or level that leaves the part. -/
structure Msg where
  kind : MsgKind
  dst : Nat
  body : List Nat
  deriving DecidableEq, Repr

/-- Memory (R152): the listed bytes by local address, words with an uncorrectable error and words with a single-bit
error (by address ÷ 4), and how often the contents of each 16 GiB unit (R157, R180) and, by margin runs, of each 4 KiB page (R175) of HBM became unspecified. -/
structure Mem where
  cells : List Host.Cell := []
  bad : List Nat := []
  soft : List Nat := []
  epochs : Tab Nat := ⟨[]⟩
  pages : Tab Nat := ⟨[]⟩
  deriving DecidableEq, Repr

/-- What the part holds in fuses (R75 to R78, R369, R382): it survives every reset. The repair records burnt, oldest first, as the logical core and the
physical core of its die that takes the number, the fused VCODE and band of each core rail (R393), and the fused minimum SVN (R369). Log entry notes/assumptions/44.md (DESIGN CHOICE). -/
structure Fuses where
  repairs : List (Nat × Nat) := []
  volt : Tab Nat := ⟨[]⟩
  band : Tab (Nat × Nat) := ⟨[]⟩
  minSvn : Nat := 0
  deriving DecidableEq, Repr

/-- Reset and boot (R372 to R386, R392 to R395): a whole-part reset holds, with its cause; PKG_RST_N is low; the base detector holds the reset; the
domain whose gap is counted next (0 for the first); compute dies whose detectors hold them in reset, those that rejoin, those of them that have been tested, and those that have come up by a rejoin since the reset; the rail bus transaction
under way of each die as CMD and VCODE with its failures in a row; when a rail was last set; the rails whose status an alert still has to read, and whether
one has shown a fault, the rail whose status it reads on the bus and those whose read has failed and waits for its retry; the optical rails that are low; the
compute dies whose DIE_ALIVE is high; the stacks whose HBM4E rails have been out of tolerance since power-on, with one more than the time; and when domain 8
was released. -/
structure Boot where
  resetting : Bool := false
  cause : Nat := 0
  pinLow : Bool := false
  baseHeld : Bool := false
  domain : Nat := 0
  dieHeld : List Nat := []
  rejoin : List Nat := []
  tested : List Nat := []
  late : List Nat := []
  rails : Tab (Nat × Nat) := ⟨[]⟩
  tries : Tab Nat := ⟨[]⟩
  setAt : Tab Nat := ⟨[]⟩
  failed : List Nat := []
  alert : List Nat := []
  alertSeen : Bool := false
  reading : Option Nat := none
  unread : List Nat := []
  lowRails : List Nat := []
  alive : List Nat := []
  hbmLow : Tab Nat := ⟨[]⟩
  seqAt : Nat := 0
  deriving DecidableEq, Repr

/-- The monitor's commands (R420). -/
inductive MonName where
  | pk | po | ev | fz | sn | ln | so | sr | tt | mg | bd | hp
  deriving DecidableEq, Repr

/-- A line in the monitor's receive buffer (R416): its command, none for a line that names none, its arguments, how many of the buffer's bytes it fills, and whether it came whole:
without a framing error or a lost character, and not too long. -/
structure RxLine where
  name : Option MonName
  args : List Text
  bytes : Nat
  whole : Bool
  deriving DecidableEq, Repr

/-- The monitor (R414 to R421): the boundaries that `tt` still captures with the lines captured, the margin run that `mg` waits for, whether no command
line has come since the last switch of the baud rate, and the lines in the receive buffer. -/
structure Mon where
  ttLeft : Nat := 0
  ttLines : List (List Nat) := []
  margin : Option Margin := none
  switched : Bool := false
  rx : List RxLine := []
  deriving DecidableEq, Repr

/-- The test access port (R422, R425): the instruction in its register, IDCODE after Test-Logic-Reset, and the 33 cells of the boundary register. Log entry notes/assumptions/4.md (DESIGN CHOICE). -/
structure Tap where
  ir : Nat := 1
  boundary : BitVec 33 := 0
  deriving DecidableEq, Repr

/-- Everything of the part but its memory and the command queue. -/
structure Dev where
  /-- The register file: the listed registers by local address (R6, R154). -/
  regs : Tab Word := ⟨[]⟩
  /-- The snapshots by the register's local address (R409). -/
  snaps : Tab Word := ⟨[]⟩
  /-- The twist timebase, ns since the release of base control (R183, R402). Log entry notes/assumptions/8.md (DESIGN CHOICE). -/
  now : Nat := 0
  /-- The status with which the last command that reports one completed, and its data (R10). Log entry notes/assumptions/10.md (DESIGN CHOICE). -/
  reply : Status × List Nat := (.ok, [])
  /-- Messages that have left the part, oldest first. The model's own trace. Log entry notes/assumptions/10.md (DESIGN CHOICE). -/
  out : List Msg := []
  /-- The model's own count of free values taken. Log entry notes/assumptions/7.md (DESIGN CHOICE). -/
  fresh : Nat := 0
  /-- The timebase nanosecond at which each compute die's domain was released (R131). -/
  dieReleased : Tab Nat := ⟨[]⟩
  /-- The cores by logical number (R116). -/
  cores : Tab Core := ⟨[]⟩
  /-- The fuses. -/
  fuses : Fuses := {}
  /-- Physical cores that failed the latest self-test of their die, as 576 × die + core (R75). -/
  testFailed : List Nat := []
  /-- Failed in-service checks in this power-on, by 4 × (576 × die + physical core) + array (R78). -/
  checks : Tab Nat := ⟨[]⟩
  /-- The core under in-service test (R79). -/
  testCore : Option Nat := none
  /-- The bond ports (R27). -/
  ports : Tab BondPort := ⟨[]⟩
  /-- Port, DIR and AXIS of the bond margin run under way (R42). -/
  bondRun : Nat × Nat × Nat := (0, 0, 0)
  /-- Partitions that a die loss has ended (R45, R47). -/
  dead : List Nat := []
  /-- Reset and boot (R372 to R386). -/
  boot : Boot := {}
  /-- The HBM controllers (R159). -/
  hbm : Hbm := {}
  /-- The sync object store (R197). -/
  sync : Sync := {}
  /-- The twist logic (R183). -/
  tw : Twist := {}
  /-- The fabric (R216 to R252). -/
  fab : Fab := {}
  /-- The light engines (R253 to R277). -/
  light : Light := {}
  /-- The Ply engines (R278 to R318). -/
  ply : Ply := {}
  /-- The control ports and tenancy (R345 to R371). -/
  zql : Zql := {}
  /-- The monitor (R414). -/
  mon : Mon := {}
  /-- The test access port (R422). -/
  tap : Tap := {}
  /-- The part drives FREEZE_N low (R412). -/
  frzDrive : Bool := false
  /-- Raised events that wait for the log, oldest first (R405). -/
  evq : List Event := []
  deriving DecidableEq, Repr

/-- The state of the block: the waiting commands first in first out, the memory and the rest. Log entry notes/assumptions/80.md (DESIGN CHOICE). -/
structure State where
  pending : List Instr
  mem : Mem
  dev : Dev
  deriving DecidableEq, Repr

/-- The state right after reset. Log entry notes/assumptions/4.md (DESIGN CHOICE). -/
def State.reset : State := ⟨[], {}, {}⟩

end Sys2Proof.Machine
end

