-- ==== Sys2Proof/Machine/Memory.lean ====
section
/-!
DEFINITION. Memory: the regions of the local map (R152), reading and writing bytes in the one canonical form, the
32-bit words with check bits (R84, R167), and the writes that a command may make as data.
-/

namespace Sys2Proof.Machine

/-- The first local address above HBM. -/
def hbmTop : Nat := 0x8000000000

/-- What a local address names (R82, R152, R153). `under` and `bobbin` carry the core and the offset; `view` carries the element size
and the HBM address. -/
inductive Region where
  | hbm (a : Nat)
  | under (c off : Nat)
  | bobbin (c off : Nat)
  | sync (off : Nat)
  | csr (off : Nat)
  | view (size a : Nat)
  | hole
  deriving DecidableEq, Repr

/-- The region of a local address (R152). -/
def Region.of (a : Nat) : Region :=
  if a < hbmTop then .hbm a
  else if 0x10000000000 ≤ a ∧ a < 0x10080000000 then
    let o := a - 0x10000000000
    if o % 0x200000 < 0x180000 then .under (o / 0x200000) (o % 0x200000) else .hole
  else if 0x14000000000 ≤ a ∧ a < 0x14020000000 then
    let o := a - 0x14000000000
    .bobbin (o / 0x80000) (o % 0x80000)
  else if 0x18000000000 ≤ a ∧ a < 0x18000100000 then .sync (a - 0x18000000000)
  else if 0x1C000000000 ≤ a ∧ a < 0x1C020000000 then .csr (a - 0x1C000000000)
  else if 0x20000000000 ≤ a ∧ a < 0x28000000000 then .view 1 (a - 0x20000000000)
  else if 0x28000000000 ≤ a ∧ a < 0x30000000000 then .view 2 (a - 0x28000000000)
  else .hole

/-- Where core `c`'s bobbin lies (R80). -/
def bobbinBase (c : Nat) : Nat := 0x14000000000 + c * 0x80000

/-- Where core `c`'s under-core store lies (R80). -/
def underBase (c : Nat) : Nat := 0x10000000000 + c * 0x200000

/-- The channel that holds an HBM address (R156). -/
def hbmChannel (hash : Bool) (a : Nat) : Nat :=
  if hash then
    Nat.xor (Nat.xor (bits a 12 8) (bits a 20 8)) (Nat.xor (bits a 28 8) (bits a 36 3))
  else bits a 12 8

/-- The offset of an HBM address in its channel (R156). -/
def hbmOffset (a : Nat) : Nat := bits a 20 19 * 2 ^ 12 + bits a 0 12

/-- The HBM address of an offset of a channel (R156). -/
def hbmAddress (hash : Bool) (ch off : Nat) : Nat :=
  let hi := off / 4096 * 2 ^ 20
  let mid := if hash then Nat.xor (Nat.xor ch (bits hi 20 8)) (Nat.xor (bits hi 28 8) (bits hi 36 3)) else ch
  hi + mid * 4096 + off % 4096

/-- The HBM address of the byte that a view of `size`-byte elements presents at HBM address `a` (R164): element (r, k) of a tile
is element (k, r). -/
def viewByte (size a : Nat) : Nat :=
  let t := 1024 * size
  let o := a % t
  let e := o / size
  a / t * t + ((e % 32) * 32 + e / 32) * size + o % size

/-- An address lies in a transposing view. -/
def isView (a : Nat) : Bool :=
  match Region.of a with
  | .view _ _ => true
  | _ => false

/-- The address at which an access reaches memory: in a transposing view, the HBM address that it shows (R152, R164). -/
def Region.target (a : Nat) : Nat :=
  match Region.of a with
  | .view _ h => h
  | _ => a

/-- The address of byte `i` of an access at `a` (R164). -/
def Region.seen (a i : Nat) : Nat :=
  match Region.of a with
  | .view size h => viewByte size (h + i)
  | _ => a + i

/-- The numbers of a list rise strictly. -/
def risingNat : List Nat → Bool
  | [] => true
  | [_] => true
  | x :: y :: t => decide (x < y) && risingNat (y :: t)

namespace Mem

/-- What an unlisted address reads as: a store word is zero, as zeroing leaves it (R85, R116); an HBM byte is
unspecified until written (R180), a free value. Log entry notes/assumptions/6.md (DESIGN CHOICE). -/
def dflt (m : Mem) (a : Nat) : Byte :=
  if a < hbmTop then Config.hbmByte (m.epochs.get 0 (a / 2 ^ 34) + m.pages.get 0 (a / 4096)) a else 0

/-- The byte at a local address. -/
def byte (m : Mem) (a : Nat) : Byte := (lookupKey a m.cells).getD (m.dflt a)

/-- The canonical form of memory: addresses strictly rising, no byte of a store region listed as zero, and the words with errors listed once each in rising order, none
as both uncorrectable and single-bit. Log entry notes/assumptions/6.md (DESIGN CHOICE). -/
def wf (m : Mem) : Bool :=
  rising m.cells && (m.cells.all fun c => decide (c.1 < hbmTop) || decide (c.2 ≠ 0)) &&
    risingNat m.bad && risingNat m.soft && m.soft.all fun w => !m.bad.contains w

/-- Write one byte, in canonical form. -/
def put (m : Mem) (a : Nat) (b : Byte) : Mem :=
  { m with cells := if hbmTop ≤ a ∧ b = 0 then eraseKey a m.cells else insertKey a b m.cells }

/-- Write bytes from `a` up. -/
def puts (m : Mem) (a : Nat) : List Byte → Mem
  | [] => m
  | b :: bs => (m.put a b).puts (a + 1) bs

/-- The `n` bytes from `a` up. -/
def read (m : Mem) (a n : Nat) : List Byte := (List.range n).map fun i => m.byte (a + i)

/-- The bytes of an access of `n` bytes at `a`, through a view if it lies in one (R164). -/
def seen (m : Mem) (a n : Nat) : List Byte := (List.range n).map fun i => m.byte (Region.seen a i)

/-- The little-endian number in the `n` bytes from `a` up (R4). -/
def nat (m : Mem) (a n : Nat) : Nat := leNat (m.read a n)

/-- The first word of `l` that `n` bytes from `a` touch, by its number (address ÷ 4). -/
def touched (l : List Nat) (a n : Nat) : Option Nat := l.find? fun w => decide (4 * w < a + n ∧ a < 4 * w + 4)

/-- The words of `l` that reads of the given ranges (address and length) touch. -/
def hits (l : List Nat) (ranges : List (Nat × Nat)) : List Nat := l.filter fun w => ranges.any fun r => decide (4 * w < r.1 + r.2 ∧ r.1 < 4 * w + 4)

end Mem

/-- Put a number into a list of rising numbers. -/
def insertNat (k : Nat) : List Nat → List Nat
  | [] => [k]
  | x :: t => if k < x then k :: x :: t else if k = x then x :: t else x :: insertNat k t

/-- A change of memory as data. Every command changes memory through a list of these, so that one lemma says what a
command can do to memory. -/
inductive MemWr where
  /-- Write bytes; a word that is written whole holds valid check bits again (R84, R398). -/
  | bytes (a : Nat) (bs : List Byte)
  /-- Zero a range of a store, with valid check bits (R85). -/
  | zero (a n : Nat)
  /-- The contents of a 16 GiB unit of HBM become unspecified, with valid check bits (R157, R180). -/
  | forget (unit : Nat)
  /-- Offsets 0 to 0xF_FFFF of a channel become unspecified, with valid check bits (R175). -/
  | forgetChannel (hash : Bool) (ch : Nat)
  /-- A word has an uncorrectable error from now on (R398). -/
  | poison (w : Nat)
  /-- A word has a single-bit error from now on (R84, R168). -/
  | upset (w : Nat)
  /-- A single-bit error is corrected in place (R84, R168). -/
  | heal (w : Nat)
  deriving DecidableEq, Repr

/-- The words that a write of `n` bytes at `a` covers whole. -/
def coversWord (a n w : Nat) : Bool := decide (a ≤ 4 * w ∧ 4 * w + 4 ≤ a + n)

/-- Make one change. Log entry notes/assumptions/6.md (DESIGN CHOICE). -/
def Mem.apply (m : Mem) : MemWr → Mem
  | .bytes a bs =>
    let m := m.puts a bs
    { m with bad := m.bad.filter fun w => !coversWord a bs.length w,
             soft := m.soft.filter fun w => !coversWord a bs.length w }
  | .zero a n =>
    { m with cells := m.cells.filter fun c => decide (c.1 < hbmTop ∨ c.1 < a ∨ a + n ≤ c.1),
             bad := m.bad.filter fun w => !coversWord a n w,
             soft := m.soft.filter fun w => !coversWord a n w }
  | .forget u =>
    { m with
      cells := m.cells.filter fun c => decide (¬ (c.1 < hbmTop ∧ c.1 / 2 ^ 34 = u)),
      bad := m.bad.filter fun w => decide (¬ (4 * w < hbmTop ∧ 4 * w / 2 ^ 34 = u)),
      soft := m.soft.filter fun w => decide (¬ (4 * w < hbmTop ∧ 4 * w / 2 ^ 34 = u)),
      epochs := m.epochs.modify 0 u (· + 1) }
  | .forgetChannel h ch =>
    let gone (a : Nat) : Bool := decide (a < hbmTop ∧ hbmChannel h a = ch ∧ hbmOffset a < 0x100000)
    { m with
      cells := m.cells.filter fun c => !gone c.1,
      bad := m.bad.filter fun w => !gone (4 * w),
      soft := m.soft.filter fun w => !gone (4 * w),
      pages := (List.range 256).foldl (fun t i => t.modify 0 (hbmAddress h ch (4096 * i) / 4096) (· + 1)) m.pages }
  | .poison w => { m with bad := insertNat w m.bad, soft := m.soft.filter (· ≠ w) }
  | .upset w => { m with soft := if w ∈ m.bad then m.soft else insertNat w m.soft }
  | .heal w => { m with soft := m.soft.filter (· ≠ w) }

/-- Make changes in order. -/
def Mem.applyAll (m : Mem) (l : List MemWr) : Mem := l.foldl Mem.apply m

/-- The machine's data while a command runs: the memory as it now stands, the changes made so far (newest first), the device, and whether a margin run
holds one of the command's reads back (R176). -/
structure Work where
  mem : Mem
  log : List MemWr
  dev : Dev
  held : Bool := false
  deriving DecidableEq, Repr

namespace Work

/-- Change memory. -/
def write (w : Work) (x : MemWr) : Work := { w with mem := w.mem.apply x, log := x :: w.log }

/-- Change the device. -/
def on (w : Work) (f : Dev → Dev) : Work := { w with dev := f w.dev }

end Work

end Sys2Proof.Machine
end

