-- ==== Sys2Proof/Machine/Ops.lean ====
section
/-!
DEFINITION. The named operations that the meanings share: register fields, counters (R406), events (R400 to R405), messages, free
values, who holds what (R16, R17), reaching an address (R46, R153, R172, R174, R179, R181), loading and storing with check bits (R84, R163, R398).
-/

namespace Sys2Proof.Machine

/-- The code of a status (R10). -/
def Status.code : Status → Nat
  | .ok => 0 | .eccUncorrected => 1 | .dieLost => 2 | .isolated => 3 | .sliceDenied => 4 | .partitionDenied => 5
  | .versionSkew => 6 | .epochStale => 7 | .deadlineMissed => 8 | .pathLost => 9 | .writeRefused => 10 | .keyRevoked => 11
  | .saturated => 12 | .formatFault => 13 | .stepStale => 14 | .notLocked => 15

/-- The status of a code; the part never returns the codes above 0x0F (R11). -/
def Status.ofCode : Nat → Status
  | 0 => .ok | 1 => .eccUncorrected | 2 => .dieLost | 3 => .isolated | 4 => .sliceDenied | 5 => .partitionDenied
  | 6 => .versionSkew | 7 => .epochStale | 8 => .deadlineMissed | 9 => .pathLost | 10 => .writeRefused | 11 => .keyRevoked
  | 12 => .saturated | 14 => .stepStale | 15 => .notLocked | _ => .formatFault

/-- The status met first: `a` unless it is OK (R12). -/
def Status.orElse (a b : Status) : Status := if a = .ok then b else a

/-- Of two conditions found at the same point, the lowest non-zero code (R12). Log entry notes/assumptions/14.md (DEDUCED). -/
def Status.lowest (a b : Status) : Status :=
  if a = .ok then b else if b = .ok then a else if a.code ≤ b.code then a else b

/-- Of conditions found at the same point, the lowest non-zero code (R12). -/
def Status.lowestOf (l : List Status) : Status := l.foldl Status.lowest .ok

/-- A flag as a field value. -/
def flag (b : Bool) : Nat := if b then 1 else 0

namespace Dev

/-! ### Register fields -/

/-- The word held by register `r` at index `i`. -/
def word (d : Dev) (r : Reg) (i : Nat) : Word := d.regs.get (r.reset i) (r.addr i)

/-- Set the word held by register `r` at index `i`. -/
def setWord (d : Dev) (r : Reg) (i : Nat) (v : Word) : Dev := { d with regs := d.regs.set (r.addr i) v }

/-- The value of a field of a register. -/
def get (d : Dev) (f : Fld) (i : Nat := 0) : Nat := bits (d.word f.reg i).toNat f.lo f.width

/-- Set a field of a register. -/
def put (d : Dev) (f : Fld) (i : Nat) (v : Nat) : Dev :=
  d.setWord f.reg i (BitVec.ofNat 64 (putBits (d.word f.reg i).toNat f.lo f.width v))

/-- Set several fields of one register. -/
def putAll (d : Dev) (i : Nat) : List (Fld × Nat) → Dev
  | [] => d
  | (f, v) :: t => (d.put f i v).putAll i t

/-- A one-bit field is set. -/
def isSet (d : Dev) (f : Fld) (i : Nat := 0) : Bool := d.get f i = 1

/-- Put a register back to its reset value (R8). -/
def resetReg (d : Dev) (r : Reg) (i : Nat) : Dev := { d with regs := d.regs.erase (r.addr i) }

/-- Complete a command with a status. -/
def answer (d : Dev) (s : Status) : Dev := { d with reply := (s, []) }

/-- Complete a command with OK and data. -/
def answerData (d : Dev) (l : List Nat) : Dev := { d with reply := (.ok, l) }

/-- A message leaves the part. Log entry notes/assumptions/10.md (DESIGN CHOICE). -/
def send (d : Dev) (k : MsgKind) (dst : Nat) (body : List Nat) : Dev := { d with out := d.out ++ [⟨k, dst, body⟩] }

/-- Take a free value of `w` bits. Log entry notes/assumptions/7.md (DESIGN CHOICE). -/
def free (d : Dev) (w : Nat) : Nat × Dev := (Config.freeValue d.fresh % 2 ^ w, { d with fresh := d.fresh + 1 })

end Dev

/-! ### Events -/

/-- CLASS and CODE of an event (R403). -/
def EvKind.classCode : EvKind → Nat × Nat
  | .spareExhausted => (0x01, 1)
  | .bondPortFailing => (0x02, 1) | .controlPortRetrained => (0x02, 2)
  | .dieLost => (0x03, 1) | .dieRejoined => (0x03, 2)
  | .arrayCheckFailed => (0x04, 1) | .arrayDeclaredFailed => (0x04, 2)
  | .coreHalted => (0x05, 1)
  | .storeWord => (0x06, 1) | .hbmWord => (0x06, 2) | .scrubWord => (0x06, 3)
  | .throttleChanged => (0x07, 1) | .noStackReading => (0x07, 2) | .stackCritical => (0x07, 3)
  | .mislock => (0x08, 1) | .fadeNotify => (0x08, 2) | .plannedSwitch => (0x08, 3) | .exclusionExtended => (0x08, 4)
  | .forcedSwitch => (0x08, 5) | .fibreFailed => (0x08, 6)
  | .fabricIdNotUsable => (0x09, 1) | .packetAuth => (0x09, 2)
  | .slipRaised => (0x0A, 1) | .lateSlip => (0x0A, 2) | .unaligned => (0x0A, 3) | .lateSwitch => (0x0A, 4)
  | .switchBarrierTimeout => (0x0A, 5) | .switchReleaseLate => (0x0A, 6) | .periodChanged => (0x0A, 7)
  | .barrierTimeout => (0x0B, 1) | .barrierMessage => (0x0B, 2) | .repairWrite => (0x0B, 3) | .barrierAborted => (0x0B, 4)
  | .plyStepFailed => (0x0C, 1) | .sketchFallback => (0x0C, 2) | .groupMessage => (0x0C, 3)
  | .railBusFailed => (0x0D, 1) | .regulatorAlert => (0x0D, 2) | .opticalRailLow => (0x0D, 3)
  | .partitionReady => (0x0E, 1) | .reclaimNotice => (0x0E, 2) | .partitionFreed => (0x0E, 3)
  | .awaitingImage => (0x0F, 1) | .partReady => (0x0F, 2) | .imageRefused => (0x0F, 3)
  | .counterSaturated => (0x10, 1)
  | .freezeTaken => (0x11, 1)

/-- SEV of an event: 0 INFO, 1 WARN, 2 FATAL (R403). -/
def EvKind.severity : EvKind → Nat
  | .controlPortRetrained | .dieRejoined | .throttleChanged | .slipRaised | .lateSwitch | .barrierAborted
  | .sketchFallback | .partitionReady | .partitionFreed | .awaitingImage | .partReady | .counterSaturated
  | .freezeTaken => 0
  | .dieLost | .stackCritical | .lateSlip | .unaligned | .switchReleaseLate | .periodChanged => 2
  | _ => 1

namespace Dev

/-- Add to a counter under the counter rule (R406): VALUE saturates and SAT is set. The flag says that this is the first such
update since SAT was clear. -/
def bump (d : Dev) (r : Reg) (i n : Nat) : Dev × Bool :=
  let v := (d.word r i).toNat
  let x := bits v 0 48 + n
  if x < 2 ^ 48 then (d.setWord r i (BitVec.ofNat 64 (putBits v 0 48 x)), false)
  else (d.setWord r i (BitVec.ofNat 64 (2 ^ 63 + (2 ^ 48 - 1))), !v.testBit 63)

/-- Raise an event (R400, R402): it waits for the log in a queue of 256 entries; one that finds the queue full is lost and counted
in `EVT_DROP` (R405). Log entry notes/assumptions/12.md (DEDUCED) and notes/assumptions/13.md (DEDUCED). -/
def raise (d : Dev) (k : EvKind) (part unit detail : Nat) (st : Status := .ok) : Dev :=
  if 256 ≤ d.evq.length then (d.bump .EVT_DROP 0 1).1
  else
    let tw := if d.get F.TWIST_ALIGN_STATE = 0 then 0 else d.get F.TWIST_CNT_CNT
    { d with evq := d.evq ++ [⟨k, part, unit, st, detail, d.now, tw⟩] }

/-- An increment of a counter under the counter rule. The first saturated update raises one counter-saturated event (R406), with the
counter's window and offset. -/
def count (d : Dev) (r : Reg) (i : Nat := 0) (n : Nat := 1) : Dev :=
  let (d, first) := d.bump r i n
  if first then
    let o := r.addr i - 0x1C000000000
    d.raise .counterSaturated 7 0x800 (o / 0x1000000 + o % 0x1000000 * 32)
  else d

/-- Zero a counter (R407). -/
def zeroCount (d : Dev) (r : Reg) (i : Nat) : Dev := d.setWord r i 0

/-! ### Who holds what -/

/-- Partition `p` is in a state other than FREE (R358). -/
def live (d : Dev) (p : Nat) : Bool := d.get F.ZQL_PCTL_STATE p ≠ 0

/-- The partition that holds a core group (R16). -/
def partOfGroup (d : Dev) (g : Nat) : Option Nat :=
  (List.range 4).find? fun p => d.live p && (d.get F.ZQL_PGRP_GROUPS p).testBit g

/-- The partition in which a core lies, if any (R16, R448). -/
def partOfCore (d : Dev) (c : Nat) : Option Nat := d.partOfGroup (c / 64)

/-- The valid partition range that holds an HBM address (R179, R180). -/
def partOfHbm (d : Dev) (a : Nat) : Option Nat :=
  (List.range 4).find? fun p =>
    d.isSet F.HBM_PART_VALID p && decide (d.get F.HBM_PART_BASE p ≤ a / 2 ^ 34) &&
      decide (a / 2 ^ 34 < d.get F.HBM_PART_BASE p + d.get F.HBM_PART_SIZE p)

/-- The partition bound to a control port (R16, R359). -/
def partOfPort (d : Dev) (port : Nat) : Option Nat :=
  (List.range 4).find? fun p => d.live p && decide (d.get F.ZQL_PCTL_PORT p = port)

/-- The partition that holds a sync object (R16, R198). -/
def partOfSync (d : Dev) (id : Nat) : Option Nat :=
  if id < 49152 then d.partOfGroup (id / 3072)
  else if id < 57344 then
    (List.range 4).find? fun p => d.live p && (d.get F.ZQL_PSYNC_PF p).testBit ((id - 49152) / 256)
  else if id < 61440 then d.partOfPort ((id - 57344) / 1024)
  else (List.range 4).find? fun p => d.live p && (d.get F.ZQL_PSYNC_BAR p).testBit ((id - 61440) / 256)

/-- The partition that holds a flow context (R16). -/
def partOfFlow (d : Dev) (n : Nat) : Option Nat :=
  (List.range 4).find? fun p => d.live p && (d.get F.ZQL_PFLOW_FLOWS p).testBit (n / 64)

/-- The partition whose right a requester uses; none for the management processor and the owner port (R357). -/
def partOfReq : Requester → Option Nat
  | .mgmt => none
  | .owner => none
  | .part p => some p

/-- The number that names a partition in an event: 7 for the whole part (R402). -/
def evPart (p : Option Nat) : Nat := p.getD 7

/-! ### Reaching an address -/

/-- The wrappers of the die that carries core `c` are closed (R45, R46). -/
def dieClosed (d : Dev) (c : Nat) : Bool := d.isSet F.LBI_DIE_STAT_WRAP_CLOSED (c / 512)

/-- The status of a channel: ISOLATED when it is FAILED or its stack is out of service (R172, R174). -/
def channelStatus (d : Dev) (ch : Nat) : Status :=
  if d.isSet F.HBM_CH_STAT_FAILED ch || (d.hbm.therm.get {} (ch % 8)).down then .isolated else .ok

/-- The channel of an HBM address under the hash in force (R156). -/
def channelOf (d : Dev) (a : Nat) : Nat := hbmChannel (d.isSet F.HBM_CFG_HASH) a

/-- A request of the partition, or its stores, answer KEY_REVOKED (R181). -/
def keyStatus (d : Dev) (who : Option Nat) : Status :=
  match who with
  | some p => if p ∈ d.hbm.revoked then .keyRevoked else .ok
  | none => .ok

/-- What a data access by `who` (a partition, or the rights of the management processor) meets at one address: FORMAT_FAULT
where no store or HBM byte lies (R153), PARTITION_DENIED (R17, R179, R448), then ISOLATED or KEY_REVOKED at the target (R46, R172, R174, R181). -/
def reachAt (d : Dev) (who : Option Nat) (a : Nat) : Status :=
  match Region.of a with
  | .hbm a =>
    if d.partOfHbm a ≠ who then .partitionDenied
    else (d.channelStatus (d.channelOf a)).lowest (d.keyStatus who)
  | .under c _ | .bobbin c _ =>
    if d.partOfCore c ≠ who then .partitionDenied
    else if d.dieClosed c then .isolated
    else d.keyStatus who
  | _ => .formatFault

/-- The addresses at which an access of `n` bytes can change its region, holder or channel: its first and last byte and every
4 KiB boundary between. -/
def probes (a n : Nat) : List Nat :=
  a :: ((List.range (n / 4096 + 1)).map (fun i => (a / 4096 + 1 + i) * 4096)).filter (· < a + n) ++ [a + n - 1]

/-- A status with which the requester's network interface refuses an access; the others come from its targets (R158). -/
def refused (s : Status) : Bool := s = .formatFault || s = .partitionDenied

/-- What an access of `n` bytes at `a` meets first outside the views, with the address: the check of the requester's interface over all of it, then its targets
(R17, R153, R158). -/
def reachPlain (d : Dev) (who : Option Nat) (a n : Nat) : Status × Nat :=
  let l := (probes a n).filter fun x => d.reachAt who x ≠ .ok
  match (l.filter fun x => refused (d.reachAt who x)) ++ l with
  | x :: _ => (d.reachAt who x, x)
  | [] => (.ok, 0)

/-- What an access of `n` bytes at `a` meets first, with the address. One through a transposing view takes one whole aligned tile (R164). -/
def reach (d : Dev) (who : Option Nat) (a n : Nat) : Status × Nat :=
  match Region.of a with
  | .view size h =>
    if n ≠ 1024 * size ∨ h % (1024 * size) ≠ 0 then (.formatFault, a)
    else match d.reachPlain who h n with
      | (.ok, _) => (.ok, 0)
      | (s, x) => (s, a + (x - h))
  | _ => d.reachPlain who a n

/-- The compute dies whose bonds an access to a local address crosses, by core `c` or by a unit of the base die (R26, R27, R80): a bobbin is reached through its die's
bonds but by its own core; an under-core store lies on the base die, and its core reaches it directly. Log entry notes/assumptions/34.md (DEDUCED). -/
def bondsOf (via : Option Nat) (a : Nat) : List Nat :=
  let own := via.toList.map (· / 512)
  match Region.of a with
  | .bobbin k _ => if via = some k then [] else (own ++ [k / 512]).eraseDups
  | .under k _ => if via = some k then [] else own
  | _ => own

/-- The core that a unit's number names, if it names one (R402). -/
def coreUnit (u : Nat) : Option Nat := if u < 1024 then some u else none

/-- A compute die has no ACTIVE bond port: nothing crosses its bonds (R13, R40). -/
def offBond (d : Dev) (die : Nat) : Bool := d.get F.LBI_DIE_STAT_PORTS_ACTIVE die = 0

/-- An access of `n` bytes at `a` crosses bonds none of which is up (R13, R40). -/
def bondCut (d : Dev) (via : Option Nat) (a n : Nat) : Bool := (bondsOf via a ++ bondsOf via (a + n - 1)).any d.offBond

/-- What an access by core `via`, or by a unit of the base die, meets first, with the address: the requester's interface, the bonds on its way, then its
targets (R13, R17, R40, R153, R158). -/
def reachFrom (d : Dev) (via : Option Nat) (who : Option Nat) (a n : Nat) : Status × Nat :=
  let r := d.reach who a n
  if !refused r.1 && d.bondCut via a n then (.isolated, a) else r

/-- Some of `n` bytes at `a` lie in the channel of a margin run (R176). -/
def inMargin (d : Dev) (a n : Nat) : Bool :=
  d.isSet F.HBM_MRG_CTL_BUSY && (probes (Region.target a) n).any fun x => decide (x < hbmTop) && decide (d.channelOf x = d.hbm.run.1)

/-- A margin run holds back an access of `n` bytes at `a` that may be made (R176). Log entry notes/assumptions/33.md (DEDUCED). -/
def margined (d : Dev) (who : Option Nat) (a n : Nat) : Bool := d.inMargin a n && (d.reach who a n).1 = .ok

end Dev

namespace Work

/-- An access of `n` bytes at `a`, unless a margin run holds it back: then nothing happens, and it is offered again (R176). Log entry notes/assumptions/33.md
(DEDUCED). -/
def unheld (w : Work) (who : Option Nat) (a n : Nat) (f : Work → Work) : Work := if w.dev.margined who a n then w else f w

/-- Count an uncorrectable word that a reader met, and raise the memory event (R84, R167, R398). `word` is the word's number. -/
def uncorrectable (w : Work) (part : Option Nat) (reader word : Nat) : Work :=
  let a := 4 * word
  w.on fun d =>
    match Region.of a with
    | .hbm a => (d.count .HBM_UE (d.channelOf a)).raise .hbmWord (Dev.evPart part) reader a .eccUncorrected
    | .under c _ | .bobbin c _ => (d.count .STR_UE c).raise .storeWord (Dev.evPart part) reader a .eccUncorrected
    | _ => d

/-- Correct a single-bit error that a reader met: counted, and in a store written back (R84, R167). -/
def corrected (w : Work) (word : Nat) : Work :=
  match Region.of (4 * word) with
  | .hbm a => w.on fun d => d.count .HBM_CE (d.channelOf a)
  | .under c _ | .bobbin c _ => (w.write (.heal word)).on fun d => d.count .STR_CE c
  | _ => w

/-- What reads of the given ranges meet (R84, R167, R398): every single-bit error is corrected, and every uncorrectable word counted; the first of those is
returned. -/
def meet (w : Work) (part : Option Nat) (reader : Nat) (ranges : List (Nat × Nat)) : Work × Option Nat :=
  let bad := Mem.hits w.mem.bad ranges
  (bad.foldl (fun w x => w.uncorrectable part reader x) ((Mem.hits w.mem.soft ranges).foldl corrected w), bad.head?)

/-- Read `n` bytes at `a`, for core `via` or for a unit of the base die: the status, the address that failed, and the bytes (none when it failed). A margin run on
the channel holds the command back (R176). -/
def loadFrom (w : Work) (via : Option Nat) (who : Option Nat) (reader a n : Nat) : Work × Status × Nat × List Byte :=
  match w.dev.reachFrom via who a n with
  | (.ok, _) =>
    let h := Region.target a
    match { w with held := w.held || w.dev.inMargin a n }.meet who reader [(h, n)] with
    | (w, some x) => (w, .eccUncorrected, a + (4 * x - h), [])
    | (w, none) => (w, .ok, 0, w.mem.seen a n)
  | (s, x) => (w, s, x, [])

/-- A read by a unit of the base die. -/
def load (w : Work) : Option Nat → Nat → Nat → Nat → Work × Status × Nat × List Byte := w.loadFrom none

/-- A read by core `c`. Log entry notes/assumptions/33.md (DEDUCED). -/
def coreLoad (w : Work) (c : Nat) (who : Option Nat) : Nat → Nat → Work × Status × Nat × List Byte := w.loadFrom (some c) who c

/-- The size of the unit that a write is merged in: a 16-byte granule of a store, a 32-byte unit of HBM (R84, R163). -/
def mergeUnit (a : Nat) : Nat := if a < hbmTop then 32 else 16

/-- Write the part of `bs` (at `a`) that falls into the unit that starts at `u`: merged with the unit's other bytes unless it covers it
whole; a merge over an uncorrectable word is not performed (R84, R163). -/
def storeUnit (w : Work) (who : Option Nat) (reader a : Nat) (bs : List Byte) (u : Nat) : Work × Status :=
  let g := mergeUnit a
  let lo := Nat.max a u
  let hi := Nat.min (a + bs.length) (u + g)
  match w.meet who reader (if lo = u ∧ hi = u + g then [] else [(u, g)]) with
  | (w, some _) => (w, .eccUncorrected)
  | (w, none) => (w.write (.bytes lo ((bs.drop (lo - a)).take (hi - lo))), .ok)

/-- Write bytes at `a`, unit by unit: a unit whose merge fails is not written, every other is, and the write completes with
ECC_UNCORRECTED (R84, R163). -/
def storeUnits (w : Work) (who : Option Nat) (reader a : Nat) (bs : List Byte) : Work × Status :=
  let g := mergeUnit a
  let first := a / g
  let n := if bs.length = 0 then 0 else (a + bs.length - 1) / g - first + 1
  (List.range n).foldl (fun (r : Work × Status) i =>
    let (w, s) := storeUnit r.1 who reader a bs ((first + i) * g)
    (w, r.2.orElse s)) (w, .ok)

/-- The first address at which a write of `n` bytes at `a` finds a merge that fails (R84, R163). -/
def mergeFailure (w : Work) (a n : Nat) : Nat :=
  let g := mergeUnit a
  let units := (List.range ((a + n - 1) / g - a / g + 1)).map fun i => (a / g + i) * g
  match units.find? fun u => (decide (u < a) || decide (a + n < u + g)) && (Mem.touched w.mem.bad u g).isSome with
  | some u => Nat.max a u
  | none => a

/-- Write the part of `bs` that lies in each 4 KiB unit whose target takes it (R163): a unit that is out of reach is not written, the others are. -/
def storeReachable (w : Work) (who : Option Nat) (reader a : Nat) (bs : List Byte) : Work :=
  (List.range ((a + bs.length - 1) / 4096 - a / 4096 + 1)).foldl (fun (w : Work) i =>
    let u := (a / 4096 + i) * 4096
    let lo := Nat.max a u
    if w.dev.reachAt who lo = .ok then (w.storeUnits who reader lo ((bs.drop (lo - a)).take (u + 4096 - lo))).1 else w) w

/-- How many of `n` bytes at `a` the units take: not those of a unit whose merge fails (R84, R113, R163). -/
def unitsTaken (w : Work) (a n : Nat) : Nat :=
  let g := mergeUnit a
  (((List.range ((a + n - 1) / g - a / g + 1)).map fun i => (a / g + i) * g).map fun u =>
    if (decide (u < a) || decide (a + n < u + g)) && (Mem.touched w.mem.bad u g).isSome then 0 else Nat.min (a + n) (u + g) - Nat.max a u).sum

/-- How many of `n` bytes at `a` a write by core `via`, or by a unit of the base die, places (R113, R163). -/
def bytesPlaced (w : Work) (via : Option Nat) (who : Option Nat) (a n : Nat) : Nat :=
  let h := Region.target a
  match w.dev.reachFrom via who a n with
  | (.ok, _) => w.unitsTaken h n
  | (s, _) =>
    if Dev.refused s || w.dev.bondCut via a n then 0
    else ((List.range ((h + n - 1) / 4096 - h / 4096 + 1)).map fun i =>
      let lo := Nat.max h ((h / 4096 + i) * 4096)
      if w.dev.reachAt who lo = .ok then w.unitsTaken lo (Nat.min (h + n) ((h / 4096 + i) * 4096 + 4096) - lo) else 0).sum

/-- Write bytes at `a`, for core `via` or for a unit of the base die: the status, and the address that failed. Through a view they go to the places that it shows
(R164); a write of which some targets are out of reach is performed at the others (R163). -/
def storeFrom (w : Work) (via : Option Nat) (who : Option Nat) (reader a : Nat) (bs : List Byte) : Work × Status × Nat :=
  let h := Region.target a
  let l := (List.range bs.length).map fun i => (bs[Region.seen a i - h]?).getD 0
  match w.dev.reachFrom via who a bs.length with
  | (.ok, _) =>
    let x := a + (w.mergeFailure h l.length - h)
    let (w, s) := w.storeUnits who reader h l
    (w, s, if s = .ok then 0 else x)
  | (s, x) => (if Dev.refused s || w.dev.bondCut via a bs.length then w else w.storeReachable who reader h l, s, x)

/-- A write by a unit of the base die. -/
def store (w : Work) : Option Nat → Nat → Nat → List Byte → Work × Status × Nat := w.storeFrom none

/-- A write by core `c`. Log entry notes/assumptions/33.md (DEDUCED). -/
def coreStore (w : Work) (c : Nat) (who : Option Nat) : Nat → List Byte → Work × Status × Nat := w.storeFrom (some c) who c

end Work

/-! ### Running a command -/

/-- Domain `k` of the release order of R379 has been released; 0 stands for what runs through every reset (the reset sources, the sequencer, the test
access port). Log entry notes/assumptions/15.md (DEDUCED). -/
def Dev.released (d : Dev) (k : Nat) : Bool := k = 0 || (d.get F.RST_STAT_DOMAINS).testBit (k - 1)

/-- The domain of the die that carries core `c` (R379). Log entry notes/assumptions/15.md (DEDUCED). -/
def coreDom (c : Nat) : Nat := 5 + c / 512

/-- Run an effect of domain `k` that may change memory: memory changes by the listed writes, the queue of waiting commands is untouched. A domain that has not
been released performs nothing (R379), and nothing happens while a margin run holds one of its reads back (R176). Log entry notes/assumptions/15.md (DEDUCED). -/
def runWork (k : Nat) (f : Work → Work) (s : State) : Host.Outcome State Fault Refusal :=
  if s.dev.released k then
    let w := f ⟨s.mem, [], s.dev, false⟩
    if w.held then .next s else .next { s with mem := s.mem.applyAll w.log.reverse, dev := w.dev }
  else .next s

/-- Run an effect of domain `k` that leaves memory alone. Log entry notes/assumptions/2.md (DESIGN CHOICE) and notes/assumptions/15.md (DEDUCED). -/
def runDev (k : Nat) (f : Dev → Dev) (s : State) : Host.Outcome State Fault Refusal :=
  if s.dev.released k then .next { s with dev := f s.dev } else .next s

/-- The requester is the host of a partition that is CLEARING. -/
def Dev.revoked (d : Dev) (r : Requester) : Bool :=
  match r with
  | .part p => d.get F.ZQL_PCTL_STATE p = 3
  | _ => false

/-- A request: one of the host of a partition that is CLEARING completes with KEY_REVOKED (step 1 of R365, R366). Log entry notes/assumptions/63.md (DEDUCED). -/
def Dev.ask (r : Requester) (f : Dev → Dev) (d : Dev) : Dev := if d.revoked r then d.answer .keyRevoked else f d

/-- A request that may change memory (step 1 of R365, R366). Log entry notes/assumptions/63.md (DEDUCED). -/
def Work.ask (r : Requester) (f : Work → Work) (w : Work) : Work := if w.dev.revoked r then w.on (·.answer .keyRevoked) else f w

/-- A nanosecond of the twist timebase passes, once base control has been released (R183, R379). Log entry notes/assumptions/1.md (DESIGN CHOICE) and notes/assumptions/8.md (DESIGN CHOICE). -/
def idle (s : State) : Host.Outcome State Fault Refusal :=
  runDev 1 (fun d => { d with now := d.now + 1 }) s

end Sys2Proof.Machine
end

