-- ==== Sys2Proof/Machine/Wire.lean ====
section
/-!
DEFINITION. What stands on a lane of the fabric: the blocks with their scrambler and check bits (R222), the control units (R186, R188, R223, R235) and the bytes of a packet
with its cipher and its checks (R224 to R226).
-/

namespace Sys2Proof.Machine

/-! ### Blocks -/

/-- The check codes h(0) to h(127): the 8-bit values with at least two bits set, in ascending order (R222). -/
def checkCodes : List Nat :=
  ((List.range 256).filter fun v => decide (2 ≤ ((List.range 8).filter fun j => v.testBit j).length)).take 128

/-- The check bits of 128 scrambled payload bits (R222). -/
def checkBits (v : Nat) : Nat := (checkCodes.zipIdx.filter fun x => v.testBit x.2).foldl (fun c x => Nat.xor c x.1) 0

/-- Scramble n bits behind the 58 scrambled bits that went before them, oldest first, and answer both (R222). -/
def scrambleBits (n before v : Nat) : Nat :=
  (List.range n).foldl (fun s i =>
    if ((v.testBit i != s.testBit (i + 19)) != s.testBit i) then s + 2 ^ (58 + i) else s) before

/-- The 58 bits that stand before the next block. -/
def lastBits (s : Nat) : Nat := bits s 128 58

/-- A block of 128 payload bits as it is sent, with its check bits last, and the 58 bits before the next one (R222). -/
def encodeBlock (before v : Nat) : Nat × Nat :=
  let s := scrambleBits 128 before v
  (bits s 58 128 + checkBits (bits s 58 128) * 2 ^ 128, lastBits s)

/-- Blocks as they are sent one behind the other. -/
def encodeBlocks (before : Nat) : List Nat → List Nat × Nat
  | [] => ([], before)
  | v :: t =>
    let (b, s) := encodeBlock before v
    let (l, s) := encodeBlocks s t
    (b :: l, s)

/-- The scrambler runs on over idle blocks, whose bits are all zero (R222, R223). -/
def scrambleIdle : Nat → Nat → Nat
  | 0, s => s
  | n + 1, s => scrambleIdle n (encodeBlock s 0).2

/-- A block as it is received: its payload bits, still scrambled, and whether its syndrome says that they are good (none wrong: 0), that one bit was mended (1), or that the block
is uncorrectable (2) (R222). -/
def checkBlock (b : Nat) : Nat × Nat :=
  let v := bits b 0 128
  let syn := Nat.xor (bits b 128 8) (checkBits v)
  if syn = 0 then (v, 0)
  else match checkCodes.zipIdx.find? (·.1 = syn) with
    | some (_, i) => (Nat.xor v (2 ^ i), 1)
    | none => (v, if (List.range 8).any fun j => syn = 2 ^ j then 1 else 2)

/-- Descramble 128 payload bits behind the 58 scrambled bits that came before them (R222). -/
def descramble (before v : Nat) : Nat :=
  let s := before + v * 2 ^ 58
  Nat.xor v (Nat.xor (bits s 19 128) (bits s 0 128))

/-- Blocks as they are received: their payloads, and how many were mended and how many are uncorrectable. -/
def decodeBlocks (before : Nat) : List Nat → List Nat × Nat × Nat
  | [] => ([], 0, 0)
  | b :: t =>
    let (v, k) := checkBlock b
    let (l, c, u) := decodeBlocks (lastBits (before + v * 2 ^ 58)) t
    (descramble before v :: l, c + (if k = 1 then 1 else 0), u + (if k = 2 then 1 else 0))

/-- CRC-16/CCITT over the low n bits of a number, bit 0 first, from 0xFFFF, with no final XOR (R186, R223, R235). Log entry notes/assumptions/30.md (DESIGN CHOICE). -/
def crc16Bits (n v : Nat) : Nat :=
  (List.range n).foldl (fun c i => crcUp 16 0x1021 (if v.testBit i then Nat.xor c 0x8000 else c)) 0xFFFF

/-- A control unit with its CRC-16 over the bits below `at_` standing at that bit (R223). -/
def withCrc (at_ v : Nat) : Nat := v + crc16Bits at_ v * 2 ^ at_

end Sys2Proof.Machine

namespace Sys2Proof

open Sys2Proof.Machine

/-! ### What arrives -/

/-- The payloads of the blocks that arrive, with how many of them were mended and how many are uncorrectable (R222). -/
def Arrival.decoded (a : Arrival) : List Nat × Nat × Nat := decodeBlocks a.before.toNat (a.blocks.map (·.toNat))

/-- The blocks that were mended. -/
def Arrival.corrected (a : Arrival) : Nat := a.decoded.2.1

/-- The blocks that are uncorrectable. -/
def Arrival.uncorrectable (a : Arrival) : Nat := a.decoded.2.2

/-- The bytes of the unit. -/
def Arrival.bytes (a : Arrival) : List Byte := a.decoded.1.flatMap (leBytes 16)

/-- The unit as one number. -/
def Arrival.unit (a : Arrival) : Nat := leNat a.bytes

/-- The blocks form a good control unit of a kind whose CRC-16 stands at bit `at_` (R222, R223). -/
def Arrival.control (a : Arrival) (kind at_ : Nat) : Bool :=
  a.uncorrectable = 0 && a.blocks.length = 2 && bits a.unit 0 8 = kind && bits a.unit at_ 16 = crc16Bits at_ a.unit

/-! ### Control units -/

/-- A beacon's bits (R186). -/
def Beacon.unit (b : Beacon) : Nat :=
  withCrc 222 (0xB5 + b.root % 2 ^ 16 * 2 ^ 8 + b.hops % 2 ^ 8 * 2 ^ 24 + b.count % 2 ^ 64 * 2 ^ 32 + b.offset % 2 ^ 16 * 2 ^ 96 + b.period % 2 ^ 14 * 2 ^ 112 +
    b.nextPeriod % 2 ^ 14 * 2 ^ 128 + b.nextAt % 2 ^ 64 * 2 ^ 142 + b.sender % 2 ^ 16 * 2 ^ 206)

/-- The beacon that bits hold (R186). -/
def Beacon.ofUnit (v : Nat) : Beacon :=
  { root := bits v 8 16, hops := bits v 24 8, count := bits v 32 64, offset := bits v 96 16, period := bits v 112 14, nextPeriod := bits v 128 14
    nextAt := bits v 142 64, sender := bits v 206 16 }

/-- The beacon that arrives (R187). -/
def Arrival.beacon (a : Arrival) : Beacon := Beacon.ofUnit a.unit

/-- An acknowledgement's fields (R235). -/
structure AckUnit where
  dst : Nat
  src : Nat
  sflow : Nat
  cum : Nat
  map : Nat
  status : Nat
  nak : Bool
  gap : Bool
  deriving DecidableEq, Repr

/-- An acknowledgement's bits (R235). -/
def AckUnit.unit (x : AckUnit) : Nat :=
  withCrc 142 (0xAC + x.dst % 2 ^ 16 * 2 ^ 8 + x.src % 2 ^ 16 * 2 ^ 24 + x.sflow % 2 ^ 12 * 2 ^ 40 + x.cum % 2 ^ 16 * 2 ^ 52 + x.map % 2 ^ 64 * 2 ^ 68 +
    x.status % 2 ^ 8 * 2 ^ 132 + (if x.nak then 2 ^ 140 else 0) + (if x.gap then 2 ^ 141 else 0))

/-- The acknowledgement that bits hold (R235). -/
def AckUnit.ofUnit (v : Nat) : AckUnit :=
  { dst := bits v 8 16, src := bits v 24 16, sflow := bits v 40 12, cum := bits v 52 16, map := bits v 68 64, status := bits v 132 8, nak := v.testBit 140
    gap := v.testBit 141 }

/-- The acknowledgement that arrives. -/
def Arrival.ack (a : Arrival) : AckUnit := AckUnit.ofUnit a.unit

/-- A calibration request or answer: its fields, t2 and t3 zero in a request (R188, R223). -/
structure CalUnit where
  sender : Nat
  target : Nat
  t2 : Nat := 0
  t3 : Nat := 0
  deriving DecidableEq, Repr

/-- The bits of a calibration unit of a kind (R223). -/
def CalUnit.unit (kind : Nat) (x : CalUnit) : Nat :=
  withCrc 168 (kind + x.sender % 2 ^ 16 * 2 ^ 8 + x.target % 2 ^ 16 * 2 ^ 24 + x.t2 % 2 ^ 64 * 2 ^ 40 + x.t3 % 2 ^ 64 * 2 ^ 104)

/-- The calibration unit that arrives (R223). -/
def Arrival.cal (a : Arrival) : CalUnit := { sender := bits a.unit 8 16, target := bits a.unit 24 16, t2 := bits a.unit 40 64, t3 := bits a.unit 104 64 }

/-- A prime's fields (R223). -/
structure PrimeUnit where
  src : Nat
  dst : Nat
  sflow : Nat
  rflow : Nat
  slice : Nat
  answer : Bool
  deriving DecidableEq, Repr

/-- A prime's bits (R223). -/
def PrimeUnit.unit (x : PrimeUnit) : Nat :=
  withCrc 81 (0xD1 + x.src % 2 ^ 16 * 2 ^ 8 + x.dst % 2 ^ 16 * 2 ^ 24 + x.sflow % 2 ^ 12 * 2 ^ 40 + x.rflow % 2 ^ 12 * 2 ^ 52 + x.slice % 2 ^ 16 * 2 ^ 64 +
    (if x.answer then 2 ^ 80 else 0))

/-- The prime that arrives (R223). -/
def Arrival.prime (a : Arrival) : PrimeUnit :=
  { src := bits a.unit 8 16, dst := bits a.unit 24 16, sflow := bits a.unit 40 12, rflow := bits a.unit 52 12, slice := bits a.unit 64 16
    answer := a.unit.testBit 80 }

/-! ### Packets -/

/-- The header of a packet (R225). -/
def Packet.header (x : Packet) : List Byte :=
  let f (b : Bool) (i : Nat) : Nat := if b then 2 ^ i else 0
  leBytes 8 (0x5A + x.ch % 8 * 2 ^ 8 + x.lenm1 % 32 * 2 ^ 11 + x.dst % 2 ^ 16 * 2 ^ 16 + x.src % 2 ^ 16 * 2 ^ 32 + x.slice % 2 ^ 16 * 2 ^ 48) ++
  leBytes 8 (x.rflow % 2 ^ 12 + x.sflow % 2 ^ 12 * 2 ^ 12 + x.seq % 2 ^ 16 * 2 ^ 24 + x.epoch % 2 ^ 16 * 2 ^ 40 + f x.last 56 + f x.ovf 57 + f x.retx 58 + f x.via 59 +
    f x.ply 60 + f x.tag 61 + x.mcid % 4 * 2 ^ 62) ++
  leBytes 8 (x.off % 2 ^ 32 + x.sync % 2 ^ 16 * 2 ^ 32) ++ leBytes 8 x.pctr

/-- The packet that the bytes of a unit hold, its payload as it was sent (R224, R225). -/
def Packet.ofBytes (l : List Byte) (sig : Bool) : Packet :=
  let w (i lo n : Nat) : Nat := bits (leNat ((l.drop (8 * i)).take 8)) lo n
  { ch := w 0 8 3, lenm1 := w 0 11 5, dst := w 0 16 16, src := w 0 32 16, slice := w 0 48 16, rflow := w 1 0 12, sflow := w 1 12 12, seq := w 1 24 16
    epoch := w 1 40 16, last := w 1 56 1 = 1, ovf := w 1 57 1 = 1, retx := w 1 58 1 = 1, via := w 1 59 1 = 1, ply := w 1 60 1 = 1, tag := w 1 61 1 = 1
    mcid := w 1 62 2, off := w 2 0 32, sync := w 2 32 16, pctr := w 3 0 64, sig, payload := (l.drop 32).take (256 * (w 0 11 5 + 1)), wire := l }

/-- A packet travels under the pod management key: SLICE 0, and channels 4 and 7 (R225, R226). -/
def Packet.managed (x : Packet) : Bool := x.slice = 0 || x.ch = 4 || x.ch = 7

/-- The nonce of a packet: SRC, two zero bytes, PCTR (R226). -/
def Packet.nonce (x : Packet) : List Nat := (leBytes 2 x.src ++ leBytes 2 0 ++ leBytes 8 x.pctr).map (·.toNat)

/-- The payload encrypted, or decrypted, under a slice key (R226). -/
def Packet.crypt (x : Packet) (key : List Byte) : List Byte :=
  (gcmCrypt (aesKeys (key.map (·.toNat))) x.nonce (x.payload.map (·.toNat))).map (BitVec.ofNat 8)

/-- The GCM tag of a payload as it is sent: the header is authenticated with it (R226). -/
def Packet.gcm (x : Packet) (key header sent : List Byte) : List Byte :=
  (gcmTag (aesKeys (key.map (·.toNat))) x.nonce (header.map (·.toNat)) (sent.map (·.toNat))).map (BitVec.ofNat 8)

/-- The bytes of a packet as it leaves: header, encrypted payload, and the trailer with the GCM tag, the CRC-32 and zeros (R224, R226). -/
def Packet.sealed (x : Packet) (key : List Byte) : List Byte :=
  let sent := x.crypt key
  let body := x.header ++ sent ++ x.gcm key x.header sent
  body ++ leBytes 4 (crc32 body) ++ leBytes 12 0

/-- The GCM tag of a received packet verifies (R226, R227 check 4). -/
def Packet.authentic (x : Packet) (key : List Byte) : Bool :=
  (x.wire.drop (32 + x.payload.length)).take 16 = x.gcm key (x.wire.take 32) x.payload

/-- A received packet with its payload in the clear. -/
def Packet.opened (x : Packet) (key : List Byte) : Packet := { x with payload := x.crypt key }

/-- The packet that arrives, its payload as it was sent. -/
def Arrival.packet (a : Arrival) (sig : Bool) : Packet := Packet.ofBytes a.bytes sig

/-- Check 1 of R227: every block decodes, the CRC-32 holds over header, payload and tag, and KIND and LENM1 fit the unit. -/
def Arrival.packetOk (a : Arrival) : Bool :=
  let n := 48 + 256 * ((a.packet false).lenm1 + 1)
  a.uncorrectable = 0 && bits a.unit 0 8 = 0x5A && a.bytes.length = n + 16 && leNat ((a.bytes.drop n).take 4) = crc32 (a.bytes.take n)

end Sys2Proof
end

