-- ==== Sys2Proof/Machine/ZqlOps.lean ====
section
/-!
DEFINITION. What every user of a control port shares: sending frames under sequence numbers and credit (R347, R349), holding NOTIFY and
EVENT frames while the link is not UP (R206, R353).
-/

namespace Sys2Proof.Machine

namespace Dev

/-- The hidden state of control port `p`. -/
def zport (d : Dev) (p : Nat) : ZqlPort := d.zql.ports.get {} p

/-- Put the hidden state of control port `p`. -/
def setZport (d : Dev) (p : Nat) (x : ZqlPort) : Dev := { d with zql := { d.zql with ports := d.zql.ports.set p x } }

/-- The port is UP (R346). -/
def portUp (d : Dev) (p : Nat) : Bool := d.get F.ZQL_PORT_STAT_STATE p = 2

/-- A further frame may leave the port: it is UP and the peer's credit admits it (R347). -/
def canSend (d : Dev) (p : Nat) : Bool := d.portUp p && decide ((d.zport p).unacked.length < (d.zport p).room)

/-- The bytes of a frame as it leaves port `p`: the header with KIND, TYPE, NAK, LSEQ, LACK (the last frame accepted), LEN and CRED (a buffer of 128 frames, R347), the
payload padded to whole blocks, and the trailer (R349). Log entry notes/assumptions/64.md (DEDUCED). -/
def frameBody (d : Dev) (p seq : Nat) (f : Frame) (nak : Bool := false) : List Nat :=
  let len := ceilDiv f.data.length 16
  let w0 := 0x5B + f.type * 2 ^ 8 + (if nak then 2 ^ 13 else 0) + seq * 2 ^ 16 + ((d.zport p).rxNext + 4095) % 4096 * 2 ^ 28 + len * 2 ^ 40 + 128 * 2 ^ 49
  let w1 := f.tag + f.status * 2 ^ 16 + f.op * 2 ^ 24
  let w2 := f.id * 2 ^ 48
  let w3 := f.val + f.aux * 2 ^ 32
  let body := [w0, w1, w2, w3].flatMap (leBytes 8) ++ takePad (16 * len) 0 f.data
  (body ++ leBytes 16 (crc32 body)).map (·.toNat)

/-- The next block of port `p`'s stream leaves: stream block b travels on lane b mod 4, scrambled behind what that lane sent before, with its check bits (R222, R345).
Log entry notes/assumptions/64.md (DESIGN CHOICE). -/
def sendBlock (d : Dev) (p v : Nat) : Dev :=
  let b := d.zql.blocks.get 0 p
  let lane := 4 * p + b % 4
  let (x, s) := encodeBlock (d.zql.scram.get 0 lane) v
  { d with zql := { d.zql with blocks := d.zql.blocks.set p (b + 1), scram := d.zql.scram.set lane s, wire := d.zql.wire ++ [(p, b % 4, x)] } }

/-- The 128-bit words of a frame's bytes, the first byte lowest (R349). -/
def frameWords (body : List Nat) : List Nat :=
  (List.range (body.length / 16)).map fun i => leNat (((body.drop (16 * i)).take 16).map (BitVec.ofNat 8))

/-- A frame leaves port `p`, block by block on its four lanes (R345, R349). The frames of a port follow one another on its stream: no command says how many idle blocks
pass between them. Log entry notes/assumptions/64.md (DESIGN CHOICE). -/
def emitFrame (d : Dev) (p seq : Nat) (f : Frame) (nak : Bool := false) : Dev :=
  let body := d.frameBody p seq f nak
  ((frameWords body).foldl (fun (d : Dev) v => d.sendBlock p v) d).send .frame p body

/-- Send a frame now under the next LSEQ; it is kept until it is acknowledged (R347). -/
def sendFrame (d : Dev) (p : Nat) (f : Frame) : Dev :=
  let x := d.zport p
  (d.setZport p { x with txNext := (x.txNext + 1) % 4096, unacked := x.unacked ++ [(x.txNext, f)] }).emitFrame p x.txNext f

/-- Send a response, or keep it until the link and the credit admit it (R348). -/
def portFrame (d : Dev) (p : Nat) (f : Frame) : Dev :=
  if d.canSend p && (d.zport p).queue.isEmpty then d.sendFrame p f
  else d.setZport p { d.zport p with queue := (d.zport p).queue ++ [f] }

/-- Send waiting responses in order while the credit lasts. -/
def flushFrames : List Frame → Nat → Dev → Dev
  | [], p, d => d.setZport p { d.zport p with queue := [] }
  | f :: t, p, d => if d.canSend p then flushFrames t p (d.sendFrame p f) else d.setZport p { d.zport p with queue := f :: t }

/-- The port sends what waits (R347, R348). -/
def flushPort (d : Dev) (p : Nat) : Dev := flushFrames (d.zport p).queue p d

/-- The bytes of a frame on the link (R349). -/
def frameBytes (f : Frame) : Nat := 48 + ceilDiv f.data.length 16 * 16

/-- Hold a NOTIFY or EVENT frame. A port holds 64 KiB of them: when the buffer is full, the oldest EVENT is discarded and counted (R353);
with no EVENT to discard, the new frame is. Log entry notes/assumptions/64.md (DEDUCED). -/
def holdFrame (d : Dev) (p : Nat) (f : Frame) : Dev :=
  let l := (d.zport p).held
  if (l.map frameBytes).sum + frameBytes f ≤ 65536 then d.setZport p { d.zport p with held := l ++ [f] }
  else match l.find? (·.type = 9) with
    | some e => (d.setZport p { d.zport p with held := l.erase e ++ [f] }).count .ZQL_EVDROP p
    | none => if f.type = 9 then d.count .ZQL_EVDROP p else d

/-- Send a NOTIFY or EVENT frame in the order in which they are raised (R353). -/
def portMessage (d : Dev) (p : Nat) (f : Frame) : Dev :=
  if d.canSend p && (d.zport p).held.isEmpty then d.sendFrame p f else d.holdFrame p f

/-- NOTIFY of an object in port `p`'s host range: messages for the same id that have not left are merged (R206). Log entry notes/assumptions/62.md (DEDUCED). -/
def notify (d : Dev) (p id value lastPart : Nat) : Dev :=
  let x := d.zport p
  if x.held.any fun f => f.type = 8 && f.id = id then
    d.setZport p { x with held := x.held.map fun f =>
      if f.type = 8 && f.id = id then { f with val := value, aux := lastPart + Nat.min 65535 (f.aux / 65536 + 1) * 65536 } else f }
  else d.portMessage p { type := 8, id, val := value, aux := lastPart + 65536 }

/-- DONE (R350). -/
def sendDone (d : Dev) (p tag : Nat) (s : Status) (v : Nat := 0) : Dev := d.portFrame p { type := 4, tag, status := s.code, val := v }

end Dev

end Sys2Proof.Machine
end

