-- ==== Sys2Proof/Machine/Link.lean ====
section
/-!
DEFINITION. The control port links: training and TRAIN frames (R346, R348), sequence numbers, acknowledgements, NAKs and replay (R347), and block
alignment of every lane (R222).
-/

namespace Sys2Proof

namespace HostFrame

/-! The fields of a frame header (R349). -/

def kind (f : HostFrame) : Nat := bits f.w0.toNat 0 8
def type (f : HostFrame) : Nat := bits f.w0.toNat 8 4
def role (f : HostFrame) : Nat := bits f.w0.toNat 12 1
def nak (f : HostFrame) : Bool := f.w0.toNat.testBit 13
def lseq (f : HostFrame) : Nat := bits f.w0.toNat 16 12
def lack (f : HostFrame) : Nat := bits f.w0.toNat 28 12
def len (f : HostFrame) : Nat := bits f.w0.toNat 40 9
def cred (f : HostFrame) : Nat := bits f.w0.toNat 49 8
def tag (f : HostFrame) : Nat := bits f.w1.toNat 0 16
def status (f : HostFrame) : Nat := bits f.w1.toNat 16 8
def op (f : HostFrame) : Nat := bits f.w1.toNat 24 8
def q (f : HostFrame) : Nat := bits f.w1.toNat 32 4
def fn (f : HostFrame) : Nat := bits f.w1.toNat 36 4
def addr (f : HostFrame) : Nat := bits f.w2.toNat 0 48
def id (f : HostFrame) : Nat := bits f.w2.toNat 48 16
def val (f : HostFrame) : Nat := bits f.w3.toNat 0 32
def aux (f : HostFrame) : Nat := bits f.w3.toNat 32 32

/-- The bits of the header and the bytes of the trailer that R349 reserves are zero. Log entry notes/assumptions/65.md (DEDUCED). -/
def reservedOk (f : HostFrame) : Bool := bits f.w0.toNat 14 2 = 0 && bits f.w0.toNat 57 7 = 0 && bits f.w1.toNat 40 24 = 0 && bits f.trailer.toNat 32 96 = 0

/-- Bytes 0 to 3 of the trailer hold the CRC-32 of the header and the payload (R349). -/
def crcOk (f : HostFrame) : Bool :=
  bits f.trailer.toNat 0 32 = Machine.crc32 ([f.w0, f.w1, f.w2, f.w3].flatMap (fun w => leBytes 8 w.toNat) ++ f.payload)

end HostFrame

namespace Machine

namespace Dev

/-! ### Sequence numbers -/

/-- The link fails: the port leaves UP and must train again; what it has sent and not seen acknowledged stays for the replay (R347, R348). Log entry notes/assumptions/64.md (DEDUCED). -/
def linkFail (d : Dev) (p : Nat) : Dev :=
  if !d.portUp p then d
  else
    let d := (d.put F.ZQL_PORT_STAT_STATE p 0).setZport p { d.zport p with prbs := false, trained := 0, lastNak := none, nakRun := 0, naks := 0 }
    (d.count .ZQL_RETRAIN p).raise .controlPortRetrained 7 0x800 p

/-- Discard a frame and send a NAK that names the next LSEQ expected; the third of the same frame fails the link (R347). -/
def discardFrame (d : Dev) (p : Nat) : Dev :=
  let x := d.zport p
  let d := (d.setZport p { x with naks := x.naks + 1 }).count .ZQL_NAK p
  let d := d.emitFrame p 0 { type := 0 } true
  if x.naks + 1 = 3 then d.linkFail p else d

/-- Drop the frames that LACK acknowledges. -/
def ackFrames (l : List (Nat × Frame)) (lack : Nat) : List (Nat × Frame) :=
  if l.any (·.1 = lack) then (l.dropWhile (·.1 ≠ lack)).drop 1 else l

/-- Send again every frame that is not acknowledged (R347, R348). -/
def replayFrames (d : Dev) (p : Nat) : Dev :=
  (d.zport p).unacked.foldl (fun (d : Dev) (x : Nat × Frame) => d.emitFrame p x.1 x.2) d

/-- What the header of every frame says to the link: LACK, CRED and NAK (R347). Log entry notes/assumptions/64.md (DEDUCED). -/
def linkHeader (d : Dev) (p : Nat) (f : HostFrame) : Dev :=
  let x := d.zport p
  let d := d.setZport p { x with unacked := ackFrames x.unacked f.lack, room := f.cred }
  if f.nak then
    let named := (f.lack + 1) % 4096
    let run := if x.lastNak = some named then x.nakRun + 1 else 1
    let d := d.setZport p { d.zport p with lastNak := some named, nakRun := run }
    if run = 3 then d.linkFail p else (d.replayFrames p).flushPort p
  else d.flushPort p

/-- A frame arrives at an UP port: it is accepted in LSEQ order, and the flag says whether it is to be performed (R347, R348). Log entry notes/assumptions/64.md (DEDUCED). -/
def acceptFrame (d : Dev) (p : Nat) (f : HostFrame) : Dev × Bool :=
  if !d.portUp p then (d, false)
  else if !f.crcOk then (d.discardFrame p, false)
  else
    let d := d.linkHeader p f
    if !d.portUp p || f.type = 0 then (d, false)
    else if f.lseq ≠ (d.zport p).rxNext then (d.discardFrame p, false)
    else (d.setZport p { d.zport p with rxNext := (f.lseq + 1) % 4096, naks := 0 }, true)

/-! ### Training -/

/-- Send a TRAIN frame: revision, port, ADMIN, fabric id and NEXT in its payload block (R346). -/
def sendTrain (d : Dev) (p : Nat) : Dev :=
  let v := 0x0100 + p * 2 ^ 16 + d.get F.ZQL_PORT_STAT_ADMIN p * 2 ^ 18 + d.get F.FAB_ID_ID * 2 ^ 32 + (d.zport p).rxNext * 2 ^ 48
  d.emitFrame p 0 { type := 0, data := leBytes 16 v }

/-- The port is UP after three TRAIN frames in a row in both directions: frames that the peer has accepted are dropped, later ones replayed (R346,
R348). -/
def linkUp (d : Dev) (p next : Nat) (f : HostFrame) : Dev :=
  let x := d.zport p
  let d := d.put F.ZQL_PORT_STAT_STATE p 2
  let d := d.setZport p { x with trained := 0, prbs := false, room := f.cred, unacked := ackFrames x.unacked ((next + 4095) % 4096) }
  (d.replayFrames p).flushPort p

end Dev

/-- ZQL_TRAINING_START (R346, R395): the lanes of a port that is down send PRBS-31 and lose their block alignment. A port that a low optical rail has stopped
waits for the rail. Log entry notes/assumptions/43.md (DEDUCED). -/
def execZqlTrainingStart (p : Fin 4) (s : State) : Host.Outcome State Fault Refusal :=
  runDev 8 (fun d =>
    if d.get F.ZQL_PORT_STAT_STATE p ≠ 0 || d.light.railLow then d
    else
      (d.putAll p [(F.ZQL_PORT_STAT_STATE, 1), (F.ZQL_PORT_STAT_ALIGNED, 0)]).setZport p { d.zport p with prbs := false, trained := 0 }) s

/-- CONTROL_PORT_PRBS_END (R346): the port sends TRAIN frames from now on. -/
def execControlPortPrbsEnd (p : Fin 4) (s : State) : Host.Outcome State Fault Refusal :=
  runDev 8 (fun d =>
    if d.get F.ZQL_PORT_STAT_STATE p = 1 && !(d.zport p).prbs then (d.setZport p { d.zport p with prbs := true }).sendTrain p else d) s

/-- TRAIN_FRAME (R346, R348): a TRAIN frame reaches a port in training whose four lanes hold alignment. One that fails its CRC or has another revision
major breaks the row of three. -/
def execTrainFrame (p : Fin 4) (f : HostFrame) (s : State) : Host.Outcome State Fault Refusal :=
  runDev 8 (fun d =>
    let x := d.zport p
    let t := leNat (f.payload.take 8)
    if d.get F.ZQL_PORT_STAT_STATE p ≠ 1 || !x.prbs || d.get F.ZQL_PORT_STAT_ALIGNED p ≠ 15 then d
    else if !f.crcOk || bits t 8 8 ≠ 1 then d.setZport p { x with trained := 0 }
    else if x.trained + 1 = 3 then d.linkUp p (bits t 48 12) f
    else (d.setZport p { x with trained := x.trained + 1 }).sendTrain p) s

/-- ZQL_NAK (R347): a LINK frame with its acknowledgement, credit and NAK. -/
def execZqlNak (p : Fin 4) (f : HostFrame) (s : State) : Host.Outcome State Fault Refusal :=
  runDev 8 (fun d => (d.acceptFrame p f).1) s

/-! ### Block alignment -/

/-- The domain that a lane's receiver lies in (R379). -/
def laneDomain : LaneAt → Nat
  | .light _ _ => 4
  | .port _ _ => 8

/-- BLOCK_ALIGNMENT_TAKEN (R222, R346): 64 good blocks in a row at one bit offset. -/
def execBlockAlignmentTaken (l : LaneAt) (s : State) : Host.Outcome State Fault Refusal :=
  runDev (laneDomain l) (fun d =>
    match l with
    | .light e k => d.put F.LANE_STAT_ACTIVE (288 * e + 144 + k) 1
    | .port p k =>
      if d.get F.ZQL_PORT_STAT_STATE p = 0 then d
      else d.put F.ZQL_PORT_STAT_ALIGNED p (putBits (d.get F.ZQL_PORT_STAT_ALIGNED p) k 1 1)) s

/-- BLOCK_ALIGNMENT_LOSS (R222, R276, R347): 32 uncorrectable blocks within 64. A control port that is UP retrains; a receive lane shows it. -/
def execBlockAlignmentLoss (l : LaneAt) (s : State) : Host.Outcome State Fault Refusal :=
  runDev (laneDomain l) (fun d =>
    match l with
    | .light e k => d.put F.LANE_STAT_ACTIVE (288 * e + 144 + k) 0
    | .port p k =>
      if !(d.get F.ZQL_PORT_STAT_ALIGNED p).testBit k then d
      else (d.put F.ZQL_PORT_STAT_ALIGNED p (putBits (d.get F.ZQL_PORT_STAT_ALIGNED p) k 1 0)).linkFail p) s

end Machine

end Sys2Proof
end

