-- ==== Sys2Proof/Machine/Float.lean ====
section
/-!
DEFINITION. Numbers: the part's floating-point formats (R61, R88), exact values, the one rounding into a format
(R62 to R67, R95), exact sums (R68, R102), comparisons (R97) and the correctly rounded functions of R98.
-/

namespace Sys2Proof.Machine

/-- The floating-point formats of R61, and the FP64 of R306. -/
inductive FFmt where
  | fp32 | bf16 | fp16 | e4m3 | e5m2 | e2m1 | fp64
  deriving DecidableEq, Repr

namespace FFmt

/-- Bits of the mantissa field. -/
def mant : FFmt → Nat
  | fp32 => 23 | bf16 => 7 | fp16 => 10 | e4m3 => 3 | e5m2 => 2 | e2m1 => 1 | fp64 => 52

/-- Bits of the exponent field. -/
def expo : FFmt → Nat
  | fp32 => 8 | bf16 => 8 | fp16 => 5 | e4m3 => 4 | e5m2 => 5 | e2m1 => 2 | fp64 => 11

/-- The exponent bias. -/
def bias : FFmt → Nat
  | fp32 => 127 | bf16 => 127 | fp16 => 15 | e4m3 => 7 | e5m2 => 15 | e2m1 => 1 | fp64 => 1023

/-- Bits of one element. -/
def width (f : FFmt) : Nat := 1 + f.expo + f.mant

/-- The exponent of the unit in the last place of a subnormal. -/
def minExp (f : FFmt) : Int := 1 - (f.bias : Int) - (f.mant : Int)

/-- The code of the largest finite magnitude (R61). -/
def maxCode : FFmt → Nat
  | fp32 => 0x7F7FFFFF | bf16 => 0x7F7F | fp16 => 0x7BFF | e4m3 => 0x7E | e5m2 => 0x7B | e2m1 => 0x7
  | fp64 => 0x7FEFFFFFFFFFFFFF

/-- The code of the positive canonical NaN (R62); E2M1 has none (R65) and takes code 0. -/
def nanCode : FFmt → Nat
  | fp32 => 0x7FC00000 | bf16 => 0x7FC0 | fp16 => 0x7E00 | e4m3 => 0x7F | e5m2 => 0x7F | e2m1 => 0
  | fp64 => 0x7FF8000000000000

/-- The code of positive infinity, where the format has one (R61, R63). -/
def infCode : FFmt → Option Nat
  | fp32 => some 0x7F800000 | bf16 => some 0x7F80 | fp16 => some 0x7C00 | e5m2 => some 0x7C
  | e4m3 => none | e2m1 => none | fp64 => some 0x7FF0000000000000

end FFmt

/-- An exact value: NaN, an infinity, or `± m · 2 ^ e`. A zero keeps its sign (R62). -/
inductive FV where
  | nan
  | inf (neg : Bool)
  | fin (neg : Bool) (m : Nat) (e : Int)
  deriving DecidableEq, Repr

namespace FV

/-- Positive zero. -/
def zero : FV := .fin false 0 0

/-- The value of a code of format `f`: subnormals honoured (R62), the special values of R63. -/
def decode (f : FFmt) (v : Nat) : FV :=
  let neg := v.testBit (f.width - 1)
  let mag := v % 2 ^ (f.width - 1)
  let ex := mag / 2 ^ f.mant
  let fr := mag % 2 ^ f.mant
  let beyond : Bool :=
    match f.infCode with
    | some c => c < mag
    | none => f = .e4m3 && mag = 0x7F
  if beyond then .nan
  else if f.infCode = some mag then .inf neg
  else if ex = 0 then .fin neg fr f.minExp
  else .fin neg (2 ^ f.mant + fr) (f.minExp + ex - 1)

/-- The number is NaN. -/
def isNaN : FV → Bool
  | nan => true
  | _ => false

/-- The number is NaN or infinite. -/
def nonFinite : FV → Bool
  | fin .. => false
  | _ => true

/-- Negation. NaN stays NaN. -/
def neg : FV → FV
  | nan => nan
  | inf s => inf (!s)
  | fin s m e => fin (!s) m e

/-- Absolute value. -/
def abs : FV → FV
  | nan => nan
  | inf _ => inf false
  | fin _ m e => fin false m e

/-- The signed significand. -/
def sig (s : Bool) (m : Nat) : Int := if s then -(m : Int) else m

/-- The exact sum. Opposite infinities give NaN (R69); a zero sum is negative only when both terms are. -/
def add : FV → FV → FV
  | nan, _ => nan
  | _, nan => nan
  | inf a, inf b => if a = b then inf a else nan
  | inf a, fin .. => inf a
  | fin .., inf b => inf b
  | fin s m e, fin s' m' e' =>
    let k := min e e'
    let x := sig s m * 2 ^ (e - k).toNat + sig s' m' * 2 ^ (e' - k).toNat
    fin (if x = 0 then s && s' else x < 0) x.natAbs k

/-- The exact difference. -/
def sub (a b : FV) : FV := add a (neg b)

/-- The exact product. Infinity times zero is NaN (R69). -/
def mul : FV → FV → FV
  | nan, _ => nan
  | _, nan => nan
  | inf a, inf b => inf (a != b)
  | inf a, fin s m _ => if m = 0 then nan else inf (a != s)
  | fin s m _, inf b => if m = 0 then nan else inf (s != b)
  | fin s m e, fin s' m' e' => fin (s != s') (m * m') (e + e')

/-- An integer as an exact value. -/
def ofInt (x : Int) : FV := fin (x < 0) x.natAbs 0

/-- Multiplication by a power of two. -/
def scale (k : Int) : FV → FV
  | fin s m e => fin s m (e + k)
  | x => x

/-- Exact comparison of two numbers that are not NaN: is `a` less than `b`? Both zeros are equal (R62). -/
def lt : FV → FV → Bool
  | inf a, inf b => a && !b
  | inf a, fin .. => a
  | fin .., inf b => !b
  | fin s m e, fin s' m' e' =>
    let k := min e e'
    decide (sig s m * 2 ^ (e - k).toNat < sig s' m' * 2 ^ (e' - k).toNat)
  | _, _ => false

/-- Equality of values; NaN equals nothing and both zeros are equal. -/
def eqv (a b : FV) : Bool := !a.isNaN && !b.isNaN && !lt a b && !lt b a

/-- The larger of two values, the first when they are equal; NaN when either is NaN (R97). In R59 and R68 the first is the stored value or the accumulator, so its
zero keeps its sign. Log entry notes/assumptions/51.md (DESIGN CHOICE). -/
def max (a b : FV) : FV := if a.isNaN || b.isNaN then nan else if lt a b then b else a

/-- The smaller of two values, the first when they are equal; NaN when either is NaN (R97), as for the larger. Log entry notes/assumptions/51.md (DESIGN CHOICE). -/
def min (a b : FV) : FV := if a.isNaN || b.isNaN then nan else if lt b a then b else a

/-- The exact sum of a list, from `acc` on. -/
def sum (acc : FV) (l : List FV) : FV := l.foldl add acc

end FV

/-- Bits needed to write `m`. -/
def bitLength (m : Nat) : Nat := if m = 0 then 0 else Nat.log2 m + 1

/-- The code of the magnitude `m · 2 ^ e` rounded once into format `f` (R62, R66); `sticky` says that the exact value lies
strictly between that magnitude and the next significand. With `sr = some r` the stochastic procedure of R67 takes the place of nearest
even. The code may exceed `f.maxCode`: that is the overflow of R63 and R64. -/
def roundMag (f : FFmt) (sr : Option Nat) (m : Nat) (e : Int) (sticky : Bool) : Nat :=
  if m = 0 then 0 else
  let u := max (e + bitLength m - (f.mant + 1)) f.minExp
  let base := (u - f.minExp).toNat * 2 ^ f.mant
  if u ≤ e then base + m * 2 ^ (e - u).toNat
  else
    let d := (u - e).toNat
    if bitLength m + 20 < d then base
    else
      let q := m / 2 ^ d
      let rem := m % 2 ^ d
      match sr with
      | some r => base + q + (if 65536 ≤ rem * 65536 / 2 ^ d + r then 1 else 0)
      | none =>
        let half := 2 ^ (d - 1)
        let up := half < rem || (rem = half && (sticky || q % 2 = 1))
        base + q + (if up then 1 else 0)

/-- What a narrowing gives: the code, and whether it overflowed or is NaN. -/
structure Narrowed where
  code : Nat
  ovf : Bool
  nan : Bool
  deriving DecidableEq, Repr

/-- A code with its sign. -/
def signedCode (f : FFmt) (neg : Bool) (c : Nat) : Nat := if neg then 2 ^ (f.width - 1) + c else c

/-- The infinite or clamped result of R63 and R64 at an overflow or an infinite input. -/
def overflowCode (f : FFmt) (sat neg : Bool) : Nat :=
  if sat then signedCode f neg f.maxCode
  else match f.infCode with
    | some c => signedCode f neg c
    | none => if f = .e2m1 then signedCode f neg f.maxCode else f.nanCode

/-- An inexact magnitude narrowed into a format, with the exact result known to `m · 2 ^ e` and a sticky bit. -/
def narrowMag (f : FFmt) (sat : Bool) (sr : Option Nat) (neg : Bool) (m : Nat) (e : Int) (sticky : Bool) : Narrowed :=
  let c := roundMag f sr m e sticky
  if f.maxCode < c then ⟨overflowCode f sat neg, f ≠ .e2m1, !sat && f = .e4m3⟩
  else ⟨signedCode f neg c, false, false⟩

/-- One rounding of an exact value into format `f` (R62 to R67): canonical NaN, infinities clamped under SAT, signed zeros kept. -/
def narrow (f : FFmt) (sat : Bool) (sr : Option Nat) : FV → Narrowed
  | .nan => ⟨f.nanCode, false, true⟩
  | .inf neg => ⟨overflowCode f sat neg, false, !sat && f = .e4m3⟩
  | .fin neg m e => narrowMag f sat sr neg m e false

/-- Rounding to nearest even into an accumulator format, back to an exact value, with the overflow flag (R66, R69). -/
def roundTo (f : FFmt) (x : FV) : FV × Bool :=
  let n := narrow f false none x
  (FV.decode f n.code, n.ovf)

/-- An exact dyadic rounded to the nearest integer, ties to even. -/
def roundInt (neg : Bool) (m : Nat) (e : Int) : Int :=
  let q :=
    if 0 ≤ e then m * 2 ^ e.toNat
    else
      let d := (-e).toNat
      if bitLength m + 2 < d then 0
      else
        let q := m / 2 ^ d
        let r := m % 2 ^ d
        if 2 ^ (d - 1) < r || (r = 2 ^ (d - 1) && q % 2 = 1) then q + 1 else q
  FV.sig neg q

/-- Saturation into `lo..hi`: the value and whether it was clamped. -/
def clampInt (lo hi x : Int) : Int × Bool := if x < lo then (lo, true) else if hi < x then (hi, true) else (x, false)

/-- One step of the stochastic-rounding generator (R67). -/
def srAdvance (x : Nat) : Nat :=
  let x := Nat.xor x (x * 2 ^ 13 % 2 ^ 64)
  let x := Nat.xor x (x / 2 ^ 7)
  Nat.xor x (x * 2 ^ 17 % 2 ^ 64)

/-- The value `r` that a generator state yields (R67). -/
def srDraw (x : Nat) : Nat := x / 2 ^ 48 % 2 ^ 16

/-- Integer square root by bits, from bit `k - 1` down. -/
def isqrtFrom : Nat → Nat → Nat → Nat
  | 0, _, r => r
  | k + 1, n, r =>
    let t := r + 2 ^ k
    if t * t ≤ n then isqrtFrom k n t else isqrtFrom k n r

/-- The integer square root. -/
def isqrt (n : Nat) : Nat := isqrtFrom (bitLength n / 2 + 1) n 0

/-- A function value before its rounding (R98): special, or a positive or negative magnitude with a sticky bit. -/
inductive FnVal where
  | special (v : FV)
  | mag (neg : Bool) (m : Nat) (e : Int) (sticky : Bool)
  deriving DecidableEq, Repr

/-- Rounding of a function value. -/
def narrowFn (f : FFmt) (sat : Bool) (sr : Option Nat) : FnVal → Narrowed
  | .special v => narrow f sat sr v
  | .mag neg m e st => narrowMag f sat sr neg m e st

/-- `1 ÷ a`, IEEE 754 division for the special values (R98). -/
def fnRcp : FV → FnVal
  | .nan => .special .nan
  | .inf s => .special (.fin s 0 0)
  | .fin s 0 _ => .special (.inf s)
  | .fin s m e =>
    let k := bitLength m + 96
    .mag s (2 ^ k / m) (-e - k) (2 ^ k % m ≠ 0)

/-- `a ÷ b`, IEEE 754 division for the special values (R304). -/
def fnDiv : FV → FV → FnVal
  | .nan, _ | _, .nan => .special .nan
  | .inf _, .inf _ => .special .nan
  | .inf s, .fin t _ _ => .special (.inf (s != t))
  | .fin s _ _, .inf t => .special (.fin (s != t) 0 0)
  | .fin _ 0 _, .fin _ 0 _ => .special .nan
  | .fin s 0 _, .fin t _ _ => .special (.fin (s != t) 0 0)
  | .fin s _ _, .fin t 0 _ => .special (.inf (s != t))
  | .fin s m e, .fin t n f =>
    let k := bitLength n + 160
    .mag (s != t) (m * 2 ^ k / n) (e - f - k) (m * 2 ^ k % n ≠ 0)

/-- `√a` (R98). -/
def fnSqrt : FV → FnVal
  | .nan => .special .nan
  | .inf false => .special (.inf false)
  | .inf true => .special .nan
  | .fin s 0 e => .special (.fin s 0 e)
  | .fin true _ _ => .special .nan
  | .fin false m e =>
    let odd := e % 2 = 1
    let n := (if odd then 2 * m else m) * 2 ^ 192
    let r := isqrt n
    .mag false r (((if odd then e - 1 else e) - 192) / 2) (r * r ≠ n)

/-- `1 ÷ √a` (R98); IEEE rSqrt of a zero is an infinity of its sign. -/
def fnRsq : FV → FnVal
  | .nan => .special .nan
  | .inf false => .special (.fin false 0 0)
  | .inf true => .special .nan
  | .fin s 0 _ => .special (.inf s)
  | .fin true _ _ => .special .nan
  | .fin false m e =>
    let odd := e % 2 = 1
    let n := if odd then 2 * m else m
    let k := 2 * (bitLength n + 96)
    let q := 2 ^ k / n
    let r := isqrt q
    .mag false r (-(if odd then e - 1 else e) / 2 - (k / 2 : Nat)) (r * r * n ≠ 2 ^ k)

/-- `2 ^ f` for the fraction whose first bits are `bits`, as a fixed-point number with `p` fraction bits: the product of the
repeated square roots of two. -/
def exp2Frac (p : Nat) : List Bool → Nat → Nat → Nat
  | [], _, r => r
  | b :: bs, s, r =>
    let s' := isqrt (s * 2 ^ p)
    exp2Frac p bs s' (if b then r * s' / 2 ^ p else r)

/-- `2 ^ a` (R98). Log entry notes/assumptions/54.md (UNVERIFIED). -/
def fnExp2 : FV → FnVal
  | .nan => .special .nan
  | .inf false => .special (.inf false)
  | .inf true => .special (.fin false 0 0)
  | .fin s m e =>
    let x := FV.sig s m
    if 0 ≤ e then .mag false 1 (x * 2 ^ e.toNat) false
    else
      let d := (-e).toNat
      let n := x / 2 ^ d
      let f := (x % 2 ^ d).toNat
      if f = 0 then .mag false 1 n false
      else
        let bs := (List.range d).map fun k => f.testBit (d - 1 - k)
        .mag false (exp2Frac 448 bs (2 ^ 449) (2 ^ 448)) (n - 448) true

/-- The first `n` fraction bits of `log2 y` for a fixed-point `y` in 1 to 2 with `p` fraction bits, by repeated squaring. -/
def log2Frac (p : Nat) : Nat → Nat → Nat → Nat
  | 0, _, r => r
  | n + 1, y, r =>
    let y := y * y / 2 ^ p
    if 2 ^ (p + 1) ≤ y then log2Frac p n (y / 2) (2 * r + 1) else log2Frac p n y (2 * r)

/-- `log2 a` (R98). Log entry notes/assumptions/54.md (UNVERIFIED). -/
def fnLog2 : FV → FnVal
  | .nan => .special .nan
  | .inf false => .special (.inf false)
  | .inf true => .special .nan
  | .fin _ 0 _ => .special (.inf true)
  | .fin true _ _ => .special .nan
  | .fin false m e =>
    let l := bitLength m - 1
    let n : Int := e + l
    if m = 2 ^ l then .special (FV.ofInt n)
    else
      let fr := log2Frac 640 160 (m * 2 ^ (640 - l)) 0
      let x := n * 2 ^ 160 + (fr : Int)
      if 0 ≤ x then .mag false x.toNat (-160) true
      else .mag true (x.natAbs - 1) (-160) true

end Sys2Proof.Machine
end

