-- ==== Sys2Proof/Machine/Operands.lean ====
section
/-!
DEFINITION. Operand forms of the core's instruction word: the four layouts of R126, which bits each instruction uses and which codes are
reserved (R123, R125, R127), the second operand of class S (R128), the object and value of class Y (R140), and rovings (R87).
-/

namespace Sys2Proof.Machine

/-! The fields of an instruction word, by layout (R126). -/

namespace Op

/-- The top byte, which names the instruction (R125). -/
def top (w : Word) : Nat := bits w.toNat 56 8
def rd (w : Word) : Nat := bits w.toNat 51 5
def ra (w : Word) : Nat := bits w.toNat 46 5
def rb (w : Word) : Nat := bits w.toNat 41 5
def useImm (w : Word) : Bool := w.toNat.testBit 40
def fn (w : Word) : Nat := bits w.toNat 36 4
def timeout (w : Word) : Nat := bits w.toNat 32 4
def imm (w : Word) : Nat := bits w.toNat 0 32
/-- IMM sign-extended (R126). -/
def simm (w : Word) : Int := signed 32 (imm w)

def kind (w : Word) : Nat := bits w.toNat 53 3
def actFmt (w : Word) : Nat := bits w.toNat 50 3
def wgtFmt (w : Word) : Nat := bits w.toNat 47 3
def acc16 (w : Word) : Bool := w.toNat.testBit 46
def mopBank (w : Word) : Bool := w.toNat.testBit 45
def accumulate (w : Word) : Bool := w.toNat.testBit 44
def mopRa (w : Word) : Nat := bits w.toNat 39 5
def mopRw (w : Word) : Nat := bits w.toNat 34 5
def mopRst (w : Word) : Nat := bits w.toNat 29 5
def mopRsc (w : Word) : Nat := bits w.toNat 24 5
/-- The reduction length K. -/
def mopK (w : Word) : Nat := bits w.toNat 8 16 + 1

def mode (w : Word) : Nat := bits w.toNat 53 3
def outFmt (w : Word) : Nat := bits w.toNat 49 4
def drnBank (w : Word) : Bool := w.toNat.testBit 48
def drnSat (w : Word) : Bool := w.toNat.testBit 47
def drnSr (w : Word) : Bool := w.toNat.testBit 46
def rdst (w : Word) : Nat := bits w.toNat 41 5
def rdrow (w : Word) : Nat := bits w.toNat 36 5
def rscl (w : Word) : Nat := bits w.toNat 31 5
def idxBase (w : Word) : Nat := bits w.toNat 15 16

def dst (w : Word) : Nat := bits w.toNat 52 4
def srcA (w : Word) : Nat := bits w.toNat 48 4
def srcB (w : Word) : Nat := bits w.toNat 44 4
def srcC (w : Word) : Nat := bits w.toNat 40 4
def sr (w : Word) : Bool := w.toNat.testBit 35
def sat (w : Word) : Bool := w.toNat.testBit 34
def flagP (w : Word) : Bool := w.toNat.testBit 33
def srd (w : Word) : Nat := bits w.toNat 28 5
def srs (w : Word) : Nat := bits w.toNat 23 5
/-- The signed offset of VRLD and VRST in units of 32 bytes. -/
def vimm (w : Word) : Int := signed 23 (bits w.toNat 0 23)

end Op

/-- A run of ones from bit `lo` to bit `hi`. -/
def maskBits (hi lo : Nat) : Nat := (2 ^ (hi - lo + 1) - 1) * 2 ^ lo

/-- Which fields of the register layout an instruction uses: RD, RA, RB, I, FN, TO, IMM[31:16], IMM[15:0]. -/
def regMask (rd ra rb i fn tmo immHi immLo : Bool) : Nat :=
  (if rd then maskBits 55 51 else 0) + (if ra then maskBits 50 46 else 0) + (if rb then maskBits 45 41 else 0) +
  (if i then maskBits 40 40 else 0) + (if fn then maskBits 39 36 else 0) + (if tmo then maskBits 35 32 else 0) +
  (if immHi then maskBits 31 16 else 0) + (if immLo then maskBits 15 0 else 0)

/-- Which fields of the stream layout an instruction uses: DST, SA, SB, SC, FN, SR with SAT, P, SRD, SRS, IMM (R135, R136). -/
def streamMask (dst sa sb sc fn srsat p srd srs imm : Bool) : Nat :=
  (if dst then maskBits 55 52 else 0) + (if sa then maskBits 51 48 else 0) + (if sb then maskBits 47 44 else 0) +
  (if sc then maskBits 43 40 else 0) + (if fn then maskBits 39 36 else 0) + (if srsat then maskBits 35 34 else 0) +
  (if p then maskBits 33 33 else 0) + (if srd then maskBits 32 28 else 0) + (if srs then maskBits 27 23 else 0) +
  (if imm then maskBits 22 0 else 0)

/-- The bits below the top byte that the instruction of a top byte uses in some mode; none for a reserved class or opcode
(R125, R127). TSKEIN's FN is its unit mask (R121): log entry notes/assumptions/50.md (DEDUCED). YBAR and YREAD have no value, so IMM[15:0] and I are unused fields of
theirs (the same entry, DESIGN CHOICE: R125 does not say whether a field used in part counts whole). -/
def usedMask : Nat → Option Nat
  | 0x00 => some 0
  | 0x01 | 0x02 | 0x03 | 0x04 | 0x05 | 0x06 | 0x07 | 0x08 | 0x09 | 0x0A | 0x0B =>
    some (regMask true true true true false false true true)
  | 0x0C | 0x0D => some (regMask true false false false false false true true)
  | 0x0E => some (regMask true true false false true false true true)
  | 0x0F => some (regMask false true true false true false true true)
  | 0x10 => some (regMask false true true false true false true true)
  | 0x11 => some (regMask true false false false false false true true)
  | 0x12 => some (regMask true true false false false false true true)
  | 0x13 => some (regMask false false false false true false true true)
  | 0x14 => some (regMask true false false false true false false false)
  | 0x15 => some (regMask true false false false true false false false)
  | 0x16 => some 0
  | 0x20 => some (maskBits 55 8)
  | 0x21 => some (maskBits 55 15)
  | 0x22 => some (regMask false true false false false false false false)
  | 0x40 | 0x41 | 0x42 | 0x44 | 0x45 => some (streamMask true true true false false true false false false false)
  | 0x43 => some (streamMask true true true true false true false false false false)
  | 0x46 | 0x47 | 0x4D => some (streamMask true true false false false true false false false false)
  | 0x48 => some (streamMask true true true false true false false false false false)
  | 0x49 | 0x4A => some (streamMask true true true false false false false false false false)
  | 0x4B => some (streamMask true true true false true false false false false false)
  | 0x4C => some (streamMask true true true true false false false false false false)
  | 0x4E => some (streamMask true true false false false false false false false false)
  | 0x4F => some (streamMask true true false false true true false false false false)
  | 0x50 => some (streamMask true true false false true true true false false false)
  | 0x51 => some (streamMask true true false false true true false true false false)
  | 0x52 => some (streamMask true true false false true false false true false false)
  | 0x53 => some (streamMask true true true false false false false true false false)
  | 0x54 => some (streamMask true true true false false false true true true false)
  | 0x55 | 0x56 => some (streamMask true true true false false false false false false false)
  | 0x57 => some (streamMask false false false false false false false false true false)
  | 0x58 => some (streamMask true false false false false false false false true true)
  | 0x59 => some (streamMask false true false false false false false false true true)
  | 0x5A => some (streamMask true false false false true false false false true false)
  | 0x5B => some (streamMask false true false false true false false true false false)
  | 0x60 => some (regMask false true false false false false false false)
  | 0x61 => some (regMask false true true false false false true true)
  | 0x62 => some (regMask true false false false false false false false)
  | 0x80 => some (regMask true true true true true false true true)
  | 0x81 => some (regMask true true true true true true true true)
  | 0x82 => some (regMask true true false false true false true false)
  | 0x83 => some (regMask true true false false false false true false)
  | 0xA0 => some (regMask true false false false true false false false)
  | 0xA1 | 0xA2 => some (regMask false true false false false false true true)
  | 0xA3 => some 0
  | 0xA4 => some (regMask true true false false true false false false)
  | 0xA5 => some (regMask false false false false true false false false)
  | _ => none

/-- The largest code that the FN field of an instruction may hold (R127 to R131, R135, R136, R142, R145, R148). -/
def fnMax : Nat → Nat
  | 0x0E => 6 | 0x0F => 3 | 0x10 => 5 | 0x13 => 4 | 0x14 => 3 | 0x15 => 4
  | 0x48 => 3 | 0x4B => 5 | 0x4F => 4 | 0x50 => 3 | 0x51 => 3 | 0x52 => 1 | 0x5A => 7 | 0x5B => 7
  | 0x81 => 1 | 0xA0 => 3 | 0xA5 => 7
  | _ => 15

/-- No field decoded at issue holds a reserved code (R123, R132, R133). -/
def codesOk (w : Word) : Bool :=
  match Op.top w with
  | 0x20 => decide (Op.kind w ≤ 5) && decide (Op.actFmt w ≤ 5) && decide (Op.wgtFmt w ≤ 5)
  | 0x21 => decide (Op.outFmt w ≤ 7)
  | t => decide (Op.fn w ≤ fnMax t) || !decide ((usedMask t).getD 0 / 2 ^ 36 % 16 = 15)

/-- The word decodes to an instruction, uses no reserved code and leaves its unused bits zero (R123, R125). -/
def wordOk (w : Word) : Bool :=
  match usedMask (Op.top w) with
  | some m => decide (Nat.land (w.toNat % 2 ^ 56) m = w.toNat % 2 ^ 56) && codesOk w
  | none => false

/-- Scalar register `i`; s0 reads as zero (R116). -/
def Core.reg (k : Core) (i : Nat) : Word := if i = 0 then 0 else k.sregs.get 0 i

/-- Write scalar register `i`; a write to s0 is discarded (R116). The register is no longer pending (R117). -/
def Core.setReg (k : Core) (i : Nat) (v : Word) : Core :=
  { k with sregs := if i = 0 then k.sregs else k.sregs.set i v, pending := k.pending.filter (· ≠ i) }

/-- Mark a register pending (R117). s0 is never pending. -/
def Core.await (k : Core) (i : Nat) : Core := { k with pending := if i = 0 then k.pending else i :: k.pending }

/-- The second operand of class S: `I ? sext(IMM) : s[RB]` (R128). -/
def Core.opB (k : Core) (w : Word) : Word :=
  if Op.useImm w then BitVec.ofInt 64 (Op.simm w) else k.reg (Op.rb w)

/-- The address of SLD and SST: `s[RA] + sext(IMM)` (R130). -/
def Core.address (k : Core) (w : Word) : Nat := (k.reg (Op.ra w) + BitVec.ofInt 64 (Op.simm w)).toNat

/-- The object a Y instruction names: `s[RA] + IMM[31:16]` (R140). -/
def Core.objectId (k : Core) (w : Word) : Nat := (k.reg (Op.ra w)).toNat + bits (Op.imm w) 16 16

/-- The value of a Y instruction: `I ? IMM[15:0] : s[RB][31:0]` (R140). -/
def Core.yValue (k : Core) (w : Word) : Nat :=
  if Op.useImm w then bits (Op.imm w) 0 16 else bits (k.reg (Op.rb w)).toNat 0 32

/-- A number of plan twists: `s[RA] + IMM` (R145, R146), as a signed number. -/
def Core.twistArg (k : Core) (w : Word) : Int := (k.reg (Op.ra w) + BitVec.ofInt 64 (Op.simm w)).toInt

/-- The scalar registers that an instruction names as sources or as destination (R117). RSC and RSC + 1 are named by an MOP with FP4 formats (R126). -/
def namedRegs (w : Word) : List Nat :=
  let t := Op.top w
  if t = 0x20 then
    [Op.mopRa w, Op.mopRw w, Op.mopRst w] ++ (if Op.actFmt w = 2 ∨ Op.wgtFmt w = 2 then [Op.mopRsc w, Op.mopRsc w + 1] else [Op.mopRsc w])
  else if t = 0x21 then [Op.rdst w, Op.rdrow w, Op.rscl w]
  else if 0x40 ≤ t ∧ t ≤ 0x5B then [Op.srd w, Op.srs w]
  else [Op.rd w, Op.ra w] ++ (if Op.useImm w then [] else [Op.rb w])

/-! ### Rovings -/

/-- A roving as it is decoded from its four words (R87). -/
structure Roving where
  base : Nat
  fmt : Nat
  segsrc : Nat
  upd : Bool
  stride : Int
  count : Nat
  seg : Nat
  scale : Nat
  reserved : Bool
  deriving DecidableEq, Repr

/-- Word `j` of roving `i`. -/
def Core.rovWord (k : Core) (i j : Nat) : Nat := (k.rovings.get 0 (4 * i + j)).toNat

/-- Set word `j` of roving `i`. -/
def Core.setRovWord (k : Core) (i j v : Nat) : Core := { k with rovings := k.rovings.set (4 * i + j) (BitVec.ofNat 64 v) }

/-- Roving `i` (R87). -/
def Core.roving (k : Core) (i : Nat) : Roving :=
  let a := k.rovWord i 0
  let b := k.rovWord i 1
  let c := k.rovWord i 2
  let e := k.rovWord i 3
  { base := bits a 0 48, fmt := bits a 48 4, segsrc := bits a 52 3, upd := a.testBit 55
    stride := signed 32 (bits b 0 32), count := bits b 32 24, seg := bits c 0 48, scale := bits e 0 48
    reserved := bits a 56 8 ≠ 0 || bits b 56 8 ≠ 0 || bits c 48 16 ≠ 0 || bits e 48 16 ≠ 0 }

/-- Write a roving's COUNT (R103, R105). -/
def Core.setCount (k : Core) (i n : Nat) : Core := k.setRovWord i 1 (putBits (k.rovWord i 1) 32 24 n)

/-- Where a VRSET or VRGET field lies: word, low bit, width (R87, R136). -/
def rovField : Nat → Nat × Nat × Nat
  | 0 => (0, 0, 48) | 1 => (0, 48, 4) | 2 => (0, 52, 3) | 3 => (0, 55, 1)
  | 4 => (1, 0, 32) | 5 => (1, 32, 24) | 6 => (2, 0, 48) | _ => (3, 0, 48)

/-- The element formats of a roving (R88). -/
inductive Elem where
  | float (f : FFmt)
  | int (signed : Bool) (w : Nat)
  | bit
  deriving DecidableEq, Repr

/-- The format of an FMT code; none for a reserved code (R88). -/
def Elem.ofCode : Nat → Option Elem
  | 0 => some (.float .fp32) | 1 => some (.float .bf16) | 2 => some (.float .fp16) | 3 => some (.float .e4m3)
  | 4 => some (.float .e5m2) | 5 => some (.float .e2m1)
  | 6 => some (.int true 8) | 7 => some (.int true 16) | 8 => some (.int true 32)
  | 9 => some (.int false 8) | 10 => some (.int false 16) | 11 => some (.int false 32)
  | 12 => some .bit
  | _ => none

/-- Bits of one element (R88). -/
def Elem.width : Elem → Nat
  | .float f => f.width
  | .int _ w => w
  | .bit => 1

end Sys2Proof.Machine
end

