-- ==== Sys2Proof/Machine/Flags.lean ====
section
/-!
DEFINITION. Flags and recorded statuses: the sticky flags of the matrix unit and the stream engine (R69, R77, R93, R95, R448), the
first-status of a unit with its MORE bit (R124), the DMA mover's error record (R115), and comparison conditions of SBR and the waits.
-/

namespace Sys2Proof.Machine

/-- The sticky flags of `MTX_STAT_n` (bits 0 to 3: NAN, OVF, INT_SAT, FAULT) and `STR_STAT_n` (bits 0 to 5: NAN, OVF, INT_SAT, TRUNC, UE,
FMT) as one number. -/
def mkFlags (nan ovf intSat b3 : Bool) (ue : Bool := false) (fmt : Bool := false) : Nat :=
  flag nan + 2 * flag ovf + 4 * flag intSat + 8 * flag b3 + 16 * flag ue + 32 * flag fmt

/-- Set sticky flags of `MTX_STAT_n`. -/
def Dev.mtxFlags (d : Dev) (c fl : Nat) : Dev :=
  d.setWord .MTX_STAT c (BitVec.ofNat 64 (Nat.lor (d.word .MTX_STAT c).toNat (fl % 16)))

/-- Set sticky flags of `STR_STAT_n`. -/
def Dev.strFlags (d : Dev) (c fl : Nat) : Dev :=
  d.setWord .STR_STAT c (BitVec.ofNat 64 (Nat.lor (d.word .STR_STAT c).toNat (fl % 64)))

/-- Record the status of an instruction of unit `u` (0 M, 1 V, 2 X, 3 T): the first one other than OK stands, a later one sets MORE (R124). -/
def Core.record (k : Core) (u : Nat) (s : Status) : Core :=
  if s = .ok then k
  else if k.first.get .ok u = .ok then { k with first := k.first.set u s }
  else { k with more := insertNat u k.more }

/-- Record a descriptor's status in `STR_DMA_STAT_n` (R113, R115). -/
def Dev.dmaError (d : Dev) (c : Nat) (s : Status) : Dev :=
  if s = .ok then d else d.putAll c [(F.STR_DMA_STAT_ERR, 1), (F.STR_DMA_STAT_LAST_ERR, s.code)]

/-- The condition of SBR (R129): 0 EQ, 1 NE, 2 LT, 3 GE signed, 4 LTU, 5 GEU. -/
def branchCond (fn : Nat) (a b : Word) : Bool :=
  match fn with
  | 0 => a = b
  | 1 => a ≠ b
  | 2 => a.toInt < b.toInt
  | 3 => b.toInt ≤ a.toInt
  | 4 => a.toNat < b.toNat
  | _ => b.toNat ≤ a.toNat

/-- The condition of a wait (R142, R201): EQ, or GE. -/
def waitCond (eq : Bool) (value x : Nat) : Bool := if eq then value = x else x ≤ value

end Sys2Proof.Machine
end

