-- ==== Sys2Proof/Machine/CoreOps.lean ====
section
/-!
DEFINITION. A core's issue, faults, queues and sync port: what every core instruction shares (R117 to R124, R140), and the release of
waits (R142, R199, R201, R206).
-/

namespace Sys2Proof.Machine

namespace Core

/-- Index `i` of the instruction store is being loaded by an XILD of the core (R138). -/
def loadingIndex (k : Core) (i : Nat) : Bool :=
  k.xq.any fun x => match x.load with
    | some (start, n, _) => decide (start ≤ i ∧ i < start + n)
    | none => false

/-- Outstanding instructions of a unit: 0 M, 1 V, 2 X, 3 T, 4 S (R131). -/
def outstanding (k : Core) (u : Nat) : Nat :=
  match u with
  | 0 => k.mq.length
  | 1 => k.vq.length
  | 2 => k.xq.length
  | 3 => k.tq.length
  | _ => (k.sq.filter fun r => !r.load).length

/-- Every instruction of the masked units that issued before number `n` has completed (R121, R140). -/
def unitsDone (k : Core) (mask n : Nat) : Bool :=
  (!mask.testBit 0 || k.mq.all fun x => decide (n ≤ x.seq)) &&
  (!mask.testBit 1 || k.vq.all fun x => decide (n ≤ x.seq)) &&
  (!mask.testBit 2 || k.xq.all fun x => decide (n ≤ x.seq)) &&
  (!mask.testBit 3 || k.tq.all fun x => decide (n ≤ x.seq))

/-- The masked units have drained before number `n`, and every earlier scalar store is visible (R140). -/
def drained (k : Core) (mask n : Nat) : Bool := k.sq.all (fun r => r.load || decide (n ≤ r.seq)) && k.unitsDone mask n

/-- Nothing of the core is queued or on its way (R123, R151). -/
def quiet (k : Core) : Bool :=
  k.mq.isEmpty && k.vq.isEmpty && k.xq.isEmpty && k.tq.isEmpty && k.sq.isEmpty && k.yq.isEmpty

/-- Go on to the next index. -/
def advance (k : Core) : Core := { k with pc := k.pc + 1 }

/-- Stop issue for good (R123, R131, R151): the due twist is withdrawn (R193). -/
def stop (k : Core) (cause : Nat) (s : Status) : Core :=
  { k with run := .stopping, haltCause := cause, haltStatus := s, due := none, stall := .none }

/-- Take the next issue number. -/
def bumpSeq (k : Core) : Core := { k with seq := k.seq + 1 }

end Core

namespace Dev

/-- Core `c`. -/
def core (d : Dev) (c : Nat) : Core := d.cores.get {} c

/-- Put core `c`. -/
def setCore (d : Dev) (c : Nat) (k : Core) : Dev := { d with cores := d.cores.set c k }

/-- Change core `c`. -/
def modCore (d : Dev) (c : Nat) (f : Core → Core) : Dev := d.setCore c (f (d.core c))

/-- `n` instruction words from index `start` on stand as words with an uncorrectable error (R138). -/
def spoilWords (d : Dev) (c start n : Nat) : Dev :=
  d.modCore c fun k => { k with
    istore := (List.range n).foldl (fun (t : Tab Word) j => t.set (start + j) 0) k.istore
    ibad := (List.range n).foldl (fun l j => insertNat (start + j) l) k.ibad }

/-- A fault that halts the core (R123): the instruction does not execute, the PC holds its index, no later one issues. -/
def coreFault (d : Dev) (c : Nat) (s : Status) : Dev := d.modCore c (·.stop 3 s)

/-- A physical core holds the logical number (R76). -/
def hasCore (d : Dev) (c : Nat) : Bool := !d.isSet F.MTX_MAP_MISSING c

/-- What the scalar unit finds at the PC: it waits or does not run this word, it halts with a status, or the instruction can
issue. -/
inductive Gate where
  | hold
  | fault (s : Status)
  | go
  deriving DecidableEq, Repr

/-- The scalar unit of core `c` meets word `w`, whose top byte is `top`, at its PC. A word with an uncorrectable error, an unused bit or a
reserved code halts the core (R123, R125); flow past index 8,191 does too; an instruction that names a pending register, or whose index
is being loaded, waits (R117, R138). Log entry notes/assumptions/5.md (DESIGN CHOICE) and notes/assumptions/50.md (DEDUCED). -/
def gate (d : Dev) (c : Nat) (w : Word) (top : Nat) : Gate :=
  let k := d.core c
  if k.run ≠ .run ∨ k.stall ≠ .none ∨ k.loadingIndex k.pc ∨ ¬ d.hasCore c ∨ Op.top w ≠ top then .hold
  else if k.pc ∈ k.ibad then .fault .eccUncorrected
  else if k.istore.get 0 k.pc ≠ w then .hold
  else if !wordOk w then .fault .formatFault
  else if (namedRegs w).any (· ∈ k.pending) then .hold
  else if k.pc = 8191 ∧ ¬ (0x10 ≤ top ∧ top ≤ 0x12) ∧ top ≠ 0x16 then .fault .formatFault
  else .go

/-- Issue the instruction `w`: `f` is its effect, given the core as it stands at issue. Log entry notes/assumptions/2.md (DESIGN CHOICE). -/
def issue (d : Dev) (c : Nat) (w : Word) (top : Nat) (f : Core → Dev → Dev) : Dev :=
  match d.gate c w top with
  | .hold => d
  | .fault s => d.coreFault c s
  | .go => f (d.core c) d

/-- Issue an instruction whose whole effect is on the core's own registers. -/
def issueCore (d : Dev) (c : Nat) (w : Word) (top : Nat) (f : Core → Core) : Dev :=
  d.issue c w top fun k d => d.setCore c (f k)

/-- Jump to an index, or halt the core when it lies outside 0 to 8,191 (R123, R129). `k` is the core with its other writes made. -/
def jump (d : Dev) (c : Nat) (t : Int) (k : Core) : Dev :=
  if 0 ≤ t ∧ t ≤ 8191 then d.setCore c { k with pc := t.toNat } else d.coreFault c .formatFault

/-! ### Statuses in scalar registers -/

/-- A status written to RD[7:0]; the bits above, which no rule states, are a free value (R140, R147). -/
def statusWord (d : Dev) (s : Status) : Word × Dev :=
  let (x, d) := d.free 56
  (BitVec.ofNat 64 (s.code + 256 * x), d)

/-! ### Sync objects -/

/-- The state of an object: 0 LIVE, 1 OWNER_LOST, 2 FAILED (R197). -/
def objState (d : Dev) (id : Nat) : Nat := d.get F.SYNC_OBJ_LO_STATE id

/-- The value of an object. -/
def objValue (d : Dev) (id : Nat) : Nat := d.get F.SYNC_OBJ_LO_VALUE id

/-- What an operation of a requester on an object meets first (R46, R140, R198, R200). Log entry notes/assumptions/62.md (DEDUCED). -/
def objStatus (d : Dev) (who : Option Nat) (id : Nat) : Status :=
  if 65536 ≤ id then .formatFault
  else if d.partOfSync id ≠ who then .partitionDenied
  else if d.objState id ≠ 0 then .isolated
  else .ok

/-- Add to an object's WAITERS (R197). -/
def addWaiter (d : Dev) (x : Waiter) : Dev :=
  let d := { d with sync := { d.sync with waiters := d.sync.waiters ++ [x] } }
  d.put F.SYNC_OBJ_LO_WAITERS x.id (d.get F.SYNC_OBJ_LO_WAITERS x.id + 1)

/-- Take a waiter away (R197). -/
def dropWaiter (d : Dev) (x : Waiter) : Dev :=
  let d := { d with sync := { d.sync with waiters := d.sync.waiters.erase x } }
  d.put F.SYNC_OBJ_LO_WAITERS x.id (d.get F.SYNC_OBJ_LO_WAITERS x.id - 1)

/-- The head of core `c`'s sync port has completed with the register value `v`: RD is written, and a stalled core goes on to
the next index (R140, R142, R143). -/
def yFinish (d : Dev) (c : Nat) (v : Word) : Dev :=
  d.modCore c fun k =>
    match k.yq with
    | [] => k
    | y :: t =>
      let k := { k.setReg y.rd v with yq := t }
      if y.kind = .wait ∨ y.kind = .bar then
        if k.run = .run ∨ k.run = .wait then { k with stall := .none, run := .run, pc := k.pc + 1 } else k
      else k

/-- Complete the head of the sync port with a status. -/
def yStatus (d : Dev) (c : Nat) (s : Status) : Dev :=
  let (v, d) := d.statusWord s
  d.yFinish c v

/-- The value that YREAD writes: RD[31:0] the value, RD[39:32] the status, the rest zero (R144). -/
def readWord (s : Status) (v : Nat) : Word := BitVec.ofNat 64 ((if s = .ok then v else 0) + s.code * 2 ^ 32)

/-- Let the sync port of core `c` send what it can, in program order (R118, R140): each instruction waits for the earlier scalar stores and for
the units in its mask, a refused one and a YREAD complete at once, a signal, a wait or an arrival goes to its bank; one of a die whose bonds are all
down completes with ISOLATED (R13, R40). -/
def pumpY : Nat → Nat → Dev → Dev
  | 0, _, d => d
  | n + 1, c, d =>
    let k := d.core c
    match k.yq with
    | [] => d
    | y :: t =>
      if y.sent || !k.drained y.mask y.seq then d
      else
        let who := d.partOfCore c
        match y.refused.or (if d.offBond (c / 512) then some .isolated else none) with
        | some s =>
          pumpY n c (if y.kind = .read then d.yFinish c (readWord s 0) else d.yStatus c s)
        | none =>
          let mark (op : SyncOp) : Dev :=
            let d := d.setCore c { k with yq := { y with sent := true } :: t }
            { d with sync := { d.sync with arrivals := d.sync.arrivals ++ [op] } }
          match y.kind with
          | .sig => mark (.signal y.id y.x (who.getD 4) c 0xF (d.get F.FAB_ID_ID) (.core c y.rd y.seq))
          | .wait => mark (.wait y.id y.x y.eq (who.getD 4)
              (if y.timeout = 0 then none else some (2 ^ (y.timeout - 1))) (.core c y.rd y.seq))
          | .bar => mark (.arrive y.id (who.getD 4) (.core c y.rd y.seq))
          | .read =>
            let s := d.objStatus who y.id
            pumpY n c (d.yFinish c (readWord s (d.objValue y.id)))

/-- Let core `c`'s sync port go on after something of the core has completed. -/
def pump (d : Dev) (c : Nat) : Dev := d.pumpY 17 c

/-- The core's own instruction behind a reply is still waiting in its sync port. -/
def awaits (d : Dev) (c seq : Nat) : Bool :=
  match (d.core c).yq with
  | y :: _ => y.seq = seq
  | [] => false

/-- Record the outcome of a descriptor's signal and retire the descriptor (R113, R124). -/
def retireDma (d : Dev) (c seq : Nat) (s : Status) : Dev :=
  match (d.core c).xq.find? (·.seq = seq) with
  | none => d
  | some x =>
    let st := x.status.orElse s
    let d := d.modCore c fun k => { k.record 2 st with xq := k.xq.filter (·.seq ≠ seq) }
    (d.dmaError c st).pump c

/-- The skein handed over as `h` has been accepted or refused with a status, which RD takes (R147). -/
def handDone (d : Dev) (c : Nat) (h : Hand) (s : Status) : Dev :=
  let (v, d) := d.statusWord s
  (d.modCore c fun k => { k.setReg h.rd v with tq := k.tq.filter (·.seq ≠ h.seq) }).pump c

end Dev

namespace Work

/-- Issue the instruction `i` when its effect touches memory. -/
def issue (w : Work) (c : Nat) (i : Word) (top : Nat) (f : Core → Work → Work) : Work :=
  match w.dev.gate c i top with
  | .hold => w
  | .fault s => w.on (·.coreFault c s)
  | .go => f (w.dev.core c) w

end Work

end Sys2Proof.Machine
end

