-- ==== Sys2Proof/Machine/Matrix.lean ====
section
/-!
DEFINITION. Class M: MOP (R49 to R58, R68, R69, R132), MDRN (R59, R63 to R67, R70 to R73, R133), MSEED (R67, R134), the in-service checks
and the self-test (R75 to R79). A matrix instruction computes at issue, in program order (R58); its status, flags and number show when it completes.
-/

namespace Sys2Proof.Machine

/-! ### Operands -/

/-- A range of bytes lies in one of core `c`'s own stores (R51, R70). -/
def inOwn (c a n : Nat) : Bool :=
  match Region.of a, Region.of (a + n - 1) with
  | .bobbin x _, .bobbin y _ => x = c && y = c && decide (0 < n)
  | .under x _, .under y _ => x = c && y = c && decide (0 < n)
  | _, _ => false

/-- A range of bytes lies in core `c`'s own bobbin (R59). -/
def inBobbin (c a n : Nat) : Bool := decide (bobbinBase c ≤ a ∧ a + n ≤ bobbinBase c + 0x80000 ∧ 0 < n)

/-- The operand formats of a MOP (R132). -/
inductive MFmt where
  | f (x : FFmt)
  | i8
  deriving DecidableEq, Repr

def MFmt.ofCode : Nat → MFmt
  | 0 => .f .e4m3 | 1 => .f .e5m2 | 2 => .f .e2m1 | 3 => .f .bf16 | 4 => .f .fp16 | _ => .i8

/-- Bits of one operand element. -/
def MFmt.width : MFmt → Nat
  | .f x => x.width
  | .i8 => 8

/-- The parameters of a MOP, read at issue (R50). -/
structure MopArgs where
  kind : Nat
  af : MFmt
  wf : MFmt
  wide : Bool
  bank : Bool
  acc : Bool
  a : Nat
  w : Nat
  arow : Nat
  wrow : Nat
  sa : Nat
  sw : Nat
  k : Nat
  deriving DecidableEq, Repr

/-- Read the parameters of a MOP (R126). -/
def Core.mopArgs (k : Core) (w : Word) : MopArgs :=
  let r (i : Nat) : Nat := (k.reg i).toNat
  { kind := Op.kind w, af := MFmt.ofCode (Op.actFmt w), wf := MFmt.ofCode (Op.wgtFmt w), wide := !Op.acc16 w
    bank := Op.mopBank w, acc := Op.accumulate w, a := bits (r (Op.mopRa w)) 0 48, w := bits (r (Op.mopRw w)) 0 48
    arow := bits (r (Op.mopRst w)) 0 32, wrow := bits (r (Op.mopRst w)) 32 32, sa := bits (r (Op.mopRsc w)) 0 48
    sw := bits (r (Op.mopRsc w + 1)) 0 48, k := Op.mopK w }

/-- FP4 operands (R53, R65). -/
def MopArgs.fp4 (m : MopArgs) : Bool := m.af = .f .e2m1

/-- The permitted pairings (R53). -/
def MopArgs.pairing (m : MopArgs) : Bool :=
  match m.af, m.wf with
  | .i8, .i8 => true
  | .f .e2m1, .f .e2m1 => m.kind = 0
  | .f .bf16, .f .bf16 => m.wide
  | .f .fp16, .f .fp16 => m.wide
  | .f a, .f b => (a = .e4m3 || a = .e5m2) && (b = .e4m3 || b = .e5m2)
  | _, _ => false

/-- Elements per group, E (R52). For FP4 the exact sum is added once per block of 32 (R68), so the block is the group. -/
def MopArgs.group (m : MopArgs) : Nat :=
  if m.fp4 then 32
  else match m.af with
    | .f .bf16 | .f .fp16 => 1
    | _ => if m.wide then 1 else 2

/-- Bytes of an activation row and of a weight row (R51). -/
def MopArgs.rowBytes (m : MopArgs) : Nat × Nat := (32 * m.af.width / 8, 128 * m.wf.width / 8)

/-- The byte ranges that a MOP reads, in feed order (R51, R52). -/
def MopArgs.reads (m : MopArgs) : List (Nat × Nat) :=
  (List.range m.k).flatMap fun k =>
    (m.a + k * m.arow, m.rowBytes.1) :: (m.w + k * m.wrow, m.rowBytes.2) ::
      (if m.fp4 && k % 32 = 0 then [(m.sa + k / 32 * 32, 32), (m.sw + k / 32 * 128, 128)] else [])

/-- The checks of R132 at execution: pairing, K, alignment, strides, own stores, address registers and RSC. -/
def Core.mopOk (k : Core) (c : Nat) (w : Word) : Bool :=
  let m := k.mopArgs w
  let high (i : Nat) : Bool := bits (k.reg i).toNat 48 16 = 0
  m.pairing && m.k % m.group = 0 && m.a % 16 = 0 && m.w % 16 = 0 && m.arow % 16 = 0 && m.wrow % 16 = 0 &&
  decide (m.rowBytes.1 ≤ m.arow) && decide (m.rowBytes.2 ≤ m.wrow) && high (Op.mopRa w) && high (Op.mopRw w) &&
  (if m.fp4 then Op.mopRsc w ≠ 31 && m.sa % 16 = 0 && m.sw % 16 = 0 && high (Op.mopRsc w) && high (Op.mopRsc w + 1)
   else Op.mopRsc w = 0) &&
  m.reads.all fun r => inOwn c r.1 r.2

/-- Activation element `(i, k)` as a code (R51). -/
def MopArgs.act (m : MopArgs) (mem : Mem) (i k : Nat) : Nat :=
  let p := m.a + k * m.arow
  if m.fp4 then bits (mem.nat (p + i / 2) 1) (4 * (i % 2)) 4
  else mem.nat (p + i * (m.af.width / 8)) (m.af.width / 8)

/-- Weight element `(k, col)` as a code (R51). -/
def MopArgs.wgt (m : MopArgs) (mem : Mem) (k col : Nat) : Nat :=
  let p := m.w + k * m.wrow
  if m.fp4 then bits (mem.nat (p + col / 2) 1) (4 * (col % 2)) 4
  else mem.nat (p + col * (m.wf.width / 8)) (m.wf.width / 8)

/-! ### Cells -/

/-- The float format of a bank with a float tag. -/
def Tag.float : Tag → Option FFmt
  | .fp32 => some .fp32
  | .fp16 => some .fp16
  | _ => none

/-- The code of a tag in `MTX_STAT_n` (R79). -/
def Tag.code : Tag → Nat
  | .empty => 0 | .fp32 => 1 | .fp16 => 2 | .int32 => 3 | .int16 => 4 | .failed => 7

/-- Bits of an integer accumulator. -/
def intWidth (wide : Bool) : Nat := if wide then 32 else 16

/-- Saturate to a signed integer of `w` bits. -/
def satInt (w : Nat) (x : Int) : Int × Bool := clampInt (-(2 ^ (w - 1))) (2 ^ (w - 1) - 1) x

/-- The tag that a MOP sets (R68): CMP_CNT counts in integers. -/
def MopArgs.tag (m : MopArgs) : Tag :=
  if m.af = .i8 || m.kind = 5 then (if m.wide then .int32 else .int16) else if m.wide then .fp32 else .fp16

/-- The identity of an operation as the register holds it (R55). -/
def MopArgs.identity (m : MopArgs) : Nat :=
  match m.kind with
  | 3 => if m.af = .i8 then field 32 (-(2 ^ (intWidth m.wide - 1))) else if m.wide then 0xFF800000 else 0xFC00
  | 4 => if m.af = .i8 then 2 ^ (intWidth m.wide - 1) - 1 else if m.wide then 0x7F800000 else 0x7C00
  | _ => 0

/-- One float group: the new accumulator and whether it overflowed (R68, R69). -/
def floatGroup (f : FFmt) (kind : Nat) (acc : FV) (l : List (FV × FV)) : FV × Bool :=
  match kind with
  | 0 => roundTo f (FV.sum acc (l.map fun p => p.1.mul p.2))
  | 1 => roundTo f (FV.sum acc (l.map fun p => (p.1.sub p.2).abs))
  | 2 => roundTo f (FV.sum acc (l.map fun p => (p.1.sub p.2).mul (p.1.sub p.2)))
  | _ =>
    l.foldl (fun (r : FV × Bool) p =>
      let (x, o) := roundTo f (p.1.add p.2)
      (if kind = 3 then r.1.max x else r.1.min x, r.2 || o)) (acc, false)

/-- One integer group before saturation (R68). -/
def intGroup (kind : Nat) (acc : Int) (l : List (Int × Int)) : Int :=
  match kind with
  | 0 => l.foldl (fun s p => s + p.1 * p.2) acc
  | 1 => l.foldl (fun s p => s + (p.1 - p.2).natAbs) acc
  | 2 => l.foldl (fun s p => s + (p.1 - p.2) * (p.1 - p.2)) acc
  | 3 => l.foldl (fun s p => max s (p.1 + p.2)) acc
  | 4 => l.foldl (fun s p => min s (p.1 + p.2)) acc
  | _ => l.foldl (fun s p => if p.2 < p.1 then s + 1 else s) acc

/-- The value of an E8M0 scale code: `2 ^ (e - 127)`, NaN for 0xFF (R65). -/
def e8m0 (e : Nat) : FV := if e = 255 then .nan else .fin false 1 ((e : Int) - 127)

/-- A register of a cell with the flags gathered so far: NAN, OVF, INT_SAT. -/
structure CellAcc where
  v : Nat
  nan : Bool := false
  ovf : Bool := false
  sat : Bool := false
  deriving DecidableEq, Repr

/-- Cell `(i, col)` applies group `g` (R49, R54, R68). -/
def MopArgs.step (m : MopArgs) (mem : Mem) (i col : Nat) (r : CellAcc) (g : Nat) : CellAcc :=
  let ks := (List.range m.group).map (g * m.group + ·)
  match m.af, m.wf with
  | .f fa, .f fw =>
    let pairs := ks.map fun k => (FV.decode fa (m.act mem i k), FV.decode fw (m.wgt mem k col))
    if m.kind = 5 then
      let n := (pairs.filter fun p => FV.lt p.2 p.1 && !p.1.isNaN && !p.2.isNaN).length
      let (x, s) := satInt (intWidth m.wide) (signed 32 r.v + n)
      { r with v := field 32 x, sat := r.sat || s }
    else
      let f : FFmt := if m.wide then .fp32 else .fp16
      let acc := FV.decode f r.v
      let (x, o) :=
        if m.fp4 then
          let s := FV.sum .zero (pairs.map fun p => p.1.mul p.2)
          let sc := (e8m0 (mem.nat (m.sa + g * 32 + i) 1)).mul (e8m0 (mem.nat (m.sw + g * 128 + col) 1))
          roundTo f (acc.add (sc.mul s))
        else floatGroup f m.kind acc pairs
      { r with v := (narrow f false none x).code, nan := r.nan || x.isNaN, ovf := r.ovf || o }
  | _, _ =>
    let pairs := ks.map fun k => (signed 8 (m.act mem i k), signed 8 (m.wgt mem k col))
    let (x, s) := satInt (intWidth m.wide) (intGroup m.kind (signed 32 r.v) pairs)
    { r with v := field 32 x, sat := r.sat || s }

/-- The bank after a MOP, with the flags (R49, R55, R68). -/
def MopArgs.run (m : MopArgs) (mem : Mem) (b : Bank) : Bank × Nat :=
  let cell (n : Nat) : CellAcc :=
    (List.range (m.k / m.group)).foldl (m.step mem (n / 128) (n % 128))
      { v := if m.acc then b.cells.get 0 n else m.identity }
  let l := (List.range 4096).map cell
  let cells := ⟨(l.zipIdx).map fun p => (p.2, p.1.v)⟩
  ({ tag := m.tag, cells }, mkFlags (l.any (·.nan)) (l.any (·.ovf)) (l.any (·.sat)) false)

/-! ### The unit's queue and the in-service checks -/

/-- A bank by its number. -/
def Core.bank (k : Core) (one : Bool) : Bank := if one then k.a1 else k.a0

/-- Put a bank. -/
def Core.setBank (k : Core) (one : Bool) (b : Bank) : Core := if one then { k with a1 := b } else { k with a0 := b }

/-- The physical core of its die that the fuses give logical core `c` (R14, R75): as built, or by the last repair record. Log entry notes/assumptions/44.md (DESIGN CHOICE). -/
def Fuses.phys (f : Fuses) (c : Nat) : Nat := (((f.repairs.filter (·.1 = c)).getLast?).map (·.2)).getD (c % 512)

/-- Repair records of a die that are not burnt, of 32 (R75). -/
def Fuses.free (f : Fuses) (die : Nat) : Nat := 32 - (f.repairs.filter (·.1 / 512 = die)).length

/-- The good spare that a repair takes: the lowest physical core built as a spare that no record uses and that has passed the self-test (R75). Log entry
notes/assumptions/44.md (DESIGN CHOICE). -/
def Dev.goodSpare (d : Dev) (die : Nat) : Option Nat :=
  ((List.range 64).map (512 + ·)).find? fun x => !d.fuses.repairs.any (fun r => r.1 / 512 = die && r.2 = x) && !d.testFailed.contains (576 * die + x)

/-- Burn a repair record that moves logical core `c` to a good spare; none when no spare or no record remains (R75, R76). -/
def Dev.burnRepair (d : Dev) (c : Nat) : Option Dev :=
  let die := c / 512
  match d.goodSpare die with
  | some x =>
    if d.fuses.free die = 0 then none
    else
      let f := { d.fuses with repairs := d.fuses.repairs ++ [(c, x)] }
      some ({ d with fuses := f }.putAll die [(F.MTX_REPAIR_FREE, f.free die), (F.MTX_REPAIR_USED, 32 - f.free die)])
  | none => none

/-- The number by which the failed checks of an array of core `c` are counted: that of the physical array (R78). -/
def Dev.arrayNo (d : Dev) (c array : Nat) : Nat := 4 * (576 * (c / 512) + d.get F.MTX_MAP_PHYS c) + array

/-- Declare an array of core `c` failed (R78): FAILED is set, and the management processor burns a repair record when a good spare
and a free record remain, or the spares are exhausted (R26, R76). One record serves the core until the next boot. Log entry notes/assumptions/51.md (DEDUCED). -/
def Dev.declareFailed (d : Dev) (c array : Nat) : Dev :=
  let again := d.isSet F.MTX_STAT_FAILED c
  let d := d.putAll c [(F.MTX_STAT_FAILED, 1), (F.MTX_STAT_FAILED_ARRAY, array)]
  let d := d.raise .arrayDeclaredFailed (Dev.evPart (d.partOfCore c)) c array
  if again then d
  else match d.burnRepair c with
  | some d => d
  | none => d.raise .spareExhausted 7 c (256 * c)

/-- A failed in-service check (R77): counted, logged, FAULT set; the second one in the same array declares it failed (R78). Log entry notes/assumptions/51.md (DEDUCED). -/
def Dev.arrayFail (d : Dev) (c : Nat) (x : ArrayCheck) : Dev :=
  let part := Dev.evPart (d.partOfCore c)
  let d := (d.mtxFlags c 8).count .MTX_FAULT c
  let d := d.raise .arrayCheckFailed part c
    (x.array.val + 4 * x.row.val + 128 * x.col.val + 4096 * flag x.parity) .eccUncorrected
  let no := d.arrayNo c x.array.val
  let n := d.checks.get 0 no + 1
  let d := { d with checks := d.checks.set no n }
  if 2 ≤ n then d.declareFailed c x.array.val else d

/-- Publish a completed instruction of the matrix unit (`u = 0`) or the stream engine (`u = 1`): its first-status, flags and
scalar result (R119, R124). -/
def Dev.publish (d : Dev) (c u : Nat) (x : Staged) : Dev :=
  let d := d.modCore c fun k =>
    let k := k.record u x.status
    match x.result with
    | some (r, v) => k.setReg r v
    | none => k
  if u = 0 then d.mtxFlags c x.flags else d.strFlags c x.flags

/-- Complete the instructions at the head of a unit's queue that complete by themselves. -/
def Dev.retireAuto : Nat → Nat → Nat → Dev → Dev
  | 0, _, _, d => d
  | n + 1, c, u, d =>
    let k := d.core c
    match (if u = 0 then k.mq else k.vq) with
    | [] => d
    | x :: t =>
      if x.auto then
        Dev.retireAuto n c u ((d.setCore c (if u = 0 then { k with mq := t } else { k with vq := t })).publish c u x)
      else d

/-- Complete the oldest instruction of a unit, if it is of the wanted kind (R58, R119). -/
def Dev.retire (d : Dev) (c u : Nat) (want : Staged → Bool) : Dev :=
  let k := d.core c
  match (if u = 0 then k.mq else k.vq) with
  | [] => d
  | x :: t =>
    if want x then
      let d := (d.setCore c (if u = 0 then { k with mq := t } else { k with vq := t })).publish c u x
      (Dev.retireAuto 8 c u d).pump c
    else d

/-- Put an issued matrix instruction into the unit's queue of 8 (R118). -/
def Core.pushM (k : Core) (x : Staged) : Core := { k with mq := k.mq ++ [x] }.bumpSeq.advance

/-! ### MOP -/

/-- MOP (R49): the checks of R132, R56, R57 and R78, then the whole operation into the bank. `chk` is an in-service check that
fails while it runs (R77); a residue check arises only in MUL_ADD and SQ_DIFF. Of a malformed MOP that meets a failed core or bank the lowest code stands
(R12, R57, R78). Log entry notes/assumptions/51.md (DEDUCED). -/
def execMop (c : Fin 1024) (w : Word) (chk : Option ArrayCheck) (s : State) : Host.Outcome State Fault Refusal :=
  runWork (coreDom c) (fun wk => wk.issue c w 0x20 fun k wk =>
    let m := k.mopArgs w
    let b := k.bank m.bank
    let push (wk : Work) (st : Status) (fl : Nat) (b' : Bank) : Work :=
      wk.on (·.modCore c fun k => (k.setBank m.bank b').pushM { seq := k.seq, status := st, flags := fl })
    if 8 ≤ k.mq.length then wk
    else if wk.dev.isSet F.MTX_STAT_FAILED c || (m.acc && b.tag = .failed) then push wk .eccUncorrected 0 b
    else if !k.mopOk c w then push wk .formatFault 0 b
    else if m.acc && b.tag ≠ m.tag then push wk .formatFault 0 b
    else if wk.dev.keyStatus (wk.dev.partOfCore c) ≠ .ok then push wk .keyRevoked 0 b
    else
      match wk.meet (wk.dev.partOfCore c) c m.reads with
      | (wk, some _) => push wk .eccUncorrected 0 { b with tag := .failed }
      | (wk, none) =>
        match chk.filter fun x => x.parity || m.kind = 0 || m.kind = 2 with
        | some x => push (wk.on (·.arrayFail c x)) .eccUncorrected 0 { b with tag := .failed }
        | none =>
          let (b', fl) := m.run wk.mem b
          push wk .ok fl b') s

/-- The oldest matrix instruction, a MOP, completes (R54): its status and flags show. -/
def execMopComplete (c : Fin 1024) (s : State) : Host.Outcome State Fault Refusal :=
  runDev (coreDom c) (fun d => d.retire c 0 fun x => !x.drain) s

/-! ### MDRN -/

/-- The output format of a drain (R133): a float or a signed integer of some bits. -/
inductive OutFmt where
  | f (x : FFmt)
  | i (w : Nat)
  deriving DecidableEq, Repr

def OutFmt.ofCode : Nat → OutFmt
  | 0 => .f .fp32 | 1 => .f .bf16 | 2 => .f .fp16 | 3 => .f .e4m3 | 4 => .f .e5m2 | 5 => .i 32 | 6 => .i 16 | _ => .i 8

/-- Bytes of one output element. -/
def OutFmt.bytes : OutFmt → Nat
  | .f x => x.width / 8
  | .i w => w / 8

/-- A bank with a float tag. -/
def Tag.isFloat (t : Tag) : Bool := t.float.isSome

/-- A bank with an integer tag. -/
def Tag.isInt : Tag → Bool
  | .int32 | .int16 => true
  | _ => false

/-- The drain outputs permitted for a tag (R71). -/
def outAllowed (t : Tag) (o : OutFmt) : Bool :=
  match o with
  | .f .fp32 => t.isFloat || t.isInt
  | .f _ => t.isFloat
  | .i _ => t.isInt

/-- The parameters of an MDRN, read at issue. -/
structure DrnArgs where
  mode : Nat
  out : OutFmt
  bank : Bool
  sat : Bool
  sr : Bool
  d : Nat
  drow : Nat
  scale : Nat
  idx : Nat
  deriving DecidableEq, Repr

def Core.drnArgs (k : Core) (w : Word) : DrnArgs :=
  { mode := Op.mode w, out := OutFmt.ofCode (Op.outFmt w), bank := Op.drnBank w, sat := Op.drnSat w, sr := Op.drnSr w
    d := bits (k.reg (Op.rdst w)).toNat 0 48, drow := bits (k.reg (Op.rdrow w)).toNat 0 32
    scale := (k.reg (Op.rscl w)).toNat, idx := Op.idxBase w }

/-- The rules of R133 on the fields that a mode uses and leaves zero. -/
def drnFieldsOk (w : Word) : Bool :=
  let plain := !Op.drnSat w && !Op.drnSr w && Op.rdrow w = 0 && Op.rscl w = 0
  match Op.mode w with
  | 0 => Op.idxBase w = 0
  | 1 | 2 | 3 => plain && Op.idxBase w = 0
  | _ => plain && Op.outFmt w = 0

/-- The rest of the checks of R59, R70 to R72 and R133, for a bank with tag `t`. -/
def DrnArgs.ok (m : DrnArgs) (c : Nat) (t : Tag) : Bool :=
  match m.mode with
  | 0 =>
    outAllowed t m.out && (if t.isFloat then decide (m.scale < 2 ^ 32) else decide (m.scale < 32)) && m.drow % 16 = 0 &&
    decide (128 * m.out.bytes ≤ m.drow) && (List.range 32).all fun i => inOwn c (m.d + i * m.drow) (128 * m.out.bytes)
  | 1 | 2 | 3 =>
    (t = .fp32 && m.out = .f .fp32 || t = .int32 && m.out = .i 32) && inBobbin c m.d (32 * 512)
  | _ => (t.isFloat || t.isInt) && decide (m.idx + 127 ≤ 65535) && inOwn c m.d 256

/-- An integer shifted right by `n` with the shifted-out bits rounded to nearest even (R71). -/
def shiftRound (x : Int) (n : Nat) : Int := roundInt (x < 0) x.natAbs (-(n : Int))

/-- One element of a STORE drain: its code, the flags OVF and INT_SAT, and the generator after it (R66, R67, R71). With SR set the generator advances for the
elements that round stochastically, BF16 and FP16, and for no other. Log entry notes/assumptions/51.md (DESIGN CHOICE). -/
def DrnArgs.element (m : DrnArgs) (t : Tag) (v gen : Nat) : Nat × Bool × Bool × Nat :=
  match t.float, m.out with
  | some f, .f o =>
    let x := (FV.decode f v).mul (FV.decode .fp32 m.scale)
    if m.sr && (o = .bf16 || o = .fp16) then
      let gen := srAdvance gen
      let n := narrow o m.sat (some (srDraw gen)) x
      (n.code, n.ovf, false, gen)
    else
      let n := narrow o m.sat none x
      (n.code, n.ovf, false, gen)
  | none, .f o => ((narrow o m.sat none (FV.ofInt (shiftRound (signed 32 v) m.scale))).code, false, false, gen)
  | _, .i wd =>
    let (x, s) := satInt wd (shiftRound (signed 32 v) m.scale)
    (field wd x, false, s, gen)

/-- Row `i` of a STORE drain: its bytes, OVF, INT_SAT and the generator after it. -/
def DrnArgs.row (m : DrnArgs) (b : Bank) (i gen : Nat) : List Byte × Bool × Bool × Nat :=
  (List.range 128).foldl (fun r col =>
    let (x, o, s, g) := m.element b.tag (b.cells.get 0 (128 * i + col)) r.2.2.2
    (r.1 ++ leBytes m.out.bytes x, r.2.1 || o, r.2.2.1 || s, g)) ([], false, false, gen)

/-- One element of a drain-add (R59): the new word, OVF and INT_SAT. -/
def drainAdd (mode : Nat) (t : Tag) (old new : Nat) : Nat × Bool × Bool :=
  if t = .fp32 then
    let a := FV.decode .fp32 old
    let b := FV.decode .fp32 new
    let n := narrow .fp32 false none (if mode = 1 then a.add b else if mode = 2 then a.max b else a.min b)
    (n.code, n.ovf, false)
  else
    let a := signed 32 old
    let b := signed 32 new
    let (x, s) := satInt 32 (if mode = 1 then a + b else if mode = 2 then max a b else min a b)
    (field 32 x, false, s)

/-- Whether candidate `b` (value, NaN, index) beats `a` (R73): a NaN over every number, then the greatest or least value, then the lowest
index. `less a b` compares values. -/
def beats {α : Type} (less : α → α → Bool) (maxMode : Bool) (a b : α × Bool × Nat) : Bool :=
  if b.2.1 != a.2.1 then b.2.1
  else if b.2.1 then decide (b.2.2 < a.2.2)
  else
    let better := if maxMode then less a.1 b.1 else less b.1 a.1
    let worse := if maxMode then less b.1 a.1 else less a.1 b.1
    better || (!worse && decide (b.2.2 < a.2.2))

/-- The winner of a list of candidates (R73). -/
def winner {α : Type} (less : α → α → Bool) (maxMode : Bool) (x : α × Bool × Nat) (l : List (α × Bool × Nat)) :
    α × Bool × Nat :=
  l.foldl (fun a b => if beats less maxMode a b then b else a) x

/-- The record of a row reduction (R72): VALUE, INDEX and ISNAN. Of a stored record the ISNAN bit says whether its value is NaN, whatever VALUE holds. Log entry
notes/assumptions/51.md (DESIGN CHOICE). -/
def reduceRow (m : DrnArgs) (b : Bank) (i : Nat) (stored : Option Nat) : Nat :=
  let maxMode := m.mode = 4 || m.mode = 6
  let old (dec : Nat → FV) : List (FV × Bool × Nat) :=
    match stored with
    | some r => [(dec (bits r 0 32), r.testBit 48, bits r 32 16)]
    | none => []
  match b.tag.float with
  | some f =>
    let cand (col : Nat) : FV × Bool × Nat :=
      let v := FV.decode f (b.cells.get 0 (128 * i + col))
      (v, v.isNaN, m.idx + col)
    let l := old (FV.decode .fp32) ++ (List.range 128).map cand
    let x := winner FV.lt maxMode (l.headD (cand 0)) l.tail
    (narrow .fp32 false none (if x.2.1 then .nan else x.1)).code + x.2.2 * 2 ^ 32 + flag x.2.1 * 2 ^ 48
  | none =>
    let cand (col : Nat) : Int × Bool × Nat := (signed 32 (b.cells.get 0 (128 * i + col)), false, m.idx + col)
    let oldI : List (Int × Bool × Nat) :=
      match stored with
      | some r => [(signed 32 (bits r 0 32), r.testBit 48, bits r 32 16)]
      | none => []
    let l := oldI ++ (List.range 128).map cand
    let x := winner (fun a b => decide (a < b)) maxMode (l.headD (cand 0)) l.tail
    field 32 x.1 + x.2.2 * 2 ^ 32 + flag x.2.1 * 2 ^ 48

/-- A drain under way: the memory and device, the generator, the flags and the status; a status other than OK ends it. -/
structure Drain where
  wk : Work
  gen : Nat
  ovf : Bool := false
  sat : Bool := false
  status : Status := .ok
  failedBank : Bool := false
  deriving DecidableEq, Repr

/-- Drain row `i` (R59, R70, R72): a parity failure in its read ends the drain and marks the bank (R57); an uncorrectable word in the
destination ends it too (R84, R398). Row `i` of a drain-add lies at D + 512 i: R59 gives its 512 bytes and no stride. Log entry notes/assumptions/51.md
(DESIGN CHOICE). -/
def DrnArgs.step (m : DrnArgs) (c : Nat) (b : Bank) (chk : Option ArrayCheck) (r : Drain) (i : Nat) : Drain :=
  if r.status ≠ .ok then r
  else
    let who := r.wk.dev.partOfCore c
    match chk.filter fun x => x.parity && x.row.val = i with
    | some x => { r with wk := r.wk.on (·.arrayFail c x), status := .eccUncorrected, failedBank := true }
    | none =>
      let put (wk : Work) (a : Nat) (bs : List Byte) : Drain :=
        let (wk, st) := wk.storeUnits who c a bs
        { r with wk, status := st }
      let get (a n : Nat) (k : Work → Nat → Drain) : Drain :=
        match r.wk.meet who c [(a, n)] with
        | (wk, some _) => { r with wk, status := .eccUncorrected }
        | (wk, none) => k wk (wk.mem.nat a n)
      match m.mode with
      | 0 =>
        let (bs, o, s, g) := m.row b i r.gen
        { put r.wk (m.d + i * m.drow) bs with gen := g, ovf := r.ovf || o, sat := r.sat || s }
      | 1 | 2 | 3 =>
        get (m.d + i * 512) 512 fun wk old =>
          let l := (List.range 128).map fun col =>
            drainAdd m.mode b.tag (bits old (32 * col) 32) (b.cells.get 0 (128 * i + col))
          { put wk (m.d + i * 512) (l.flatMap fun x => leBytes 4 x.1) with
            ovf := r.ovf || l.any (·.2.1), sat := r.sat || l.any (·.2.2) }
      | 4 | 5 => put r.wk (m.d + 8 * i) (leBytes 8 (reduceRow m b i none))
      | _ => get (m.d + 8 * i) 8 fun wk old => put wk (m.d + 8 * i) (leBytes 8 (reduceRow m b i (some old)))

/-- MDRN (R70): the checks of R133 and R71, then the 32 rows in order. It leaves the bank's contents and tag unchanged but for a
parity failure (R57). Of a malformed MDRN that meets a failed core or bank the lowest code stands (R12, R57, R78). Log entry notes/assumptions/51.md (DEDUCED). -/
def execMdrn (c : Fin 1024) (w : Word) (chk : Option ArrayCheck) (s : State) : Host.Outcome State Fault Refusal :=
  runWork (coreDom c) (fun wk => wk.issue c w 0x21 fun k wk =>
    let m := k.drnArgs w
    let b := k.bank m.bank
    let push (wk : Work) (st : Status) (fl : Nat) : Work :=
      wk.on (·.modCore c fun k => k.pushM { seq := k.seq, drain := true, status := st, flags := fl })
    if 8 ≤ k.mq.length then wk
    else if wk.dev.isSet F.MTX_STAT_FAILED c || b.tag = .failed then push wk .eccUncorrected 0
    else if !drnFieldsOk w || !m.ok c b.tag then push wk .formatFault 0
    else if wk.dev.keyStatus (wk.dev.partOfCore c) ≠ .ok then push wk .keyRevoked 0
    else
      let r := (List.range 32).foldl (m.step c b chk) { wk, gen := k.mgen.toNat }
      let wk := r.wk.on (·.modCore c fun k =>
        let k := { k with mgen := BitVec.ofNat 64 r.gen }
        if r.failedBank then k.setBank m.bank { b with tag := .failed } else k)
      push wk r.status (mkFlags false r.ovf r.sat false)) s

/-- The oldest matrix instruction, an MDRN, completes (R70): its status and flags show. -/
def execMdrnComplete (c : Fin 1024) (s : State) : Host.Outcome State Fault Refusal :=
  runDev (coreDom c) (fun d => d.retire c 0 (·.drain)) s

/-- MSEED: the generator is loaded from s[RA]; a zero seed completes with FORMAT_FAULT and leaves it (R67, R134). -/
def execMseed (c : Fin 1024) (w : Word) (s : State) : Host.Outcome State Fault Refusal :=
  runDev (coreDom c) (fun d => d.issue c w 0x22 fun k d =>
    if 8 ≤ k.mq.length then d
    else
      let v := k.reg (Op.ra w)
      let k := if v = 0 then k else { k with mgen := v }
      let st : Status := if v = 0 then .formatFault else .ok
      Dev.retireAuto 8 c 0 (d.setCore c (k.pushM { seq := k.seq, auto := true, status := st }))) s

/-! ### The in-service self-test -/

/-- A write of START to `MTX_TEST_CTL` by a requester that may write it (R46, R78, R79): ISOLATED when the core's die is lost, PARTITION_DENIED when
the core lies in a partition, FORMAT_FAULT while BUSY; of several the lowest code (R12). A started test leaves the banks EMPTY. -/
def Dev.startArrayTest (d : Dev) (core : Nat) : Dev :=
  if d.dieClosed core then d.answer .isolated
  else if d.partOfCore core ≠ none then d.answer .partitionDenied
  else if d.isSet F.MTX_TEST_CTL_BUSY then d.answer .formatFault
  else
    let d := d.putAll 0 [(F.MTX_TEST_CTL_CORE, core), (F.MTX_TEST_CTL_BUSY, 1)]
    ({ d with testCore := some core }.modCore core fun k => { k with a0 := {}, a1 := {} }).answer .ok

/-- MTX_TEST_START: the write of START, by the requester. -/
def execMtxTestStart (r : Requester) (core : Fin 1024) (s : State) : Host.Outcome State Fault Refusal :=
  runDev 1 (Dev.ask r fun d => match r with
    | .part _ => d.answer .partitionDenied
    | _ => d.startArrayTest core) s

/-- The in-service self-test ends: PASS and ARRAY are set, and a failure declares the array failed (R78). -/
def execMtxTestEnd (bad : Option (Fin 4)) (s : State) : Host.Outcome State Fault Refusal :=
  runDev 1 (fun d =>
    match d.testCore with
    | none => d
    | some c =>
      let d := { d with testCore := none }.modCore c fun k => { k with a0 := {}, a1 := {} }
      match bad with
      | none => d.putAll 0 [(F.MTX_TEST_CTL_BUSY, 0), (F.MTX_TEST_CTL_PASS, 1)]
      | some a =>
        (d.putAll 0 [(F.MTX_TEST_CTL_BUSY, 0), (F.MTX_TEST_CTL_PASS, 0), (F.MTX_TEST_CTL_ARRAY, a.val)]).declareFailed c a) s

end Sys2Proof.Machine
end

