-- ==== Sys2Proof/Machine/StreamOps.lean ====
section
/-!
DEFINITION. What the stream operations share: elements of rovings (R88, R89), the checks of R90 to R92, groups and uncorrectable words (R93), one
rounding into the destination (R95), segments (R101), and the completion in program order (R119).
-/

namespace Sys2Proof.Machine

/-- An element's value before it is rounded into a destination. -/
inductive EV where
  | f (x : FV)
  | fn (x : FnVal)
  | i (x : Int)
  deriving DecidableEq, Repr

namespace Roving

/-- The element format (R88). -/
def elem (r : Roving) : Option Elem := Elem.ofCode r.fmt

/-- Packed formats ignore STRIDE (R87). -/
def packed (r : Roving) : Bool := r.fmt = 5 || r.fmt = 12

/-- Bytes of an unpacked element. -/
def size (r : Roving) : Nat :=
  match r.elem with
  | some e => e.width / 8
  | none => 1

/-- The address of the byte that holds element `i`, or starts it (R89); a negative address is out of every store. -/
def addr (r : Roving) (i : Nat) : Nat :=
  if r.fmt = 5 then r.base + i / 2
  else if r.fmt = 12 then r.base + i / 8
  else
    let a := (r.base : Int) + i * r.stride
    if a < 0 then 2 ^ 63 else a.toNat

/-- The byte range of element `i`. -/
def range (r : Roving) (i : Nat) : Nat × Nat := (r.addr i, if r.packed then 1 else r.size)

/-- The code of element `i`. -/
def code (r : Roving) (mem : Mem) (i : Nat) : Nat :=
  if r.fmt = 5 then bits (mem.nat (r.addr i) 1) (4 * (i % 2)) 4
  else if r.fmt = 12 then bits (mem.nat (r.addr i) 1) (i % 8) 1
  else mem.nat (r.addr i) r.size

/-- The exact value of element `i`, FP4 with its block scale (R65, R95). -/
def value (r : Roving) (mem : Mem) (i : Nat) : EV :=
  let v := r.code mem i
  match r.elem with
  | some (.float .e2m1) => .f ((e8m0 (mem.nat (r.scale + i / 32) 1)).mul (FV.decode .e2m1 v))
  | some (.float f) => .f (FV.decode f v)
  | some (.int true w) => .i (signed w v)
  | _ => .i v

/-- The byte range from the lowest to the highest byte of elements `i` to `j`. -/
def between (r : Roving) (i j : Nat) : Nat × Nat :=
  let x := r.range i
  let y := r.range j
  let lo := Nat.min x.1 y.1
  (lo, Nat.max (x.1 + x.2) (y.1 + y.2) - lo)

/-- The byte ranges from the lowest to the highest byte of the first `n` elements, and of their scales (R90, R92). -/
def spans (r : Roving) (n : Nat) : List (Nat × Nat) :=
  if n = 0 then [] else r.between 0 (n - 1) :: (if r.fmt = 5 then [(r.scale, (n - 1) / 32 + 1)] else [])

/-- The byte range of the flags of the first `n` elements (R89). -/
def flagSpan (r : Roving) (n : Nat) : List (Nat × Nat) :=
  if r.segsrc = 1 ∧ n ≠ 0 then [(r.seg, (n - 1) / 8 + 1)] else []

/-- Element `i` is a segment head (R101). -/
def head (r : Roving) (mem : Mem) (i : Nat) : Bool :=
  i = 0 ||
  match r.segsrc with
  | 1 => bits (mem.nat (r.seg + i / 8) 1) (i % 8) 1 = 1
  | 2 => i % (r.seg % 2 ^ 24) = 0
  | _ => false

/-- The checks of R90 that a roving meets by itself. -/
def sane (r : Roving) : Bool :=
  r.elem.isSome && decide (r.segsrc ≤ 2) && !r.reserved &&
  (r.packed || r.base % r.size = 0 && r.stride % r.size = 0) && !(r.segsrc = 2 && r.seg % 2 ^ 24 = 0)

/-- Numeric format classes: 0 float, 1 integer, 2 BIT, 3 FP4. -/
def cls (r : Roving) : Nat :=
  match r.elem with
  | some (.float .e2m1) => 3
  | some (.float _) => 0
  | some (.int _ _) => 1
  | _ => 2

end Roving

/-- Two byte ranges share a byte. -/
def meets (x y : Nat × Nat) : Bool := decide (x.1 < y.1 + y.2 ∧ y.1 < x.1 + x.2)

/-- All ranges lie in one of core `c`'s own stores (R86, R90). -/
def inOneStore (c : Nat) (l : List (Nat × Nat)) : Bool :=
  (l.all fun r => inOwn c r.1 r.2) && ((l.all fun r => inBobbin c r.1 r.2) || l.all fun r => !inBobbin c r.1 r.2)

/-- A roving that an operation names: as a source or a destination, how many elements it touches from the first, how many flags
are read, and the touched ranges where they are others. -/
structure Named where
  r : Roving
  n : Nat
  flags : Nat := 0
  extent : Option (List (Nat × Nat)) := none
  deriving DecidableEq, Repr

/-- The byte ranges that an operation touches of a roving (R90). -/
def Named.spans (x : Named) : List (Nat × Nat) :=
  x.extent.getD (x.r.spans x.n) ++ x.r.flagSpan x.flags

/-- The range of a roving, from the lowest to the highest byte that an operation touches of it, scales and flags included (R92). -/
def Named.hull (x : Named) : List (Nat × Nat) :=
  match x.spans with
  | [] => []
  | a :: l =>
    let lo := l.foldl (fun m r => Nat.min m r.1) a.1
    [(lo, l.foldl (fun m r => Nat.max m (r.1 + r.2)) (a.1 + a.2) - lo)]

/-- The value of a written element: its byte, its low bit and width within it (whole elements have low bit 0), and its code. -/
structure ElemWr where
  addr : Nat
  lo : Nat
  width : Nat
  code : Nat
  deriving DecidableEq, Repr

/-- What a stream operation gives: element writes, flags NAN, OVF, INT_SAT, TRUNC, the status, the scalar result, the COUNT of a
roving to update, and the generator after it. -/
structure VOut where
  writes : List ElemWr := []
  nan : Bool := false
  ovf : Bool := false
  isat : Bool := false
  trunc : Bool := false
  status : Status := .ok
  result : Option Nat := none
  count : Option (Nat × Nat) := none
  gen : Nat
  deriving DecidableEq, Repr

/-- Write element `i` of a roving with a code. -/
def Roving.put (r : Roving) (i code : Nat) : ElemWr :=
  if r.fmt = 5 then ⟨r.addr i, 4 * (i % 2), 4, code⟩
  else if r.fmt = 12 then ⟨r.addr i, i % 8, 1, code⟩
  else ⟨r.addr i, 0, 8 * r.size, code⟩

/-- What an operation is to do: its own format rules, the rovings it names, its length, the bytes that element `i` reads, and its
outcome when the elements below a bound lie in earlier groups than the first uncorrectable word (R93). `inPlace` permits a destination
that equals a source (R92). Log entry notes/assumptions/52.md (DEDUCED). -/
structure VPlan where
  ok : Bool
  srcs : List Named
  dests : List Named
  inPlace : Bool
  n : Nat
  reads : Nat → List (Nat × Nat)
  run : Nat → VOut

/-- One value rounded once into a destination format (R95): saturation for integers, SAT and SR for floats; the result of a NaN into an
integer or BIT destination is stated nowhere and is the free value `nanInt`. -/
def VOut.emit (o : VOut) (y : Roving) (sat sr : Bool) (nanInt : Nat) (i : Nat) (v : EV) : VOut :=
  match y.elem with
  | some (.float f) =>
    let gen := if sr then srAdvance o.gen else o.gen
    let r := if sr then some (srDraw gen) else none
    let x := match v with
      | .f x => narrow f sat r x
      | .fn x => narrowFn f sat r x
      | .i x => narrow f sat r (FV.ofInt x)
    { o with writes := y.put i x.code :: o.writes, nan := o.nan || x.nan, ovf := o.ovf || x.ovf, gen }
  | e =>
    let (lo, hi, w) : Int × Int × Nat := match e with
      | some (.int true w) => (-(2 ^ (w - 1)), 2 ^ (w - 1) - 1, w)
      | some (.int false w) => (0, 2 ^ w - 1, w)
      | _ => (0, 1, 1)
    match v with
    | .i x =>
      let (z, s) := clampInt lo hi x
      { o with writes := y.put i (field w z) :: o.writes, isat := o.isat || s }
    | .f (.fin neg m e) =>
      let (z, s) := clampInt lo hi (roundInt neg m e)
      { o with writes := y.put i (field w z) :: o.writes, isat := o.isat || s }
    | .f (.inf neg) => { o with writes := y.put i (field w (if neg then lo else hi)) :: o.writes, isat := true }
    | _ => { o with writes := y.put i (nanInt % 2 ^ w) :: o.writes, nan := true }

/-- The checks of R90 to R92 on the rovings of an operation and its own format rules. -/
def VPlan.valid (p : VPlan) (c : Nat) : Bool :=
  p.ok && (p.srcs ++ p.dests).all (fun x => x.r.sane && inOneStore c x.spans) &&
  p.dests.all (fun x => !(x.r.stride = 0 && !x.r.packed && decide (1 < x.r.count))) &&
  p.dests.all fun y => p.srcs.all fun x =>
    (p.inPlace && x.r.base = y.r.base && x.r.stride = y.r.stride && x.r.fmt = y.r.fmt) ||
    !(y.hull.any fun a => x.hull.any fun b => meets a b)

/-- The bytes that element writes leave, over the bytes that memory holds. -/
def overlay (mem : Mem) (l : List ElemWr) : Tab Byte :=
  l.foldl (fun t e =>
    if e.width < 8 then
      let b := (t.get (mem.byte e.addr) e.addr).toNat
      t.set e.addr (BitVec.ofNat 8 (putBits b e.lo e.width e.code))
    else
      ((leBytes (e.width / 8) e.code).zipIdx).foldl (fun t x => t.set (e.addr + x.2) x.1) t) Tab.empty

/-- Write the bytes of a group's outputs: granules that they do not cover whole are read first, and nothing is written when one holds an uncorrectable word
(R84, R93). -/
def Work.scatter (w : Work) (who : Option Nat) (reader : Nat) (t : Tab Byte) : Work × Bool :=
  let granules := (t.entries.map (·.1 / 16)).foldl (fun l g => insertNat g l) []
  let bytes (g : Nat) := t.entries.filter fun e => e.1 / 16 = g
  match w.meet who reader ((granules.filter fun g => (bytes g).length ≠ 16).map fun g => (16 * g, 16)) with
  | (w, some _) => (w, false)
  | (w, none) =>
    (granules.foldl (fun (w : Work) g =>
      let bs := bytes g
      if bs.length = 16 then w.write (.bytes (16 * g) (bs.map (·.2))) else bs.foldl (fun w e => w.write (.bytes e.1 [e.2])) w) w, true)

/-- Group `g` of a stream operation (R91, R93): it reads its 64 elements and writes the outputs that they complete, or it meets an uncorrectable word and writes
none. `p.run` gives the outputs of the elements below a bound, newest first. Log entry notes/assumptions/52.md (DEDUCED). -/
def Work.group (w : Work) (who : Option Nat) (c : Nat) (p : VPlan) (g : Nat) : Work × Bool :=
  let top := min p.n (64 * g + 64)
  match w.meet who c ((List.range (top - 64 * g)).flatMap fun i => p.reads (64 * g + i)) with
  | (w, some _) => (w, false)
  | (w, none) =>
    let l := (p.run top).writes
    w.scatter who c (overlay w.mem (l.take (l.length - (p.run (64 * g)).writes.length)).reverse)

/-- The groups of a stream operation in order, up to the first that meets an uncorrectable word (R93): the elements of the good ones. -/
def Work.groups (w : Work) (who : Option Nat) (c : Nat) (p : VPlan) : Work × Nat :=
  let n := (p.n + 63) / 64
  let r := (List.range n).foldl (fun (r : Work × Nat) g =>
    if r.2 = g then
      let (w, ok) := r.1.group who c p g
      (w, if ok then g + 1 else g)
    else r) (w, 0)
  (r.1, if r.2 = n then p.n else 64 * r.2)

/-- Put an issued stream instruction into the engine's queue of 8 (R118); the scalar register that it will write is pending. -/
def Core.pushV (k : Core) (x : Staged) : Core :=
  let k := match x.result with
    | some (r, _) => k.await r
    | none => k
  { k with vq := k.vq ++ [x] }.bumpSeq.advance

/-- Run a stream operation: the checks (R90 to R92, R181), the outcome with its uncorrectable words (R93), and the entry in the queue. The count
that an operation reports when it has failed is stated nowhere: the free value `failed`, by one more than the elements of the good groups. -/
def Work.stream (wk : Work) (c : Nat) (srd : Option Nat) (p : VPlan) (failed : Nat → Nat) : Work :=
  let who := wk.dev.partOfCore c
  let push (wk : Work) (st : Status) (fl : Nat) (res : Option Nat) : Work :=
    wk.on (·.modCore c fun k => k.pushV { seq := k.seq, status := st, flags := fl
                                          result := srd.map (fun r => (r, BitVec.ofNat 64 (res.getD 0))) })
  if !p.valid c then push wk .formatFault (mkFlags false false false false false true) (some (failed 0 % 2 ^ 32))
  else if wk.dev.keyStatus who ≠ .ok then push wk .keyRevoked 0 (some (failed 0 % 2 ^ 32))
  else
    let (wk, bound) := wk.groups who c p
    let o := p.run bound
    let st := if bound = p.n then o.status else .eccUncorrected
    let x := failed (bound + 1) % 2 ^ 24
    let wk := wk.on (·.modCore c fun k =>
      let k := { k with vgen := BitVec.ofNat 64 o.gen }
      match o.count with
      | some (i, n) => k.setCount i (if st = .eccUncorrected then x else n)
      | none => k)
    push wk st (mkFlags o.nan o.ovf o.isat o.trunc (st = .eccUncorrected) (st = .formatFault))
      (o.result.map fun n => if st = .eccUncorrected then x else n)

/-- What the results of a stream operation may depend on (R94): its rovings, the elements of its sources, the scalar register that it reads, and the
stochastic-rounding state. -/
def Core.operands (k : Core) (w : Word) (mem : Mem) : List Nat :=
  let codes (r : Roving) : List Nat := (List.range r.count).map (r.code mem)
  let l := [Op.srcA w, Op.srcB w, Op.srcC w]
  (l ++ [Op.dst w]).flatMap (fun i => (List.range 4).map (k.rovWord i)) ++ [(k.reg (Op.srs w)).toNat, k.vgen.toNat] ++ l.flatMap fun i => codes (k.roving i)

/-- Issue a stream operation: `plan` is what it does, given the core at issue, the memory, and the free values of NaN elements in an integer destination. Log entry
notes/assumptions/7.md (DESIGN CHOICE). -/
def Work.issueV (wk : Work) (c : Nat) (w : Word) (top : Nat) (srd : Bool) (plan : Core → Mem → (Nat → Nat) → VPlan) : Work :=
  wk.issue c w top fun k wk =>
    if 8 ≤ k.vq.length then wk
    else wk.stream c (if srd then some (Op.srd w) else none) (plan k wk.mem (Config.nanInt w (k.operands w wk.mem))) (Config.failedCount w (k.operands w wk.mem))

/-! ### Element-wise operations -/

/-- A source has an element for every index below `n` (R91). -/
def Roving.covers (r : Roving) (n : Nat) : Bool := decide (n ≤ r.count) || (!r.packed && r.stride = 0)

/-- An element-wise plan (R91): `f` gives the value of element `i`. A destination without a narrowing conversion, an integer or BIT one, has SAT = 0 (R135;
DEDUCED, notes/assumptions/71.md). Log entry notes/assumptions/52.md (DEDUCED). -/
def elementwise (k : Core) (w : Word) (srcs : List Roving) (ok narrowing : Bool) (nanInt : Nat → Nat) (mem : Mem)
    (f : Nat → EV) : VPlan :=
  let y := k.roving (Op.dst w)
  let sr := narrowing && Op.sr w
  let sat := narrowing && Op.sat w
  { ok := ok && srcs.all (·.covers y.count) && (!sr || y.fmt = 1 || y.fmt = 2) && (!sat || y.cls = 0)
    srcs := srcs.map fun r => { r, n := if !r.packed && r.stride = 0 then min 1 y.count else y.count }
    dests := [{ r := y, n := y.count }], inPlace := true, n := y.count
    reads := fun i => srcs.flatMap fun r =>
      r.range i :: (if r.fmt = 5 then [(r.scale + i / 32, 1)] else [])
    run := fun bound =>
      let _ := mem
      (List.range bound).foldl (fun o i => o.emit y sat sr (nanInt i) i (f i)) { gen := k.vgen.toNat } }

/-- A raw copy of codes between rovings of one format, element by element; a copied NaN code is no NaN that is produced or propagated and leaves STR_STAT.NAN clear
(R95; DESIGN CHOICE). Log entry notes/assumptions/52.md (DESIGN CHOICE). -/
def rawElementwise (k : Core) (w : Word) (srcs : List Roving) (ok : Bool) (f : Nat → Nat) : VPlan :=
  let y := k.roving (Op.dst w)
  { ok := ok && srcs.all (·.covers y.count)
    srcs := srcs.map fun r => { r, n := if !r.packed && r.stride = 0 then min 1 y.count else y.count }
    dests := [{ r := y, n := y.count }], inPlace := true, n := y.count
    reads := fun i => srcs.map (·.range i)
    run := fun bound =>
      { gen := k.vgen.toNat, writes := ((List.range bound).map fun i => y.put i (f i)).reverse } }

/-- A float operation on exact values, or an integer one. -/
def binary (ff : FV → FV → FV) (fi : Int → Int → Int) : EV → EV → EV
  | .f a, .f b => .f (ff a b)
  | .i a, .i b => .i (fi a b)
  | a, _ => a

/-- All rovings are of one numeric class, float or integer (R95). -/
def sameClass (l : List Roving) : Bool := (l.all (·.cls = 0)) || l.all (·.cls = 1)

/-- The plan of a two-source arithmetic operation (R96). -/
def planBinary (w : Word) (ff : FV → FV → FV) (fi : Int → Int → Int) (k : Core) (mem : Mem) (x : Nat → Nat) : VPlan :=
  let a := k.roving (Op.srcA w)
  let b := k.roving (Op.srcB w)
  elementwise k w [a, b] (sameClass [k.roving (Op.dst w), a, b]) true x mem fun i =>
    binary ff fi (a.value mem i) (b.value mem i)

/-- The plan of a one-source arithmetic operation (R96). -/
def planUnary (w : Word) (ff : FV → FV) (fi : Int → Int) (k : Core) (mem : Mem) (x : Nat → Nat) : VPlan :=
  let a := k.roving (Op.srcA w)
  elementwise k w [a] (sameClass [k.roving (Op.dst w), a]) true x mem fun i =>
    match a.value mem i with
    | .f v => .f (ff v)
    | .i v => .i (fi v)
    | v => v

/-- A bitwise operation on exact integers, through 64-bit two's complement. -/
def bitwise (f : Nat → Nat → Nat) (a b : Int) : Int := signed 64 (f (field 64 a) (field 64 b))

/-- The width and signedness of an integer or BIT roving. -/
def Roving.intType (r : Roving) : Bool × Nat :=
  match r.elem with
  | some (.int s w) => (s, w)
  | _ => (false, 1)

/-- The integer that an element holds. -/
def Roving.int (r : Roving) (mem : Mem) (i : Nat) : Int :=
  match r.value mem i with
  | .i x => x
  | _ => 0

/-- A code of a type of `w` bits read as an integer. -/
def ofTyped (t : Bool × Nat) (v : Nat) : Int := if t.1 then signed t.2 v else v % 2 ^ t.2

/-- VSHL of one element (R96): bits above the width of the source's type are lost without INT_SAT, and a count of at least the width gives 0 (DESIGN CHOICE: R95 would
also admit the exact product, saturated). Log entry notes/assumptions/52.md (DESIGN CHOICE). -/
def shiftLeft (t : Bool × Nat) (x : Int) (n : Nat) : Int :=
  if t.2 ≤ n then 0 else ofTyped t (field t.2 x * 2 ^ n % 2 ^ t.2)

/-- VSHR of one element (R96): arithmetic for signed types, logical for unsigned ones. -/
def shiftRight (t : Bool × Nat) (x : Int) (n : Nat) : Int :=
  if t.2 ≤ n then (if t.1 && x < 0 then -1 else 0) else x / 2 ^ n

/-- The predicate of VCMP (R97, R127): 0 EQ, 1 NE, 2 LT, 3 LE, 4 GT, 5 GE. -/
def compare (fn : Nat) (lt eq gt nan : Bool) : Bool :=
  if nan then fn = 1
  else match fn with
    | 0 => eq
    | 1 => !eq
    | 2 => lt
    | 3 => lt || eq
    | 4 => gt
    | _ => gt || eq

/-- VCMP of two values (R97). -/
def compareEV (fn : Nat) : EV → EV → Bool
  | .f a, .f b => compare fn (FV.lt a b) (FV.eqv a b) (FV.lt b a) (a.isNaN || b.isNaN)
  | .i a, .i b => compare fn (decide (a < b)) (decide (a = b)) (decide (b < a)) false
  | _, _ => false

/-! ### Scans and segments -/

/-- A running value of a scan or reduction: ADD, MAX, MIN or OR over exact values (R102). -/
def scanStep (op : Nat) (acc x : EV) : EV :=
  match op with
  | 0 => binary FV.add (· + ·) acc x
  | 1 => binary FV.max max acc x
  | 2 => binary FV.min min acc x
  | _ => binary (fun a _ => a) (bitwise Nat.lor) acc x

/-- The identity of a scan for a source roving (R102): an integer one is that of the source's type, also where the destination's differs, into which it then
saturates (DESIGN CHOICE). Log entry notes/assumptions/52.md (DESIGN CHOICE). -/
def scanIdentity (op : Nat) (r : Roving) : EV :=
  if r.cls = 0 then (match op with
    | 1 => .f (.inf true)
    | 2 => .f (.inf false)
    | _ => .f .zero)
  else
    let (s, w) := r.intType
    .i (match op with
      | 1 => if s then -(2 ^ (w - 1)) else 0
      | 2 => if s then 2 ^ (w - 1) - 1 else 2 ^ w - 1
      | _ => 0)

/-- The formats of VSCAN and VSRED (R95, R102). -/
def scanFormats (op : Nat) (x y : Roving) : Bool :=
  if op = 3 then (x.cls = 1 && y.cls = 1) || (x.cls = 2 && y.cls = 2) else sameClass [x, y]

/-- The segments of the first `n` elements, as first element and end (R101). -/
def segments (r : Roving) (mem : Mem) (n : Nat) : List (Nat × Nat) :=
  let heads := (List.range n).filter fun i => r.head mem i
  heads.zip (heads.tail ++ [n])

/-- The bytes read for element `i` of a segmented source. -/
def segReads (r : Roving) (i : Nat) : List (Nat × Nat) :=
  r.range i :: (if r.segsrc = 1 then [(r.seg + i / 8, 1)] else [])

end Sys2Proof.Machine
end

