-- ==== Sys2Proof/Machine/Stream.lean ====
section
/-!
DEFINITION. Class V: the stream engine's instructions (R95 to R107, R135, R136) and their completion (R93).
-/

namespace Sys2Proof.Machine

/-! ### Arithmetic -/

/-- VADD (R96): a + b. -/
def execVadd (c : Fin 1024) (w : Word) (s : State) : Host.Outcome State Fault Refusal :=
  runWork (coreDom c) (fun wk => wk.issueV c w 0x40 false (planBinary w FV.add (· + ·))) s

/-- VSUB (R96): a - b. -/
def execVsub (c : Fin 1024) (w : Word) (s : State) : Host.Outcome State Fault Refusal :=
  runWork (coreDom c) (fun wk => wk.issueV c w 0x41 false (planBinary w FV.sub (· - ·))) s

/-- VMUL (R96): a × b. -/
def execVmul (c : Fin 1024) (w : Word) (s : State) : Host.Outcome State Fault Refusal :=
  runWork (coreDom c) (fun wk => wk.issueV c w 0x42 false (planBinary w FV.mul (· * ·))) s

/-- What VFMA does (R96). -/
def planVfma (w : Word) (k : Core) (mem : Mem) (x : Nat → Nat) : VPlan :=
  let a := k.roving (Op.srcA w)
  let b := k.roving (Op.srcB w)
  let e := k.roving (Op.srcC w)
  elementwise k w [a, b, e] (sameClass [k.roving (Op.dst w), a, b, e]) true x mem fun i =>
    binary FV.add (· + ·) (binary FV.mul (· * ·) (a.value mem i) (b.value mem i)) (e.value mem i)

/-- VFMA (R96): a × b + c with one rounding. -/
def execVfma (c : Fin 1024) (w : Word) (s : State) : Host.Outcome State Fault Refusal :=
  runWork (coreDom c) (fun wk => wk.issueV c w 0x43 false (planVfma w)) s

/-- VMAX (R97). -/
def execVmax (c : Fin 1024) (w : Word) (s : State) : Host.Outcome State Fault Refusal :=
  runWork (coreDom c) (fun wk => wk.issueV c w 0x44 false (planBinary w FV.max fun a b => if a < b then b else a)) s

/-- VMIN (R97). -/
def execVmin (c : Fin 1024) (w : Word) (s : State) : Host.Outcome State Fault Refusal :=
  runWork (coreDom c) (fun wk => wk.issueV c w 0x45 false (planBinary w FV.min fun a b => if b < a then b else a)) s

/-- VABS (R96): the absolute value. -/
def execVabs (c : Fin 1024) (w : Word) (s : State) : Host.Outcome State Fault Refusal :=
  runWork (coreDom c) (fun wk => wk.issueV c w 0x46 false (planUnary w FV.abs fun a => if a < 0 then -a else a)) s

/-- VNEG (R96): the negation. -/
def execVneg (c : Fin 1024) (w : Word) (s : State) : Host.Outcome State Fault Refusal :=
  runWork (coreDom c) (fun wk => wk.issueV c w 0x47 false (planUnary w FV.neg fun a => -a)) s

/-- Rovings of one class that takes part in bitwise operations: integer or BIT (R96). -/
def bitClass (l : List Roving) : Bool := (l.all (·.cls = 1)) || l.all (·.cls = 2)

/-- The value of VBIT: AND, OR, XOR on exact integers, and NOT within the source's type (R96, R127). -/
def bitValue (fn : Nat) (t : Bool × Nat) (a b : Int) : Int :=
  match fn with
  | 0 => bitwise Nat.land a b
  | 1 => bitwise Nat.lor a b
  | 2 => bitwise Nat.xor a b
  | _ => ofTyped t (2 ^ t.2 - 1 - field t.2 a)

/-- What VBIT does (R96). -/
def planVbit (w : Word) (k : Core) (mem : Mem) (x : Nat → Nat) : VPlan :=
  let a := k.roving (Op.srcA w)
  let b := k.roving (Op.srcB w)
  let y := k.roving (Op.dst w)
  if Op.fn w = 3 then
    elementwise k w [a] (bitClass [y, a] && Op.srcB w = 0) false x mem fun i =>
      .i (bitValue 3 a.intType (a.int mem i) 0)
  else
    elementwise k w [a, b] (bitClass [y, a, b]) false x mem fun i =>
      .i (bitValue (Op.fn w) a.intType (a.int mem i) (b.int mem i))

/-- VBIT (R96): VAND, VOR, VXOR or VNOT by FN. VNOT has no second source, and its SB field must be zero (R135). -/
def execVbit (c : Fin 1024) (w : Word) (s : State) : Host.Outcome State Fault Refusal :=
  runWork (coreDom c) (fun wk => wk.issueV c w 0x48 false (planVbit w)) s

/-- The plan of a shift (R95, R96): an integer roving by the code of b as an unsigned number; b may be a float roving. Log entry notes/assumptions/52.md (DEDUCED). -/
def planShift (w : Word) (f : Bool × Nat → Int → Nat → Int) (k : Core) (mem : Mem) (x : Nat → Nat) : VPlan :=
  let a := k.roving (Op.srcA w)
  let b := k.roving (Op.srcB w)
  elementwise k w [a, b] ([k.roving (Op.dst w), a].all (·.cls = 1) && decide (b.cls ≤ 1)) false x mem fun i =>
    .i (f a.intType (a.int mem i) (b.code mem i))

/-- VSHL (R96). -/
def execVshl (c : Fin 1024) (w : Word) (s : State) : Host.Outcome State Fault Refusal :=
  runWork (coreDom c) (fun wk => wk.issueV c w 0x49 false (planShift w shiftLeft)) s

/-- VSHR (R96): arithmetic for signed types and logical for unsigned ones. -/
def execVshr (c : Fin 1024) (w : Word) (s : State) : Host.Outcome State Fault Refusal :=
  runWork (coreDom c) (fun wk => wk.issueV c w 0x4A false (planShift w shiftRight)) s

/-- What VCMP does (R97). -/
def planVcmp (w : Word) (k : Core) (mem : Mem) (_x : Nat → Nat) : VPlan :=
  let a := k.roving (Op.srcA w)
  let b := k.roving (Op.srcB w)
  rawElementwise k w [a, b] (sameClass [a, b] && (k.roving (Op.dst w)).fmt = 12) fun i =>
    flag (compareEV (Op.fn w) (a.value mem i) (b.value mem i))

/-- VCMP (R97): the predicate FN of a and b into a BIT roving. -/
def execVcmp (c : Fin 1024) (w : Word) (s : State) : Host.Outcome State Fault Refusal :=
  runWork (coreDom c) (fun wk => wk.issueV c w 0x4B false (planVcmp w)) s

/-- What VSEL does (R96). -/
def planVsel (w : Word) (k : Core) (mem : Mem) (_x : Nat → Nat) : VPlan :=
  let m := k.roving (Op.srcA w)
  let a := k.roving (Op.srcB w)
  let b := k.roving (Op.srcC w)
  let y := k.roving (Op.dst w)
  rawElementwise k w [m, a, b] (m.fmt = 12 && a.fmt = y.fmt && b.fmt = y.fmt && y.fmt ≠ 5) fun i =>
    if m.code mem i = 1 then a.code mem i else b.code mem i

/-- VSEL (R96): m ? a : b on codes of one format. -/
def execVsel (c : Fin 1024) (w : Word) (s : State) : Host.Outcome State Fault Refusal :=
  runWork (coreDom c) (fun wk => wk.issueV c w 0x4C false (planVsel w)) s

/-- What VCVT does (R95). -/
def planVcvt (w : Word) (k : Core) (mem : Mem) (x : Nat → Nat) : VPlan :=
  let a := k.roving (Op.srcA w)
  elementwise k w [a] ((k.roving (Op.dst w)).cls ≠ 3) true x mem fun i => a.value mem i

/-- VCVT (R95): each element in the destination's format; FP4 only as source. -/
def execVcvt (c : Fin 1024) (w : Word) (s : State) : Host.Outcome State Fault Refusal :=
  runWork (coreDom c) (fun wk => wk.issueV c w 0x4D false (planVcvt w)) s

/-- One block of VQFP4: the scale and the 32 codes, and whether the block is NaN (R100). -/
def quantise (v : Nat → FV) : Nat × (Nat → Nat) × Bool :=
  let l := (List.range 32).map v
  if l.any FV.nonFinite then (0xFF, fun _ => 0, true)
  else
    let top : Option Int := l.foldl (fun r x =>
      match x with
      | .fin _ m e => if m = 0 then r else
          let t := (bitLength m : Int) - 1 + e
          some (match r with
            | some y => max y t
            | none => t)
      | _ => r) none
    let x : Int := match top with
      | some t => max (t - 2) (-127)
      | none => -127
    ((x + 127).toNat, fun k => (narrow .e2m1 true none ((v k).scale (-x))).code, false)

/-- What VQFP4 does (R100). -/
def planVqfp4 (w : Word) (k : Core) (mem : Mem) (_x : Nat → Nat) : VPlan :=
  let a := k.roving (Op.srcA w)
  let y := k.roving (Op.dst w)
  let v (i : Nat) : FV := match a.value mem i with
    | .f x => x
    | _ => .zero
  { rawElementwise k w [a] (y.fmt = 5 && (a.fmt = 0 || a.fmt = 1) && y.count % 32 = 0) (fun _ => 0) with
    run := fun bound =>
      (List.range (bound / 32)).foldl (fun o b =>
        let (sc, q, nan) := quantise fun j => v (32 * b + j)
        { o with writes := ((List.range 32).map fun j => y.put (32 * b + j) (q j)).reverse ++
                   ElemWr.mk (y.scale + b) 0 8 sc :: o.writes
                 nan := o.nan || nan }) { gen := k.vgen.toNat } }

/-- VQFP4 (R100): blocks of 32 FP32 or BF16 elements to FP4 with E8M0 scales. -/
def execVqfp4 (c : Fin 1024) (w : Word) (s : State) : Host.Outcome State Fault Refusal :=
  runWork (coreDom c) (fun wk => wk.issueV c w 0x4E false (planVqfp4 w)) s

/-- What VFN does (R98). -/
def planVfn (w : Word) (k : Core) (mem : Mem) (x : Nat → Nat) : VPlan :=
  let a := k.roving (Op.srcA w)
  elementwise k w [a] (a.cls = 0 && (k.roving (Op.dst w)).cls = 0) true x mem fun i =>
    match a.value mem i with
    | .f v => .fn (match Op.fn w with
        | 0 => fnExp2 v
        | 1 => fnLog2 v
        | 2 => fnRcp v
        | 3 => fnRsq v
        | _ => fnSqrt v)
    | v => v

/-- VFN (R98): 0 VEXP2, 1 VLOG2, 2 VRCP, 3 VRSQ, 4 VSQRT, rounded once. -/
def execVfn (c : Fin 1024) (w : Word) (s : State) : Host.Outcome State Fault Refusal :=
  runWork (coreDom c) (fun wk => wk.issueV c w 0x4F false (planVfn w)) s

/-! ### Scans and segments -/

/-- What VSCAN does (R102). -/
def planVscan (w : Word) (k : Core) (mem : Mem) (nanInt : Nat → Nat) : VPlan :=
  let x := k.roving (Op.srcA w)
  let y := k.roving (Op.dst w)
  let op := Op.fn w
  { elementwise k w [x] (scanFormats op x y) true nanInt mem (fun _ => .i 0) with
    srcs := [{ r := x, n := if !x.packed && x.stride = 0 then min 1 y.count else y.count, flags := y.count }]
    inPlace := false
    reads := segReads x
    run := fun bound =>
      ((List.range bound).foldl (fun (r : VOut × EV) i =>
        let acc := if x.head mem i then scanIdentity op x else r.2
        let v := x.value mem i
        if Op.flagP w then
          let acc := scanStep op acc v
          (r.1.emit y (Op.sat w) (Op.sr w) (nanInt i) i acc, acc)
        else (r.1.emit y (Op.sat w) (Op.sr w) (nanInt i) i acc, scanStep op acc v))
        ({ gen := k.vgen.toNat }, scanIdentity op x)).1 }

/-- VSCAN (R102): the segmented prefix, inclusive with P. -/
def execVscan (c : Fin 1024) (w : Word) (s : State) : Host.Outcome State Fault Refusal :=
  runWork (coreDom c) (fun wk => wk.issueV c w 0x50 false (planVscan w)) s

/-- The rovings and bounds of a reduction per segment: what VSRED and VSARG share (R103, R104). `recs` says that the destination holds
8-byte records. A segment whose end is the first element of the group with the uncorrectable word counts as complete by the flag bit that memory holds there (R93;
DESIGN CHOICE). Log entry notes/assumptions/52.md (DESIGN CHOICE). -/
def planReduce (k : Core) (w : Word) (mem : Mem) (ok recs : Bool) (fromSegment : VOut → Nat → Nat × Nat → VOut) : VPlan :=
  let x := k.roving (Op.srcA w)
  let y := k.roving (Op.dst w)
  let segs := segments x mem x.count
  let kept := min segs.length y.count
  { ok
    srcs := [{ r := x, n := x.count, flags := x.count }]
    dests := [{ r := y, n := kept, extent := if recs then some (if kept = 0 then [] else [(y.base, 8 * kept)]) else none }]
    inPlace := false, n := x.count, reads := segReads x
    run := fun bound =>
      let o := ((segs.take y.count).zipIdx.filter fun e => decide (e.1.2 ≤ bound)).foldl
        (fun o e => fromSegment o e.2 e.1) { gen := k.vgen.toNat }
      { o with result := some segs.length, trunc := (segs.drop y.count).any fun e => decide (e.2 ≤ bound)
               count := if y.upd then some (Op.dst w, kept) else none } }

/-- What VSRED does (R103). Log entry notes/assumptions/52.md (DEDUCED) and notes/assumptions/71.md (DEDUCED). -/
def planVsred (w : Word) (k : Core) (mem : Mem) (nanInt : Nat → Nat) : VPlan :=
  let x := k.roving (Op.srcA w)
  let y := k.roving (Op.dst w)
  let op := Op.fn w
  planReduce k w mem (scanFormats op x y && (!Op.sr w || y.fmt = 1 || y.fmt = 2) && (!Op.sat w || y.cls = 0)) false fun o j e =>
    o.emit y (Op.sat w) (Op.sr w) (nanInt (e.2 - 1)) j
      ((List.range (e.2 - e.1)).foldl (fun acc i => scanStep op acc (x.value mem (e.1 + i))) (scanIdentity op x))

/-- VSRED (R103): one reduction per segment, and the number of segments. -/
def execVsred (c : Fin 1024) (w : Word) (s : State) : Host.Outcome State Fault Refusal :=
  runWork (coreDom c) (fun wk => wk.issueV c w 0x51 true (planVsred w)) s

/-- The winner record of a segment (R104, R73). -/
def argRecord (x : Roving) (mem : Mem) (maxMode : Bool) (e : Nat × Nat) : Nat × Bool :=
  let ids := (List.range (e.2 - e.1)).map (e.1 + ·)
  if x.cls = 0 then
    let cand (i : Nat) : FV × Bool × Nat := match x.value mem i with
      | .f v => (v, v.isNaN, i)
      | _ => (.zero, false, i)
    let r := winner FV.lt maxMode (cand e.1) (ids.tail.map cand)
    ((narrow .fp32 false none r.1).code + bits r.2.2 0 31 * 2 ^ 32 + flag r.2.1 * 2 ^ 63, r.2.1)
  else
    let cand (i : Nat) : Int × Bool × Nat := (x.int mem i, false, i)
    let r := winner (fun a b => decide (a < b)) maxMode (cand e.1) (ids.tail.map cand)
    (field 32 r.1 + bits r.2.2 0 31 * 2 ^ 32, false)

/-- What VSARG does (R104). -/
def planVsarg (w : Word) (k : Core) (mem : Mem) (_x : Nat → Nat) : VPlan :=
  let x := k.roving (Op.srcA w)
  let y := k.roving (Op.dst w)
  planReduce k w mem (sameClass [x]) true fun o j e =>
    let r := argRecord x mem (Op.fn w = 0) e
    { o with writes := ElemWr.mk (y.base + 8 * j) 0 64 r.1 :: o.writes, nan := o.nan || r.2 }

/-- VSARG (R104): one winner record per segment, 8 bytes each from the destination's BASE up. -/
def execVsarg (c : Fin 1024) (w : Word) (s : State) : Host.Outcome State Fault Refusal :=
  runWork (coreDom c) (fun wk => wk.issueV c w 0x52 true (planVsarg w)) s

/-! ### Compress, expand, gather and scatter -/

/-- The active indices of a mask below `n`. -/
def actives (m : Roving) (mem : Mem) (n : Nat) : List Nat := (List.range n).filter fun i => m.code mem i = 1

/-- Elements that a source of COUNT or STRIDE 0 touches up to `n`. -/
def touchCount (r : Roving) (n : Nat) : Nat := if !r.packed && r.stride = 0 then min 1 n else n

/-- What VCMPRS does (R105). -/
def planVcmprs (w : Word) (k : Core) (mem : Mem) (_x : Nat → Nat) : VPlan :=
  let x := k.roving (Op.srcA w)
  let m := k.roving (Op.srcB w)
  let y := k.roving (Op.dst w)
  let act := actives m mem x.count
  { ok := m.fmt = 12 && x.fmt = y.fmt && x.fmt ≠ 5 && decide (x.count ≤ m.count)
    srcs := [{ r := x, n := touchCount x x.count }, { r := m, n := x.count }]
    dests := [{ r := y, n := min act.length y.count }]
    inPlace := true, n := x.count
    reads := fun i => [m.range i, x.range i]
    run := fun bound =>
      { gen := k.vgen.toNat
        writes := (((act.take y.count).zipIdx.filter fun e => decide (e.1 < bound)).map fun e =>
          y.put e.2 (x.code mem e.1)).reverse
        result := some act.length, trunc := (act.drop y.count).any fun i => decide (i < bound)
        count := if y.upd then some (Op.dst w, min act.length y.count) else none } }

/-- VCMPRS (R105): the active elements, dense, up to the destination's capacity, and their number. -/
def execVcmprs (c : Fin 1024) (w : Word) (s : State) : Host.Outcome State Fault Refusal :=
  runWork (coreDom c) (fun wk => wk.issueV c w 0x53 true (planVcmprs w)) s

/-- What VEXPND does (R106). -/
def planVexpnd (w : Word) (k : Core) (mem : Mem) (_x : Nat → Nat) : VPlan :=
  let x := k.roving (Op.srcA w)
  let m := k.roving (Op.srcB w)
  let y := k.roving (Op.dst w)
  let n := y.count
  let rank (i : Nat) : Nat := (actives m mem i).length
  let fill := (k.reg (Op.srs w)).toNat % 2 ^ (match y.elem with
    | some e => e.width
    | none => 1)
  let used := min (rank n) x.count
  let act := actives m mem n
  { ok := m.fmt = 12 && x.fmt = y.fmt && x.fmt ≠ 5 && decide (n ≤ m.count)
    srcs := [{ r := x, n := touchCount x used }, { r := m, n }]
    dests := [{ r := y, n, extent := if Op.flagP w then none else some (match act with
                | [] => []
                | i :: t => [y.between i (t.getLast?.getD i)]) }]
    inPlace := false, n
    reads := fun i => m.range i :: (if m.code mem i = 1 ∧ rank i < x.count then [x.range (rank i)] else [])
    run := fun bound =>
      { gen := k.vgen.toNat
        writes := ((List.range bound).filterMap fun i =>
          if m.code mem i = 1 then
            some (y.put i (if rank i < x.count then x.code mem (rank i) else fill))
          else if Op.flagP w then some (y.put i fill) else none).reverse
        result := some used, trunc := decide (x.count < rank bound) } }

/-- VEXPND (R106): dense elements placed at the active positions; FILL with P writes the others, MERGE leaves them. -/
def execVexpnd (c : Fin 1024) (w : Word) (s : State) : Host.Outcome State Fault Refusal :=
  runWork (coreDom c) (fun wk => wk.issueV c w 0x54 true (planVexpnd w)) s

/-- The indices of VGATH and VSCAT up to the first that is out of the table (R107), with whether there is one. -/
def goodIndices (t idx : Roving) (mem : Mem) (n : Nat) : List Nat × Bool :=
  let l := (List.range n).map fun i => idx.code mem i
  let g := l.takeWhile fun j => decide (j < t.count)
  (g, decide (g.length < n))

/-- The range that the indexed elements of a table touch. -/
def tableSpan (t : Roving) (l : List Nat) : List (Nat × Nat) :=
  match l with
  | [] => []
  | j :: rest =>
    let lo := rest.foldl (fun a j => min a (t.addr j)) (t.addr j)
    let hi := rest.foldl (fun a j => max a (t.addr j)) (t.addr j)
    [(lo, hi + t.size - lo)]

/-- What VGATH does (R107): it touches no element after the one whose index stops it (R90). -/
def planVgath (w : Word) (k : Core) (mem : Mem) (_x : Nat → Nat) : VPlan :=
  let t := k.roving (Op.srcA w)
  let idx := k.roving (Op.srcB w)
  let y := k.roving (Op.dst w)
  let n := y.count
  let (g, stop) := goodIndices t idx mem n
  { ok := (idx.fmt = 10 || idx.fmt = 11) && t.fmt = y.fmt && !t.packed && idx.covers n
    srcs := [{ r := t, n := 0, extent := some (tableSpan t g) }, { r := idx, n := touchCount idx (min n (g.length + 1)) }]
    dests := [{ r := y, n := g.length }]
    inPlace := false, n
    reads := fun i =>
      if g.length < i then [] else idx.range i :: (match g[i]? with
        | some j => [t.range j]
        | none => [])
    run := fun bound =>
      { gen := k.vgen.toNat
        writes := ((g.take bound).zipIdx.map fun e => y.put e.2 (t.code mem e.1)).reverse
        status := if stop && decide (g.length < bound) then .formatFault else .ok } }

/-- VGATH (R107): t[idx[i]]. An index past the table stops the operation at that element with FORMAT_FAULT. -/
def execVgath (c : Fin 1024) (w : Word) (s : State) : Host.Outcome State Fault Refusal :=
  runWork (coreDom c) (fun wk => wk.issueV c w 0x55 false (planVgath w)) s

/-- What VSCAT does (R107): it touches no element after the one whose index stops it (R90). -/
def planVscat (w : Word) (k : Core) (mem : Mem) (_x : Nat → Nat) : VPlan :=
  let x := k.roving (Op.srcA w)
  let idx := k.roving (Op.srcB w)
  let t := k.roving (Op.dst w)
  let n := idx.count
  let (g, stop) := goodIndices t idx mem n
  { ok := (idx.fmt = 10 || idx.fmt = 11) && t.fmt = x.fmt && !t.packed && x.covers n
    srcs := [{ r := x, n := touchCount x g.length }, { r := idx, n := touchCount idx (min n (g.length + 1)) }]
    dests := [{ r := t, n := 0, extent := some (tableSpan t g) }]
    inPlace := false, n
    reads := fun i =>
      if g.length < i then [] else idx.range i :: (if i < g.length then [x.range i] else [])
    run := fun bound =>
      { gen := k.vgen.toNat
        writes := ((g.take bound).zipIdx.map fun e => t.put e.1 (x.code mem e.2)).reverse
        status := if stop && decide (g.length < bound) then .formatFault else .ok } }

/-- VSCAT (R107): t[idx[i]] = x[i], the highest i winning. -/
def execVscat (c : Fin 1024) (w : Word) (s : State) : Host.Outcome State Fault Refusal :=
  runWork (coreDom c) (fun wk => wk.issueV c w 0x56 false (planVscat w)) s

/-! ### Generator and rovings -/

/-- Queue a class V instruction that completes by itself in program order, and complete it if it is the oldest (R119, R120). -/
def Dev.pushAutoV (d : Dev) (c : Nat) (k : Core) (st : Status) (result : Option (Nat × Word) := none) : Dev :=
  Dev.retireAuto 8 c 1 (d.setCore c (k.pushV { seq := k.seq, auto := true, status := st, result := result
                                               flags := mkFlags false false false false (st = .eccUncorrected) (st = .formatFault) }))

/-- VSEED (R99): the generator is loaded from s[SRS]; a zero seed completes with FORMAT_FAULT and leaves it. -/
def execVseed (c : Fin 1024) (w : Word) (s : State) : Host.Outcome State Fault Refusal :=
  runDev (coreDom c) (fun d => d.issue c w 0x57 fun k d =>
    if 8 ≤ k.vq.length then d
    else
      let v := k.reg (Op.srs w)
      if v = 0 then d.pushAutoV c k .formatFault else d.pushAutoV c { k with vgen := v } .ok) s

/-- The oldest stream operation writes its last group and completes with its status, counts and flags (R93). -/
def execStreamOpComplete (c : Fin 1024) (s : State) : Host.Outcome State Fault Refusal :=
  runDev (coreDom c) (fun d => d.retire c 1 fun _ => true) s

/-- The address of VRLD and VRST: s[SRS] + IMM × 32 (R136). -/
def Core.rovAddress (k : Core) (w : Word) : Nat := (k.reg (Op.srs w) + BitVec.ofInt 64 (Op.vimm w * 32)).toNat

/-- VRLD (R136): roving DST is loaded whole from 32 bytes of the core's own stores. -/
def execVrld (c : Fin 1024) (w : Word) (s : State) : Host.Outcome State Fault Refusal :=
  runWork (coreDom c) (fun wk => wk.issue c w 0x58 fun k wk =>
    let a := k.rovAddress w
    if 8 ≤ k.vq.length then wk
    else if a % 32 ≠ 0 || !inOwn c a 32 then wk.on (·.pushAutoV c k .formatFault)
    else match wk.coreLoad c (wk.dev.partOfCore c) a 32 with
      | (wk, .ok, _, bs) =>
        let i := Op.dst w
        let k := (List.range 4).foldl (fun k j => k.setRovWord i j (leNat ((bs.drop (8 * j)).take 8))) k
        wk.on (·.pushAutoV c k .ok)
      | (wk, st, _, _) => wk.on (·.pushAutoV c k st)) s

/-- VRST (R136): roving SA is written whole to 32 bytes of the core's own stores. -/
def execVrst (c : Fin 1024) (w : Word) (s : State) : Host.Outcome State Fault Refusal :=
  runWork (coreDom c) (fun wk => wk.issue c w 0x59 fun k wk =>
    let a := k.rovAddress w
    if 8 ≤ k.vq.length then wk
    else if a % 32 ≠ 0 || !inOwn c a 32 then wk.on (·.pushAutoV c k .formatFault)
    else
      let bs := (List.range 4).flatMap fun j => leBytes 8 (k.rovWord (Op.srcA w) j)
      match wk.coreStore c (wk.dev.partOfCore c) a bs with
      | (wk, st, _) => wk.on (·.pushAutoV c k st)) s

/-- VRSET (R136): field FN of roving DST takes the low bits of s[SRS]; a value too wide completes with FORMAT_FAULT. -/
def execVrset (c : Fin 1024) (w : Word) (s : State) : Host.Outcome State Fault Refusal :=
  runDev (coreDom c) (fun d => d.issue c w 0x5A fun k d =>
    let (j, lo, n) := rovField (Op.fn w)
    let v := (k.reg (Op.srs w)).toNat
    if 8 ≤ k.vq.length then d
    else if 2 ^ n ≤ v then d.pushAutoV c k .formatFault
    else d.pushAutoV c (k.setRovWord (Op.dst w) j (putBits (k.rovWord (Op.dst w) j) lo n v)) .ok) s

/-- VRGET (R136): SRD takes field FN of roving SA, STRIDE sign-extended. -/
def execVrget (c : Fin 1024) (w : Word) (s : State) : Host.Outcome State Fault Refusal :=
  runDev (coreDom c) (fun d => d.issue c w 0x5B fun k d =>
    let (j, lo, n) := rovField (Op.fn w)
    let v := bits (k.rovWord (Op.srcA w) j) lo n
    let x : Word := if Op.fn w = 4 then BitVec.ofInt 64 (signed 32 v) else BitVec.ofNat 64 v
    if 8 ≤ k.vq.length then d else d.pushAutoV c k .ok (some (Op.srd w, x))) s

/-- A request of classes 4 to 6 that has waited 128 cycles for a bank of core `c`'s stores is promoted and counted (R83). -/
def execRequestPromotion (c : Fin 1024) (s : State) : Host.Outcome State Fault Refusal :=
  runDev (coreDom c) (fun d => d.count .STR_PROMO c) s

end Sys2Proof.Machine
end

