-- ==== Sys2Proof/Machine/Mover.lean ====
section
/-!
DEFINITION. Class X: XDMA, XILD and XCNT (R137 to R139), the descriptors of the DMA mover (R108 to R114) with the transposing views
(R164), and the loading of the instruction store (R138).
-/

namespace Sys2Proof.Machine

/-- An address of the local map as a signed sum gives it; a negative one lies in no region. -/
def localAddr (a : Int) : Nat := if a < 0 then 2 ^ 63 else a.toNat

/-- What an access of the mover meets; views only where the descriptor's kind takes them (R112, R164). -/
def Dev.reachVia (d : Dev) (via : Option Nat) (who : Option Nat) (a n : Nat) (views : Bool) : Status × Nat :=
  if !views && isView a then (.formatFault, a) else d.reachFrom via who a n

/-! ### Descriptors -/

/-- A descriptor's fields (R109). Log entry notes/assumptions/53.md (DEDUCED). -/
structure Desc where
  src : Nat
  sync : Nat
  dst : Nat
  comp : Nat
  compEn : Bool
  rowlen : Nat
  rows : Nat
  xpose : Nat
  kind : Nat
  sig : Bool
  fence : Bool
  reserved : Nat
  sstride : Int
  dstride : Int
  idx : Nat
  deriving DecidableEq, Repr

/-- The fields of a descriptor's four words (R109). -/
def Desc.of (l : List Nat) : Desc :=
  let w (i : Nat) : Nat := (l[i]?).getD 0
  { src := bits (w 0) 0 48, sync := bits (w 0) 48 16, dst := bits (w 1) 0 48, comp := bits (w 1) 48 15
    compEn := (w 1).testBit 63, rowlen := bits (w 2) 0 24, rows := bits (w 2) 24 24, xpose := bits (w 2) 48 2
    kind := bits (w 2) 50 2, sig := (w 2).testBit 52, fence := (w 2).testBit 53, reserved := bits (w 2) 54 10
    sstride := signed 32 (bits (w 3) 0 32), dstride := signed 32 (bits (w 3) 32 32), idx := bits (w 3) 0 48 }

namespace Desc

/-- The checks of R110 to R112 that a descriptor meets when it starts; `lists` says where an index list may lie. -/
def okIn (x : Desc) (lists : Nat → Nat → Bool) : Bool :=
  let m16 (n : Nat) : Bool := n % 16 = 0
  let b := if x.xpose = 2 then 2 else 1
  m16 x.src && m16 x.dst && m16 x.rowlen && x.rowlen ≠ 0 && x.rows ≠ 0 && x.xpose ≠ 3 && x.kind ≠ 3 && x.reserved = 0 &&
  if x.kind = 0 then
    x.sstride % 16 = 0 && x.dstride % 16 = 0 &&
    if x.xpose = 0 then decide (x.rows = 1) || decide (x.rowlen ≤ x.dstride.natAbs)
    else
      x.rows % 32 = 0 && x.rowlen % (32 * b) = 0 && decide (x.rows * b ≤ x.dstride.natAbs)
  else
    m16 x.idx && x.xpose = 0 && lists x.idx (4 * x.rows) &&
    !isView (if x.kind = 1 then x.src else x.dst) &&
    !(decide ((if x.kind = 1 then x.src else x.dst) < hbmTop) && x.rowlen % 32 ≠ 0)

/-- The checks that a descriptor of core `c` meets: its index list lies in the core's own stores (R109). -/
def ok (x : Desc) (c : Nat) : Bool := x.okIn (inOwn c)

end Desc

/-- How far a descriptor has come; `held` says that a margin run holds one of its accesses back (R176). -/
structure Moving where
  wk : Work
  status : Status := .ok
  bytes : Nat := 0
  fault : Nat := 0
  bonds : List Nat := []
  held : Bool := false
  deriving DecidableEq, Repr

namespace Moving

/-- The unit has failed at an address; nothing after it moves (R110). -/
def fail (m : Moving) (s : Status) (x : Nat) : Moving := { m with status := s, fault := x }

/-- The bytes of a row, from `a` and `b` up, have crossed bonds of core `c` (R40, R45). -/
def cross (m : Moving) (c n a b : Nat) : Moving :=
  { m with bonds := (m.bonds ++ [a, a + n - 1, b, b + n - 1].flatMap (Dev.bondsOf (Dev.coreUnit c))).eraseDups }

/-- Move one row or record of `n` bytes for unit `c`, unless an earlier one failed (R110). Of two failures at issue the source's is reported, whatever its status
(DESIGN CHOICE). A write that fails part way has placed the rest (R113). Log entry notes/assumptions/53.md (DESIGN CHOICE). -/
def row (m : Moving) (who : Option Nat) (c : Nat) (src dst : Int) (n : Nat) (srcView dstView : Bool) : Moving :=
  let src := localAddr src
  let dst := localAddr dst
  let via := Dev.coreUnit c
  if m.status ≠ .ok then m
  else
    let (s, x) := m.wk.dev.reachVia via who src n srcView
    let (t, y) := m.wk.dev.reachVia via who dst n dstView
    if s ≠ .ok then m.fail s x
    else if Dev.refused t then m.fail t y
    else if m.wk.dev.inMargin src n || (t = .ok && m.wk.dev.inMargin dst n) then { m with held := true }
    else match m.wk.loadFrom via who c src n with
      | (wk, .ok, _, bs) =>
        match wk.storeFrom via who c dst bs with
        | (wk, .ok, _) => { m with wk, bytes := m.bytes + n }.cross c n src dst
        | (wk', s, x) => { m with wk := wk', bytes := m.bytes + wk.bytesPlaced via who dst n }.fail s x
      | (wk, s, x, _) => { m with wk }.fail s x

/-- Move one 32 × 32 tile of a transposed COPY whole, unless it is denied or an earlier one failed (R110, R111). -/
def tile (m : Moving) (who : Option Nat) (c b : Nat) (x : Desc) (i j : Nat) : Moving :=
  let n := 32 * b
  let src (k : Nat) : Nat := localAddr (x.src + (32 * i + k : Nat) * x.sstride + (n * j : Nat))
  let dst (r : Nat) : Nat := localAddr (x.dst + (32 * j + r : Nat) * x.dstride + (n * i : Nat))
  let via := Dev.coreUnit c
  let all := (List.range 32).map src ++ (List.range 32).map dst
  if m.status ≠ .ok then m
  else match all.findSome? fun a => match m.wk.dev.reachVia via who a n true with
      | (.ok, _) => none
      | r => some r with
  | some (s, y) => m.fail s y
  | none =>
    if all.any fun a => m.wk.dev.inMargin a n then { m with held := true } else
    let mem := m.wk.mem
    let first := (List.range 32).findSome? fun k => (Mem.touched mem.bad (src k) n).map fun w => Nat.max (src k) (4 * w)
    match m.wk.meet who c ((List.range 32).map fun k => (src k, n)) with
    | (wk, some _) => { m with wk }.fail .eccUncorrected (first.getD 0)
    | (wk, none) =>
      (List.range 32).foldl (fun (m : Moving) r =>
        let bs := (List.range 32).flatMap fun k => mem.read (src k + r * b) b
        let m' := { m with bytes := m.bytes + m.wk.bytesPlaced via who (dst r) n }
        match m.wk.storeFrom via who c (dst r) bs with
        | (wk, .ok, _) => { m' with wk }.cross c n (src r) (dst r)
        | (wk, s, y) => if m.status = .ok then { m' with wk }.fail s y else { m' with wk }) { m with wk }

/-- The record number that entry `k` of an index list gives; none when its word is unreadable. -/
def index (m : Moving) (who : Option Nat) (c : Nat) (x : Desc) (k : Nat) : Moving × Nat :=
  if m.status ≠ .ok then (m, 0)
  else match m.wk.loadFrom (Dev.coreUnit c) who c (x.idx + 4 * k) 4 with
    | (wk, .ok, _, bs) => ({ m with wk }, leNat bs)
    | (wk, s, y, _) => ({ m with wk }.fail s y, 0)

/-- Move everything that a descriptor names, in order (R110 to R112). Log entry notes/assumptions/53.md (DEDUCED). -/
def run (m : Moving) (who : Option Nat) (c : Nat) (x : Desc) : Moving :=
  match x.kind with
  | 0 =>
    if x.xpose = 0 then
      (List.range x.rows).foldl (fun m (k : Nat) =>
        row m who c (x.src + (k : Nat) * x.sstride) (x.dst + (k : Nat) * x.dstride) x.rowlen true true) m
    else
      let b := x.xpose
      (List.range (x.rows / 32)).foldl (fun m i =>
        (List.range (x.rowlen / b / 32)).foldl (fun m j => tile m who c b x i j) m) m
  | 1 =>
    (List.range x.rows).foldl (fun m k =>
      let (m, i) := m.index who c x k
      row m who c (x.src + (i * x.rowlen : Nat)) (x.dst + (k * x.rowlen : Nat)) x.rowlen false true) m
  | _ =>
    (List.range x.rows).foldl (fun m k =>
      let (m, i) := m.index who c x k
      row m who c (x.src + (k * x.rowlen : Nat)) (x.dst + (i * x.rowlen : Nat)) x.rowlen true false) m

end Moving

/-! ### Loading the instruction store -/

/-- Load one instruction word: one with an uncorrectable error is loaded with its error, and one whose read fails stops the load (R138).
The flag says that the load has stopped. -/
def loadWord (c start src : Nat) (r : Work × Status × Bool) (j : Nat) : Work × Status × Bool :=
  let (wk, st, stop) := r
  let who := wk.dev.partOfCore c
  let put (wk : Work) (v : Word) (bad : Bool) : Work :=
    wk.on (·.modCore c fun k => { k with
      istore := k.istore.set (start + j) v
      ibad := if bad then insertNat (start + j) k.ibad else k.ibad.filter (· ≠ start + j) })
  if stop then (put wk 0 true, st, true)
  else match wk.coreLoad c who (src + 8 * j) 8 with
    | (wk, .ok, _, bs) => (put wk (BitVec.ofNat 64 (leNat bs)) false, st, false)
    | (wk, .eccUncorrected, _, _) => (put wk 0 true, st.orElse .eccUncorrected, false)
    | (wk, s, _, _) => (put wk 0 true, st.orElse s, true)

/-- Copy `n` instructions from `src` into the store of core `c` from index `start` up (R138). -/
def Work.loadProgram (wk : Work) (c start n src : Nat) : Work × Status :=
  let r := (List.range n).foldl (loadWord c start src) (wk, .ok, false)
  (r.1, r.2.1)

/-! ### Class X -/

/-- XDMA (R137): the descriptor at s[RA] is queued; an address that is not a multiple of 32 in the core's bobbin completes with FORMAT_FAULT. -/
def execXdma (c : Fin 1024) (w : Word) (s : State) : Host.Outcome State Fault Refusal :=
  runDev (coreDom c) (fun d => d.issue c w 0x60 fun k d =>
    let a := (k.reg (Op.ra w)).toNat
    if 16 ≤ k.xq.length then d
    else if a % 32 ≠ 0 || !inBobbin c a 32 then d.setCore c (k.record 2 .formatFault).advance
    else d.setCore c { k with xq := k.xq ++ [({ seq := k.seq, addr := a } : Dma)] }.bumpSeq.advance) s

/-- XILD (R138): s[RB] instructions from s[RA] into the store from IMM[12:0] up, as one descriptor of the mover; operands that
break the rule halt the core (R123). -/
def execXild (c : Fin 1024) (w : Word) (s : State) : Host.Outcome State Fault Refusal :=
  runDev (coreDom c) (fun d => d.issue c w 0x61 fun k d =>
    let a := (k.reg (Op.ra w)).toNat
    let n := (k.reg (Op.rb w)).toNat
    let start := bits (Op.imm w) 0 13
    let r := d.reachAt (d.partOfCore c) a
    if bits (Op.imm w) 13 19 ≠ 0 ∨ n = 0 ∨ 8192 < n ∨ 8192 < start + n ∨ a % 8 ≠ 0 ∨ r = .formatFault ∨ r = .partitionDenied then
      d.coreFault c .formatFault
    else if 16 ≤ k.xq.length then d
    else d.setCore c { k with xq := k.xq ++ [({ seq := k.seq, addr := a, load := some (start, n, a) } : Dma)] }.bumpSeq.advance) s

/-- XCNT (R139): RD takes the number of descriptors queued and running. -/
def execXcnt (c : Fin 1024) (w : Word) (s : State) : Host.Outcome State Fault Refusal :=
  runDev (coreDom c) (fun d => d.issueCore c w 0x62 fun k => (k.setReg (Op.rd w) (BitVec.ofNat 64 k.xq.length)).advance) s

/-- Change one descriptor of core `c`'s mover. -/
def Dev.modDma (d : Dev) (c seq : Nat) (f : Dma → Dma) : Dev :=
  d.modCore c fun k => { k with xq := k.xq.map fun x => if x.seq = seq then f x else x }

/-- Start a descriptor that has been read: the checks of R110, then the move; it waits for a margin run on a channel that it reaches (R176). -/
def Work.moveDma (wk : Work) (c : Nat) (x : Dma) (words : List Nat) : Work :=
  let desc := Desc.of words
  if !desc.ok c then
    let (f, d) := wk.dev.free 48
    { wk with dev := d.modDma c x.seq fun x => { x with running := true, words, status := .formatFault, faultAddr := f } }
  else
    let m := Moving.run { wk } (wk.dev.partOfCore c) c desc
    if m.held then wk
    else m.wk.on (·.modDma c x.seq fun x =>
      { x with running := true, words, status := m.status, bytes := m.bytes, faultAddr := m.fault, bonds := m.bonds })

/-- The mover of core `c` starts its oldest queued descriptor when fewer than four run (R114): it reads and checks it and moves the rows, records
or tiles (R110 to R112). One with FENCE waits for every earlier descriptor (R109). -/
def execDmaDescriptorStart (c : Fin 1024) (s : State) : Host.Outcome State Fault Refusal :=
  runWork (coreDom c) (fun wk =>
    let k := wk.dev.core c
    match k.xq.find? fun x => !x.running with
    | none => wk
    | some x =>
      if 4 ≤ (k.xq.filter (·.running)).length then wk
      else match x.load with
        | some (start, n, src) =>
          if wk.dev.margined (wk.dev.partOfCore c) src (8 * n) then wk else
          let (wk, st) := wk.loadProgram c start n src
          wk.on (·.modDma c x.seq fun x => { x with running := true, status := st, bonds := ([src, src + 8 * n - 1].flatMap (Dev.bondsOf (Dev.coreUnit c))).eraseDups })
        | none =>
          match wk.coreLoad c (wk.dev.partOfCore c) x.addr 32 with
          | (wk', .ok, _, bs) =>
            let words := (List.range 4).map fun i => leNat ((bs.drop (8 * i)).take 8)
            if (Desc.of words).fence && (k.xq.head?.map (·.seq)) ≠ some x.seq then wk
            else wk'.moveDma c x words
          | (wk, st, _, _) => wk.on (·.modDma c x.seq fun x => { x with running := true, readable := false, status := st })) s

/-- A running descriptor of core `c`, by its place among those whose signal is not yet on its way, has landed or failed (R113): the record, then the signal;
without one it completes here. -/
def execDmaDescriptorComplete (c : Fin 1024) (i : Fin 4) (s : State) : Host.Outcome State Fault Refusal :=
  runWork (coreDom c) (fun wk =>
    let k := wk.dev.core c
    match (k.xq.filter fun x => x.running && !x.sent)[i.val]? with
    | none => wk
    | some x =>
      if x.load.isSome || !x.readable then wk.on (·.retireDma c x.seq .ok)
      else
        let desc := Desc.of x.words
        let who := wk.dev.partOfCore c
        let outside := desc.sig && wk.dev.partOfSync desc.sync ≠ who
        let st := x.status.orElse (if outside then .partitionDenied else .ok)
        let (f, d) := wk.dev.free 48
        let wk := { wk with dev := d }
        let wk :=
          if desc.compEn then
            let bs := leBytes 8 (st.code + x.bytes * 2 ^ 16) ++
              leBytes 8 (if st = .ok then 0 else if x.status = .ok then f else x.faultAddr)
            (wk.coreStore c who (bobbinBase c + 16 * desc.comp) bs).1
          else wk
        let wk := wk.on (·.modDma c x.seq fun x => { x with status := st })
        if desc.sig && !outside then
          wk.on fun d =>
            let d := d.modDma c x.seq fun x => { x with sent := true }
            { d with sync := { d.sync with arrivals := d.sync.arrivals ++
                [.signal desc.sync 1 (who.getD 4) c 0xF (d.get F.FAB_ID_ID) (.dma c x.seq)] } }
        else wk.on (·.retireDma c x.seq .ok)) s

end Sys2Proof.Machine
end

