-- ==== Sys2Proof/Machine/FabOps.lean ====
section
/-!
DEFINITION. What the fabric's commands share: flow contexts (R232), routes and paths (R228, R242), lanes, slots and permutations (R184, R219 to R221, R239), what leaves on a lane
(R222, R239, R257), cutting and sending packets (R238), acknowledgements (R235), and the failure and completion of skeins (R238).
-/

namespace Sys2Proof.Machine

/-! ### Flow contexts -/

/-- A field of a flow context: word, low bit, width (R232). -/
structure CtxF where
  w : Nat
  lo : Nat
  n : Nat
  deriving DecidableEq, Repr

namespace CtxF

def valid : CtxF := ⟨0, 0, 1⟩
def dir : CtxF := ⟨0, 1, 2⟩
def part : CtxF := ⟨0, 3, 2⟩
def ch : CtxF := ⟨0, 5, 3⟩
def peer : CtxF := ⟨0, 8, 16⟩
def peerFlow : CtxF := ⟨0, 24, 12⟩
def localEp : CtxF := ⟨0, 36, 12⟩
def slice : CtxF := ⟨0, 48, 16⟩
def nextSeq : CtxF := ⟨1, 0, 16⟩
def baseSeq : CtxF := ⟨1, 16, 16⟩
def epoch : CtxF := ⟨1, 32, 16⟩
def pktu : CtxF := ⟨1, 48, 5⟩
def keep : CtxF := ⟨1, 53, 1⟩
def ring : CtxF := ⟨1, 54, 1⟩
def status : CtxF := ⟨1, 56, 8⟩
def land : CtxF := ⟨2, 0, 48⟩
def fwdDst : CtxF := ⟨2, 48, 16⟩
def limit : CtxF := ⟨3, 0, 40⟩
def tagMode : CtxF := ⟨3, 40, 2⟩
def gap : CtxF := ⟨3, 42, 8⟩
def tagStep : CtxF := ⟨4, 0, 32⟩
def tagDigest : CtxF := ⟨4, 32, 32⟩
def tagEpoch : CtxF := ⟨5, 0, 16⟩
def due : CtxF := ⟨5, 16, 32⟩
def dueValid : CtxF := ⟨5, 48, 1⟩
def late : CtxF := ⟨5, 49, 1⟩
def sent : CtxF := ⟨6, 0, 40⟩

/-- The field in a context given as a list of words. -/
def of (f : CtxF) (l : List Nat) : Nat := bits ((l[f.w]?).getD 0) f.lo f.n

end CtxF

namespace Dev

/-- A field of flow context `n`. -/
def ctx (d : Dev) (n : Nat) (f : CtxF) : Nat := bits (d.word .FAB_FCTX (8 * n + f.w)).toNat f.lo f.n

/-- Set a field of flow context `n`. -/
def setCtx (d : Dev) (n : Nat) (f : CtxF) (v : Nat) : Dev :=
  d.setWord .FAB_FCTX (8 * n + f.w) (BitVec.ofNat 64 (putBits (d.word .FAB_FCTX (8 * n + f.w)).toNat f.lo f.n v))

/-- Write a whole flow context. -/
def loadCtx (d : Dev) (n : Nat) (l : List Nat) : Dev :=
  (List.range 8).foldl (fun d w => d.setWord .FAB_FCTX (8 * n + w) (BitVec.ofNat 64 ((l[w]?).getD 0))) d

/-- A context is valid with a direction: 0 send, 1 receive, 2 forward. -/
def ctxIs (d : Dev) (n dir : Nat) : Bool := d.ctx n .valid = 1 && d.ctx n .dir = dir

/-- Send contexts fail once and keep their status (R238). -/
def ctxStatus (d : Dev) (n : Nat) : Status := Status.ofCode (d.ctx n .status)

/-- Receive state of context `n`. -/
def rxOf (d : Dev) (n : Nat) : Rx := d.fab.rx.get {} n

def setRx (d : Dev) (n : Nat) (x : Rx) : Dev := { d with fab := { d.fab with rx := d.fab.rx.set n x } }

/-! ### Plans, slots and lanes -/

/-- The plan banks of partition `p`. -/
def bank (d : Dev) (p : Nat) : PlanBank := d.fab.plans.get {} p

def setBank (d : Dev) (p : Nat) (b : PlanBank) : Dev := { d with fab := { d.fab with plans := d.fab.plans.set p b } }

/-- Partition `p` has an active plan. -/
def hasPlan (d : Dev) (p : Nat) : Bool := (d.bank p).active.isSome

/-- The plan twist number of partition `p` (R192). -/
def planTwist (d : Dev) (p : Nat) : Int :=
  if d.hasPlan p then
    (d.get F.TWIST_CNT_CNT : Int) - (d.word .TWIST_START p).toNat - bits (d.word .TWIST_SLIPS p).toNat 0 48
  else 0

/-- The plan that gives a partition's fibre-slots their permutations (R220): the active one, without one the plan that entry to UNALIGNED halted, whose unscheduled traffic
continues (R190), else the staged one, whose primes leave before it runs (R248). Log entry notes/assumptions/24.md (DEDUCED). -/
def lanePlan (d : Dev) (p : Nat) : Option Plan := (d.bank p).active.or ((d.bank p).halted.or (d.bank p).staged)

/-- The slice tag of a partition: its plan's, else its key's (R227, R247). -/
def sliceTag (d : Dev) (p : Nat) : Nat :=
  match (d.bank p).active with
  | some a => a.slice
  | none => (d.fab.keys.get {} p).tag

/-- The slice key under which a packet with a tag travels: the tag's partition, one with a live key before one whose key has been dropped, and the pod management key for SLICE 0
(R226, R227). Log entry notes/assumptions/22.md (DEDUCED). -/
def sliceHolder (d : Dev) (slice : Nat) : Option (Nat × SliceKey) :=
  let key (p : Nat) : SliceKey := d.fab.keys.get {} p
  if slice = 0 then some (4, key 4)
  else (((List.range 4).find? fun p => (key p).tag = slice && (key p).live).or ((List.range 4).find? fun p => (key p).tag = slice)).map
    fun p => (p, key p)

/-- The partition holds a slice tag: by one of its plans, or by a live key (R231). Log entry notes/assumptions/24.md (DEDUCED). -/
def holdsTag (d : Dev) (p tag : Nat) : Bool :=
  let b := d.bank p
  ([b.active, b.halted, b.staged].any fun x => x.any (·.slice = tag)) || ((d.fab.keys.get {} p).live && (d.fab.keys.get {} p).tag = tag)

/-- Time is at least `t`. -/
def reachTime (d : Dev) (t : Nat) : Dev := { d with now := Nat.max d.now t }

/-- The part's own fabric id (R216). -/
def fabId (d : Dev) : Nat := d.get F.FAB_ID_ID

/-- The slots of a twist begin at floor(k × PERIOD × 1,000 ÷ 64) ns (R184). -/
def slotStart (d : Dev) (k : Nat) : Nat := k * d.tw.period * 1000 / 64

/-- The length of slot `k`, ns. -/
def slotLen (d : Dev) (k : Nat) : Nat := d.slotStart (k + 1) - d.slotStart k

/-- Whole blocks of 1.28 ns in `ns` nanoseconds (R222). -/
def blocksIn (ns : Nat) : Nat := ns * 25 / 32

/-- The owner code of a fibre-slot (R219). -/
def slotCode (d : Dev) (e f s : Nat) : Nat := bits (d.word .FAB_FSLOT (4 * (18 * e + f) + s / 16)).toNat (4 * (s % 16)) 4

/-- The permutation and the guard of a fibre-slot: from the owner's plan among `plan`, or from FAB_SPERM (R220, R221). -/
def slotPermBy (d : Dev) (plan : Nat → Option Plan) (e f s : Nat) : Option (Nat × Nat) :=
  let c := d.slotCode e f s
  if c < 4 then (plan c).bind fun a => (a.perms.find ((18 * e + f) * 64 + s)).map fun x => (x, a.guard)
  else some (d.get F.FAB_SPERM_PERM (18 * e + f), d.get F.FAB_SPERM_GUARD (18 * e + f))

/-- The permutation and the guard of a fibre-slot now. -/
def slotPerm (d : Dev) (e f s : Nat) : Option (Nat × Nat) := d.slotPermBy d.lanePlan e f s

/-- The line that a permutation gives lane `i` (R220). -/
def permLine (perm i : Nat) : Nat := bits perm (3 * i) 3

/-- The part that output fibre `f` of engine `e` reaches on a line (R216, R217). -/
def reaches (d : Dev) (e f line : Nat) : Option Nat :=
  let k := 144 * e + 8 * f + line
  if d.isSet F.FAB_PMAP_VALID k then some (d.get F.FAB_PMAP_DEST k) else none

/-- The state of a ring (R264). -/
def ringState (d : Dev) (e m : Nat) : Nat := d.get F.LANE_RING_STATE (2304 * e + m)

/-- The drop ring that a receive lane has unparked (R258). -/
def boundRing (d : Dev) (e k : Nat) : Nat := 1152 + 8 * k + bits (d.get F.LANE_RXPERM_PERM (18 * e + k / 8)) (3 * (k % 8)) 3

/-- The receive lane of an arrival delivers blocks: its drop ring is in CAPTURE, VERIFY or LOCKED (R259). -/
def delivers (d : Dev) (a : Arrival) : Bool :=
  let st := d.ringState a.engine (d.boundRing a.engine (8 * a.fibre + a.lane))
  decide (2 ≤ st ∧ st ≤ 4)

/-- A transmit lane may drive its ring for a line: the ring is verified, its group has a serving distaff with baselines, and its fibre is neither excluded
nor out of service (R257, R261, R267). -/
def laneLit (d : Dev) (e f i line : Nat) : Bool :=
  d.get F.LANE_RING_STATE (2304 * e + 64 * f + 8 * i + line) = 4 &&
  !d.isSet F.LANE_STAT_EXCLUDED (288 * e + 8 * f + i) && !d.isSet F.LANE_STAT_OUT (288 * e + 8 * f + i) && !d.light.railLow &&
  (List.range 3).any fun k => d.get F.OPT_DSTAT_STATE (3 * e + k) = 3 && d.get F.OPT_DSTAT_SERVES (3 * e + k) = f % 2 &&
    d.isSet F.OPT_DSTAT_BASE_OK (3 * e + k)

/-- All lanes as engine, fibre and lane. -/
def lanes : List (Nat × Nat × Nat) :=
  (List.range 8).flatMap fun e => (List.range 18).flatMap fun f => (List.range 8).map fun i => (e, f, i)

/-- The number of a lane. -/
def laneNo (x : Nat × Nat × Nat) : Nat := (18 * x.1 + x.2.1) * 8 + x.2.2

/-- The part that a lane reaches in slot `s`. -/
def laneDest (d : Dev) (s : Nat) (x : Nat × Nat × Nat) : Option Nat :=
  match d.slotPerm x.1 x.2.1 s with
  | some (perm, _) => d.reaches x.1 x.2.1 (permLine perm x.2.2)
  | none => none

/-- Whole blocks that end before the guard of a slot (R221, R239). While no boundaries run no slot ends, and the slot that stands holds any transfer (R189). -/
def slotBlocks (d : Dev) (guard pos : Nat) : Nat :=
  if d.get F.TWIST_ALIGN_STATE = 0 then pos + 516 else blocksIn (d.slotLen d.tw.slot - guard)

/-! ### Routes -/

/-- The index of a destination in a partition's routing table (R228). -/
def routeIndex (d : Dev) (dst : Nat) : Nat := if dst / 256 = d.fabId / 256 then dst % 256 else 256 + dst / 256

/-- The route entry of partition `p` for a destination, as its index in FAB_RT (R228). -/
def routeOf (d : Dev) (p dst : Nat) : Option Nat :=
  let n := 512 * p + d.routeIndex dst
  if d.get F.FAB_RT_KIND n = 1 then some n else none

/-- The relays that a route entry enables, by fabric id (R228). -/
def relaysOf (d : Dev) (n : Nat) : List Nat :=
  [(0, F.FAB_RT_RELAY0), (1, F.FAB_RT_RELAY1), (2, F.FAB_RT_RELAY2), (3, F.FAB_RT_RELAY3)].filterMap fun x =>
    if (d.get F.FAB_RT_RELAY_EN n).testBit x.1 then some (d.fabId / 256 * 256 + d.get x.2 n) else none

/-- The shortest paths of partition `p` to a destination: direct, or over a relay (R228). A ring's next part is reached directly. -/
def pathsTo (d : Dev) (p dst : Nat) (directOnly : Bool) : List (Option Nat) :=
  if directOnly then [none]
  else match d.routeOf p dst with
    | some n => (if d.isSet F.FAB_RT_DIRECT_EN n then [none] else []) ++ (d.relaysOf n).map some
    | none => []

/-- A path over which a lane that reaches `dest` brings a packet to `dst`. -/
def pathVia (paths : List (Option Nat)) (dst dest : Nat) : Option (Option Nat) :=
  paths.find? fun x => x.getD dst = dest

/-! ### What leaves on a lane -/

/-- The units of a packet in blocks on the wire (R224). -/
def packetBlocks (units : Nat) : Nat := 4 + 16 * units

/-- A unit of 128-bit words leaves on a lane from a block time on: its blocks are scrambled and checked, behind the idle blocks that the lane has sent since it was last busy
(R222, R223). -/
def sendUnit (d : Dev) (k : MsgKind) (lane start : Nat) (words : List Nat) : Dev :=
  let (blocks, s) := encodeBlocks (scrambleIdle (start - d.fab.laneFree.get 0 lane) (d.fab.scram.get 0 lane)) words
  { d with fab := { d.fab with laneFree := d.fab.laneFree.set lane (start + words.length), scram := d.fab.scram.set lane s } }.send k lane blocks

/-- A control unit of 256 bits leaves on a lane (R223). -/
def sendControl (d : Dev) (k : MsgKind) (lane start unit : Nat) : Dev := d.sendUnit k lane start [bits unit 0 128, bits unit 128 128]

/-- The block time from which a lane may send: it is free, and two blocks into a slot that changes its line, which takes 2 ns (R221). Before slot 0 the plans of the twist before
held. Log entry notes/assumptions/25.md (DESIGN CHOICE). -/
def laneFrom (d : Dev) (lane : Nat) : Nat :=
  let line (plan : Nat → Option Plan) (s : Nat) : Option Nat := (d.slotPermBy plan (lane / 144) (lane / 8 % 18) s).map fun x => permLine x.1 (lane % 8)
  let was := if d.tw.slot = 0 then line (fun p => (d.bank p).before) 63 else line d.lanePlan (d.tw.slot - 1)
  let moves : Bool := d.get F.TWIST_ALIGN_STATE ≠ 0 && line d.lanePlan d.tw.slot ≠ was
  Nat.max (d.fab.laneFree.get 0 lane) (if moves then d.fab.slotBase + 2 else 0)

/-- The block time at which a lane can start a unit. -/
def laneStart (d : Dev) (lane : Nat) : Nat := Nat.max d.fab.block (d.laneFrom lane)

/-- The first lane in use that reaches a part in the current slot, with the block time from which it is free: of the fibre-slots of one partition, or of any (R239, R257). -/
def openLane (d : Dev) (dst : Nat) (fits : Nat → Nat → Nat → Nat → Bool) : Option (Nat × Nat) :=
  lanes.findSome? fun x => match d.slotPerm x.1 x.2.1 d.tw.slot with
    | some (perm, guard) =>
      let line := permLine perm x.2.2
      let lane := laneNo x
      let start := d.laneStart lane
      if d.reaches x.1 x.2.1 line = some dst && d.laneLit x.1 x.2.1 x.2.2 line && fits (d.slotCode x.1 x.2.1 d.tw.slot) lane start guard then some (lane, start) else none
    | none => none

/-- A control unit may use the fibre-slots of its partition, and without one those that belong to none. Log entry notes/assumptions/22.md (DESIGN CHOICE). -/
def codeSuits (who : Option Nat) (code : Nat) : Bool :=
  match who with
  | some p => code = p
  | none => decide (4 ≤ code)

/-- ACK_RES of the plan that holds a fibre-slot (R239, R247). -/
def ackRes (d : Dev) (code : Nat) : Nat :=
  match if code < 4 then d.lanePlan code else none with
  | some a => a.ackRes
  | none => 0

/-- The blocks of ACK_RES that are left on a lane in the slot (R239). -/
def ackLeft (d : Dev) (code lane : Nat) : Nat := d.ackRes code - d.fab.ackSpent.get 0 lane

/-- The lane on which an acknowledgement or a prime leaves ahead of the Creel: ACK_RES covers its two blocks there (R239). Log entry notes/assumptions/22.md (DESIGN CHOICE). -/
def ackLane (d : Dev) (c : CtrlReq) : Option (Nat × Nat) :=
  d.openLane c.dst fun code lane start guard => codeSuits c.who code && decide (2 ≤ d.ackLeft code lane) &&
    decide (start - d.fab.slotBase + 2 ≤ d.slotBlocks guard (start - d.fab.slotBase))

/-- An acknowledgement or a prime leaves ahead of the Creel and takes two blocks of ACK_RES. -/
def sendReserved (d : Dev) (c : CtrlReq) (lane start : Nat) : Dev :=
  { d with fab := { d.fab with ackSpent := d.fab.ackSpent.set lane (d.fab.ackSpent.get 0 lane + 2) } }.sendControl c.kind lane start c.unit

/-- Queue an acknowledgement or a prime: it leaves at once while a lane's ACK_RES holds, and waits for the Creel as class 2 or for the next slot otherwise (R239). Log entry notes/assumptions/22.md (DESIGN CHOICE). -/
def postControl (d : Dev) (k : MsgKind) (who : Option Nat) (dst unit : Nat) : Dev :=
  let c : CtrlReq := { id := d.fab.nextId, kind := k, who, dst, unit, stamp := d.fab.block }
  let d := { d with fab := { d.fab with nextId := d.fab.nextId + 1 } }
  match d.ackLane c with
  | some (lane, start) => d.sendReserved c lane start
  | none => { d with fab := { d.fab with ctrl := d.fab.ctrl ++ [c] } }

/-- The control units that wait leave while the ACK_RES of a new slot holds (R239). -/
def serveControl (d : Dev) : Dev :=
  d.fab.ctrl.foldl (fun (d : Dev) c => match d.ackLane c with
    | some (lane, start) => { d with fab := { d.fab with ctrl := d.fab.ctrl.filter (·.id ≠ c.id) } }.sendReserved c lane start
    | none => d) d

/-! ### Skeins and packets -/

/-- The context holds an allowance of its partition's active plan: its packets are scheduled (R239). -/
def scheduled (d : Dev) (n : Nat) : Bool :=
  match (d.bank (d.ctx n .part)).active with
  | some a => a.allows.any (·.flow = n)
  | none => false

/-- The kind of a message of the part itself: one formed packet on a send context, without a record (R245, R294, R310). -/
def messageKind : Nat := 4

/-- The allowances of a partition's active plan, each under its number: 4 × its place + the partition. -/
def planAllows (d : Dev) (p : Nat) : List (Nat × Allow) :=
  match (d.bank p).active with
  | some a => a.allows.zipIdx.map fun x => (4 * x.2 + p, x.1)
  | none => []

/-- The units left of an allowance in the current slot. -/
def unitsLeft (d : Dev) (x : Nat × Allow) : Nat := x.2.units - d.fab.spent.get 0 x.1

/-- An allowance of context `n` in the current slot still covers some units (R239). -/
def allowLeft (d : Dev) (n units : Nat) : Bool :=
  (d.planAllows (d.ctx n .part)).any fun y => y.2.flow = n && y.2.slot = d.tw.slot && decide (units ≤ d.unitsLeft y)

/-- Everything of a skein has been cut into packets. -/
def skeinCut (x : Skein) : Bool :=
  (!x.tag || x.tagCut) && (if x.kind = 1 then x.lastSeq.isSome else decide (x.bytes ≤ x.cut)) && x.ready.isEmpty

/-- The skein from which flow `n` sends next (R238). -/
def headSkein (d : Dev) (n : Nat) : Option Skein :=
  d.fab.skeins.find? fun x => x.flow = n && x.failed.isNone && !skeinCut x

/-- The units of the next packet of flow `n`; none when it has nothing to send, has failed, or its window of 256 is full (R233). -/
def nextUnits (d : Dev) (n : Nat) : Option Nat :=
  if d.ctx n .status ≠ 0 || decide (256 ≤ (d.ctx n .nextSeq + 65536 - d.ctx n .baseSeq) % 65536) then none
  else match d.headSkein n with
    | none => none
    | some x =>
      if (x.tag && !x.tagCut) || x.kind = 1 then some 1
      else if x.kind = 2 || x.kind = messageKind then x.ready.head?.map fun p => p.lenm1 + 1
      else some (min (d.ctx n .pktu + 1) ((x.bytes - x.cut) / 256))

/-- DUE, DUE_VALID and SENT of a send context show the oldest skein that is open on it, and LATE a packet in its deadline retransmission (R232). -/
def showOpen (d : Dev) (n : Nat) : Dev :=
  let d := d.setCtx n .late (flag (d.fab.flights.any fun x => x.flow = n && x.late))
  match d.fab.skeins.find? fun x => x.flow = n && x.kind ≠ messageKind with
  | some x => ((d.setCtx n .due x.due).setCtx n .dueValid 1).setCtx n .sent x.sent
  | none => d.setCtx n .dueValid 0

/-- Change a skein. -/
def modSkein (d : Dev) (id : Nat) (f : Skein → Skein) : Dev :=
  { d with fab := { d.fab with skeins := d.fab.skeins.map fun x => if x.id = id then f x else x } }

/-- The MCID of a broadcast to the whole grid, which is the column ring where this part is alone in its row (R246). Log entry notes/assumptions/21.md (DEDUCED). -/
def gridMcid (d : Dev) (p : Nat) : Nat :=
  match d.lanePlan p with
  | some a => if a.rowNext = d.fabId then 2 else 3
  | none => 3

/-- The MCID of a ring send context (R246, notes/assumptions/21.md): the grid for PEER 0xFFFF, else the row or the column ring whose next part PEER is. -/
def ringMcid (d : Dev) (n : Nat) : Nat :=
  match d.lanePlan (d.ctx n .part) with
  | some a =>
    if d.ctx n .peer = 0xFFFF then d.gridMcid (d.ctx n .part) else if d.ctx n .peer = a.rowNext then 1 else if d.ctx n .peer = a.colNext then 2 else 1
  | none => 1

/-- The next part on the ring of an MCID (R246). Log entry notes/assumptions/21.md (DEDUCED). -/
def ringNext (d : Dev) (p mcid : Nat) : Nat :=
  match d.lanePlan p with
  | some a => if mcid = 2 then a.colNext else a.rowNext
  | none => 0xFFFF

/-- Who must acknowledge a packet of send context `n`: PEER, or for a ring its next part (R235). -/
def ackPeer (d : Dev) (n : Nat) (x : Packet) : Nat :=
  if x.dst = 0xFFFF then d.ringNext (d.ctx n .part) x.mcid else d.ctx n .peer

/-- A remainder packet may use a fibre-slot: its partition's, code 4 alone for transit (R230), or for a partition's channels 4 and 7 one that belongs to no partition (R219, R242). -/
def remSuits (r : RemReq) (code : Nat) : Bool := code = r.who || (r.who ≠ 4 && (r.ch = 4 || r.ch = 7) && code = 15)

/-- The paths that a remainder packet may take (R242, R244). -/
def remPaths (d : Dev) (r : RemReq) : List (Option Nat) := (d.pathsTo r.who r.dst (r.direct || r.who = 4)).filter fun x => r.avoid ≠ some x

/-- The path over which a lane in the current slot serves a remainder packet (R242). -/
def remPath (d : Dev) (r : RemReq) (x : Nat × Nat × Nat) : Option (Option Nat) :=
  match if remSuits r (d.slotCode x.1 x.2.1 d.tw.slot) then d.laneDest d.tw.slot x else none with
  | some dest => pathVia (d.remPaths r) r.dst dest
  | none => none

/-- The blocks of a remainder packet: as it stands, or as its flow will cut it. -/
def remBlocks (d : Dev) (r : RemReq) : Nat :=
  packetBlocks (match r.packet with
    | some p => p.lenm1 + 1
    | none => (r.flow.bind d.nextUnits).getD 1)

/-- The lane that a remainder packet takes in the current slot (R242): among the lanes of its fibre-slots that reach its destination directly or over an enabled relay, the one with
the fewest blocks queued by others; ties go to a direct lane, then to the lowest. -/
def chooseLane (d : Dev) (r : RemReq) : Option Nat :=
  let queued (l : Nat) : Nat := ((d.fab.rem.filter fun x => x.lane = some l && x.id ≠ r.id).map d.remBlocks).sum
  let cands := lanes.filterMap fun x => (d.remPath r x).map fun path => (queued (laneNo x), flag path.isSome, laneNo x)
  let best := cands.foldl (fun b c => match b with
    | some y => if c.1 < y.1 ∨ (c.1 = y.1 ∧ c.2.1 < y.2.1) then some c else b
    | none => some c) none
  best.map (·.2.2)

/-- Queue a remainder packet: it chooses its lane (R242). -/
def queueRem (d : Dev) (r : RemReq) : Dev :=
  let r := { r with id := d.fab.nextId, stamp := d.fab.block }
  let r := { r with lane := d.chooseLane r }
  { d with fab := { d.fab with rem := d.fab.rem ++ [r], nextId := d.fab.nextId + 1 } }

/-- Every waiting remainder packet chooses its lane again (R242). -/
def chooseLanes (d : Dev) : Dev :=
  d.fab.rem.foldl (fun d r =>
    let l := d.chooseLane r
    { d with fab := { d.fab with rem := d.fab.rem.map fun x => if x.id = r.id then { x with lane := l } else x } }) d

/-- The skein sends ring packets (R246). -/
def ringSkein (x : Skein) : Bool := x.kind = 3 || (x.kind = messageKind && x.ready.any (·.dst = 0xFFFF))

/-- A flow has no packet at the head of its queue. -/
def clearHead (d : Dev) (n : Nat) : Dev := { d with fab := { d.fab with head := d.fab.head.erase n } }

/-- Let the next packet of flow `n` reach its queue: a scheduled context's is stamped when it does (R240), an unscheduled one's waits as remainder (R239), and so does a message whose
context has spent its allowances of the slot (R294). -/
def queueHead (d : Dev) (n : Nat) : Dev :=
  let units := (d.nextUnits n).getD 0
  let spent := (d.headSkein n).any (·.kind = messageKind) && !d.allowLeft n units
  let d :=
    if units = 0 then d.clearHead n
    else if d.scheduled n && (d.fab.head.find n).isNone then { d with fab := { d.fab with head := d.fab.head.set n d.fab.block } }
    else d
  if units = 0 || (d.scheduled n && !spent) || d.fab.rem.any fun r => r.flow = some n && r.packet.isNone then d
  else
    let ring := (d.headSkein n).any ringSkein
    let dst := if ring then d.ringNext (d.ctx n .part) (d.ringMcid n) else d.ctx n .peer
    d.queueRem { id := 0, who := d.ctx n .part, flow := some n, dst, ch := d.ctx n .ch, direct := ring, stamp := 0 }

/-- The key under which a packet travels: its slice's, or the pod management key (R226). Log entry notes/assumptions/22.md (DESIGN CHOICE). -/
def packetKey (d : Dev) (x : Packet) : List Byte :=
  if x.managed then (d.fab.keys.get {} 4).key
  else match d.sliceHolder x.slice with
    | some (_, k) => k.key
    | none => []

/-- A packet leaves the part on a lane: one that came from elsewhere unchanged, its own under its key (R224 to R226, R229, R246). -/
def emitPacket (d : Dev) (lane : Nat) (x : Packet) (start : Nat) : Dev :=
  let l := if x.wire.isEmpty then x.sealed (d.packetKey x) else x.wire
  d.sendUnit .packet lane start ((List.range (packetBlocks (x.lenm1 + 1))).map fun i => leNat ((l.drop (16 * i)).take 16))

/-- Take the next packet counter of a partition, or of the pod management key (R226). -/
def takePctr (d : Dev) (p : Nat) : Nat × Dev :=
  let v := d.fab.pctr.get 0 p
  (v, { d with fab := { d.fab with pctr := d.fab.pctr.set p (v + 1) } })

/-- A flow fails with a status: its context keeps it, its open skeins fail, and nothing of it waits or is retransmitted (R238). -/
def failFlow (d : Dev) (n : Nat) (s : Status) : Dev :=
  let d := if d.ctx n .status = 0 then d.setCtx n .status s.code else d
  let d : Dev := d.clearHead n
  { d with fab := { d.fab with
    skeins := (d.fab.skeins.filter fun x => x.flow ≠ n || x.kind ≠ messageKind).map fun x =>
      if x.flow = n && x.failed.isNone then { x with failed := some s, ready := [] } else x
    flights := d.fab.flights.filter fun x => x.flow ≠ n
    rem := d.fab.rem.filter fun x => x.flow ≠ some n } }

/-! ### Acknowledgements -/

/-- The landed map of an acknowledgement: bit i means that CUM + 1 + i has landed, beyond the context's CUM or below it, and that no signal of it waits (R235, R200). -/
def ackMap (cum base : Nat) (x : Rx) : Nat :=
  (List.range 64).foldl (fun v i =>
    let q := (cum + 1 + i) % 65536
    if (decide (i + 1 < (base + 65536 - cum) % 65536) || decide (q ∈ x.landed)) && !(x.held.any (·.1 = q)) && !(x.posted.any (·.1 = q)) then v + 2 ^ i else v) 0

/-- The CUM that an acknowledgement of receive context `n` carries (R235): a packet whose signal is on its way to its bank is acknowledged with the signal's status (R200). NAK GAP
names the SEQ that is missing. Log entry notes/assumptions/22.md (DEDUCED). -/
def ackCum (d : Dev) (n : Nat) (gap : Bool) : Nat :=
  match (d.rxOf n).posted with
  | x :: _ => if gap then d.ctx n .baseSeq else x.1
  | [] => d.ctx n .baseSeq

/-- The acknowledgement of receive context `n` (R235): to its PEER, or for a ring to the part that sent the last packet. -/
def ackUnit (d : Dev) (n : Nat) (s : Status) (nak gap : Bool) : AckUnit :=
  { dst := if d.ctx n .ring = 1 then (d.rxOf n).hop else d.ctx n .peer, src := d.fabId, sflow := d.ctx n .peerFlow, cum := d.ackCum n gap
    map := ackMap (d.ackCum n gap) (d.ctx n .baseSeq) (d.rxOf n), status := s.code, nak, gap }

/-- Send an acknowledgement of receive context `n` (R235). -/
def sendAck (d : Dev) (n : Nat) (s : Status := .ok) (nak : Bool := false) (gap : Bool := false) : Dev :=
  let u := d.ackUnit n s nak gap
  (d.setRx n { d.rxOf n with since := 0, owed := false }).postControl .ack (some (d.ctx n .part)) u.dst u.unit

/-- The NAK of a packet (R227): to SRC, or for a ring to the part from which it came. -/
def nakUnit (d : Dev) (x : Packet) (sender : Nat) (s : Status) : AckUnit :=
  { dst := if x.dst = 0xFFFF then sender else x.src, src := d.fabId, sflow := x.sflow, cum := x.seq, map := 0, status := s.code, nak := true, gap := false }

/-- Answer a packet with a NAK (R227). -/
def sendNak (d : Dev) (x : Packet) (sender : Nat) (s : Status) : Dev :=
  let u := d.nakUnit x sender s
  d.postControl .ack ((d.sliceHolder x.slice).bind fun k => if k.1 < 4 then some k.1 else none) u.dst u.unit

/-! ### Forwarding -/

/-- Send a packet of a local slice on to its next part `dst` (R229, R232, R246): under the forward context for `fwdDst` whose PEER that part is, if it holds allowances, or as remainder
on direct lanes. -/
def forward (d : Dev) (p fwdDst dst : Nat) (x : Packet) : Dev :=
  let ctx := (List.range 4096).find? fun n =>
    d.ctxIs n 2 && d.ctx n .part = p && d.ctx n .fwdDst = fwdDst && d.ctx n .peer = dst && d.ctx n .ch = x.ch && d.scheduled n
  match ctx with
  | some n => { d with fab := { d.fab with fwd := d.fab.fwd ++ [⟨d.fab.nextId, n, x, d.fab.block⟩], nextId := d.fab.nextId + 1 } }
  | none => d.queueRem { id := 0, who := p, flow := none, dst, ch := x.ch, direct := true, packet := some x, stamp := 0 }

/-- Remember a packet until its acknowledgement (R233, R246). -/
def addFlight (d : Dev) (x : Flight) : Dev := { d with fab := { d.fab with flights := d.fab.flights ++ [x] } }

/-- The origin of a grid broadcast, and each member of its row, originates the data on its column ring, with MCID 2, and keeps them until the next part has acknowledged them (R246
step 4). Log entry notes/assumptions/21.md (DEDUCED). -/
def columnCopy (d : Dev) (p n : Nat) (skein : Option Nat) (x : Packet) : Dev :=
  let next := d.ringNext p 2
  if next = d.fabId || x.mcid ≠ 3 || x.dst ≠ 0xFFFF then d
  else
    let y := { x with mcid := 2, src := d.fabId, via := false, retx := false, wire := [] }
    (d.addFlight { flow := n, peer := next, packet := y, twist := d.planTwist p, path := none, skein, copy := true }).forward p 0xFFFF next y

/-- Send a packet that the part has formed on a send context: it waits as a message of the flow, in order with the flow's skeins (R245, R294, R310). -/
def sendOn (d : Dev) (n : Nat) (x : Packet) : Dev :=
  let x := { x with sflow := n, rflow := d.ctx n .peerFlow, slice := d.ctx n .slice, src := d.fabId, wire := [] }
  let k : Skein :=
    { id := d.fab.nextId, part := d.ctx n .part, flow := n, addr := 0, kind := messageKind, sig := false, tag := false, localSig := false, sync := 0, compSync := 0
      src := 0, bytes := 0, off := 0, due := 0, epoch := x.epoch, pe := 0, tags := [], origin := .ply 0, ready := [x] }
  { d with fab := { d.fab with skeins := d.fab.skeins ++ [k], nextId := d.fab.nextId + 1 } }.queueHead n

/-- The send context on which the messages of a partition leave for a part, or by the rings for every part (R245, R246). -/
def msgContext (d : Dev) (p dst : Nat) : Option Nat :=
  ((d.lanePlan p).bind fun a => a.ctxs.find? fun c => d.ctxIs c.1 0 && d.ctx c.1 .part = p && d.ctx c.1 .ch = 2 && d.ctx c.1 .peer = dst).map (·.1)

/-- A channel-2 message of partition `p` leaves for one part, or for 0xFFFF by the relay chains for every part (R245, R246). Without a context that names the destination its flow
fields are zero, and it goes as remainder, on both rings for the whole grid. Log entry notes/assumptions/22.md (DESIGN CHOICE). Log entry notes/assumptions/21.md (DEDUCED). -/
def sendMsg (d : Dev) (p dst : Nat) (l : List Byte) : Dev :=
  let x : Packet :=
    { ch := 2, lenm1 := 0, dst, src := d.fabId, slice := d.sliceTag p, rflow := 0, sflow := 0, seq := 0, epoch := 0, last := true, ovf := false, retx := false, via := false
      ply := false, tag := false, mcid := if dst = 0xFFFF then 3 else 0, off := 0, sync := 0, pctr := 0, sig := false, payload := takePad 256 0 l }
  match d.msgContext p dst with
  | some n => d.sendOn n { x with mcid := if dst = 0xFFFF then d.ringMcid n else 0 }
  | none =>
    let put (d : Dev) (dst : Nat) (x : Packet) : Dev :=
      d.queueRem { id := 0, who := p, flow := none, dst, ch := 2, direct := decide (x.dst = 0xFFFF), packet := some x, stamp := 0 }
    let ring (d : Dev) (mcid : Nat) : Dev := if d.ringNext p mcid = d.fabId then d else put d (d.ringNext p mcid) { x with mcid }
    if dst ≠ 0xFFFF then put d dst x else if d.gridMcid p = 3 then ring (ring d 3) 2 else ring d 2

/-- Put a signal on its way to its bank (R199). -/
def postSignal (d : Dev) (op : SyncOp) : Dev := { d with sync := { d.sync with arrivals := d.sync.arrivals ++ [op] } }

end Dev

namespace Work

/-- A skein leaves the flow engine with its packets. -/
def dropSkein (w : Work) (x : Skein) : Work :=
  w.on fun d =>
    let d := { d with fab := { d.fab with skeins := d.fab.skeins.filter (·.id ≠ x.id), flights := d.fab.flights.filter (·.skein ≠ some x.id) } }
    if d.ctxIs x.flow 0 then d.showOpen x.flow else d

/-- A skein completes (R238): word 7 is written, LOCAL_SIG applied, the status recorded with the submitter (R124). Log entry notes/assumptions/23.md (DEDUCED). -/
def finishSkein (w : Work) (x : Skein) (s : Status) : Work :=
  if x.kind = Dev.messageKind then w.dropSkein x
  else
  let who : Option Nat := some x.part
  let reader := match x.origin with
    | .core c => c.val
    | .ply e => 0x800 + 0x10 + e.val
    | .host p => 0x828 + p.val
  let v := s.code + 256 + x.acked % 2 ^ 40 * 2 ^ 9
  let (w, _) := w.store who reader (x.addr + 56) (leBytes 8 v)
  (w.dropSkein x).on fun d =>
    let d := if x.localSig then d.postSignal (.signal x.compSync 1 x.part reader 0xF d.fabId .none) else d
    match x.origin with
    | .core c => d.modCore c (·.record 3 s)
    | o => { d with fab := { d.fab with finished := d.fab.finished ++ [(o, x.addr, s, x.acked % 2 ^ 40)] } }

/-- Complete every open skein of a partition that satisfies `p` (R190, R195, R250, R251). -/
def finishSkeins (w : Work) (p : Skein → Bool) (s : Status) : Work :=
  (w.dev.fab.skeins.filter p).foldl (fun w x => w.finishSkein x s) w

/-- Cut the next packet of flow `n` from its skein (R236, R238); none when its bytes cannot be read, which fails the flow. -/
def cutPacket (w : Work) (n : Nat) : Work × Option Packet :=
  let d := w.dev
  match d.headSkein n, d.nextUnits n with
  | some x, some units =>
    let base : Packet :=
      { ch := d.ctx n .ch, lenm1 := units - 1, dst := if x.kind = 3 then 0xFFFF else d.ctx n .peer, src := d.fabId
        slice := d.ctx n .slice, rflow := d.ctx n .peerFlow, sflow := n, seq := d.ctx n .nextSeq, epoch := x.epoch
        last := false, ovf := false, retx := false, via := false, ply := false, tag := false
        mcid := if x.kind = 3 then d.ringMcid n else 0, off := x.off + x.cut / 256, sync := x.sync, pctr := 0, sig := x.sig, payload := [] }
    let (w, st, p, f) : Work × Status × Packet × (Skein → Skein) :=
      if x.tag && !x.tagCut then
        let t := leBytes 4 ((x.tags[0]?).getD 0) ++ leBytes 4 ((x.tags[1]?).getD 0) ++ leBytes 8 ((x.tags[2]?).getD 0)
        (w, .ok, { base with tag := true, payload := takePad 256 0 t }, fun y => { y with tagCut := true })
      else if x.kind = 1 then
        (w, .ok, { base with last := true, payload := takePad 256 0 [1] }, id)
      else if x.kind = 2 || x.kind = Dev.messageKind then
        (w, .ok, { x.ready.headD base with seq := base.seq }, fun y => { y with ready := y.ready.tail })
      else
        let len := 256 * units
        match w.load (some x.part) (d.ctx n .localEp) (x.src + x.cut) len with
        | (w, .ok, _, bs) => (w, .ok, { base with last := decide (x.bytes ≤ x.cut + len), payload := bs }, fun y => { y with cut := y.cut + len })
        | (w, s, _, _) => (w, s, base, id)
    if st ≠ .ok then (w.on (·.failFlow n st), none)
    else
      let w := w.on fun d =>
        let d := d.modSkein x.id fun y => { f y with lastSeq := some p.seq, sent := y.sent + if p.tag then 0 else p.payload.length }
        let d := (d.setCtx n .nextSeq ((p.seq + 1) % 65536)).showOpen n
        let d := d.addFlight { flow := n, peer := d.ackPeer n p, packet := p, twist := d.planTwist x.part, path := none, skein := some x.id }
        d.columnCopy x.part n (some x.id) p
      (w, some p)
  | _, _ => (w, none)

end Work

end Sys2Proof.Machine
end

