-- ==== Sys2Proof/Machine/Fabric.lean ====
section
/-!
DEFINITION. Packets, acknowledgements, skeins, the lane scheduler and the fabric's tables (R216 to R246, R252).
-/

namespace Sys2Proof

/-- The number a payload holds at byte `lo`, `n` bytes long (R4). -/
def Packet.num (x : Packet) (lo n : Nat) : Nat := leNat ((x.payload.drop lo).take n)

/-- The scale unit of a ply-8 payload starts at this byte (R282). -/
def plyBase (cmb : Bool) : Nat := if cmb then 256 else 0

/-- The blocks that a ply-8 payload carries (R282). -/
def Packet.nblk (x : Packet) (cmb : Bool) : Nat := x.num (plyBase cmb) 2

/-- The units of a ply-8 payload are as R282 counts them. -/
def Packet.plyOk (x : Packet) (cmb : Bool) : Bool :=
  let n := x.nblk cmb
  decide (1 ≤ n ∧ n ≤ 124) && x.lenm1 + 1 = (if cmb then 2 else 1) + ceilDiv n 4

end Sys2Proof

namespace Sys2Proof.Machine

/-! ### Reception -/

/-- An entry of a partition's active Ply table of a type, with the field at bits `lo` of word 0 equal to `v` (R315). -/
def Dev.plyEntry (d : Dev) (p type : Nat) (f : List Nat → Bool) : Option (List Nat) :=
  match (d.bank p).active with
  | some a => a.ply.find? fun e => (e.headD 0) % 256 = type && f e
  | none => none

/-- The Ply receive entry of context `n`, if its packets go to a Ply engine (R287, R315). -/
def Dev.plyReceive (d : Dev) (n : Nat) : Option (List Nat) :=
  d.plyEntry (d.ctx n .part) 3 fun e => bits (e.headD 0) 16 12 = n

namespace Dev

/-- CUM moves over every landed SEQ, and the signals below it are posted (R205, R234). Log entry notes/assumptions/20.md (DEDUCED). -/
def advanceCum : Nat → Nat → Dev → Dev
  | 0, _, d => d
  | k + 1, n, d =>
    let x := d.rxOf n
    let cum := d.ctx n .baseSeq
    if cum ∈ x.landed then
      let (now, later) := x.held.partition fun h => h.1 = cum
      let x := { x with landed := x.landed.filter (· ≠ cum), held := later, posted := x.posted ++ now.map fun h => (h.1, none) }
      let d := (d.setRx n x).setCtx n .baseSeq ((cum + 1) % 65536)
      let d := now.foldl (fun d h =>
        let (ep, d) := d.free 12
        d.postSignal (.signal h.2 1 (d.ctx n .part) ep (d.ctx n .ch) (d.ctx n .peer) (.flow n h.1))) d
      advanceCum k n d
    else d

/-- Since when a gap stands: the later of the first landing beyond CUM and CUM's last advance (R235). -/
def markGap (d : Dev) (n : Nat) (moved : Bool) : Dev :=
  let x := d.rxOf n
  d.setRx n { x with gapAt := if x.landed.isEmpty then none else if moved then some d.now else x.gapAt.or (some d.now) }

/-- A packet has landed on receive context `n`: its SEQ counts, its signal is held for order, and an acknowledgement is sent after 16 packets or with
LAST (R234, R235). An acknowledgement that answers a signal waits for the signal's status (R200). -/
def landed (d : Dev) (n : Nat) (x : Packet) (sender : Nat) : Dev :=
  let r := d.rxOf n
  let cum := d.ctx n .baseSeq
  let r := { r with landed := x.seq :: r.landed, since := r.since + 1, owed := true, owedAt := if r.owed then r.owedAt else d.now, hop := sender
                    held := if x.last && x.sig then r.held ++ [(x.seq, x.sync)] else r.held }
  let d := d.setRx n r
  let d := if (x.seq + 1 + 65536 - d.ctx n .nextSeq) % 65536 < 32768 then d.setCtx n .nextSeq ((x.seq + 1) % 65536) else d
  let d := advanceCum 256 n d
  let d := d.markGap n (d.ctx n .baseSeq ≠ cum)
  if (x.last && !x.sig) || decide (16 ≤ r.since) then d.sendAck n else d

/-- Statuses of signals that have come back leave in acknowledgements, in the order of their packets (R200, R234). -/
def answerSignals : Nat → Nat → Dev → Dev
  | 0, _, d => d
  | k + 1, n, d =>
    match (d.rxOf n).posted with
    | (_, some s) :: t => answerSignals k n ((d.setRx n { d.rxOf n with posted := t }).sendAck n s)
    | _ => d

/-- The status of the signal of packet `seq` of receive context `n` has come back from its bank (R200). -/
def signalAnswered (d : Dev) (n seq : Nat) (s : Status) : Dev :=
  let x := d.rxOf n
  answerSignals x.posted.length n (d.setRx n { x with posted := x.posted.map fun y => if y.1 = seq then (seq, some s) else y })

/-- A SEQ against the window of receive context `n` (R227 check 6, R233): accepted, a duplicate, or beyond. -/
def inWindow (d : Dev) (n seq : Nat) : Option Bool :=
  let cum := d.ctx n .baseSeq
  let a := (seq + 65536 - cum) % 65536
  if a < 256 then some (seq ∉ (d.rxOf n).landed)
  else if (cum + 65536 - seq) % 65536 ≤ 256 then some false else none

/-- A packet belongs to the skein whose tag failed its comparison: from the tag packet to the skein's last packet, as far as that is known (R236). -/
def skewed (d : Dev) (n seq : Nat) : Bool :=
  let after (t q : Nat) : Nat := (q + 65536 - t) % 65536
  match (d.rxOf n).skew with
  | some (t, some l) => decide (after t seq ≤ after t l)
  | some (t, none) => decide (after t seq < 32768)
  | none => false

/-- A packet of that skein arrives: with LAST it ends the skein (R236). -/
def noteSkew (d : Dev) (n : Nat) (x : Packet) : Dev :=
  match (d.rxOf n).skew with
  | some (t, _) => if x.last then d.setRx n { d.rxOf n with skew := some (t, some x.seq) } else d
  | none => d

/-- A ring member sends a landed ring packet on unchanged to its next part, unless that is the origin, and keeps it until that part has acknowledged it; it originates the column
copy of a grid broadcast (R246). Log entry notes/assumptions/21.md (DEDUCED). -/
def ringForward (d : Dev) (p n : Nat) (x : Packet) : Dev :=
  if x.dst ≠ 0xFFFF || d.ctx n .ring ≠ 1 then d
  else
    let next := d.ringNext p x.mcid
    let d :=
      if next = x.src || next = d.fabId then d
      else (d.addFlight { flow := n, peer := next, packet := x, twist := d.planTwist p, path := none }).forward p 0xFFFF next x
    d.columnCopy p n none x

/-- A packet for another part (R229, R230, R293): relayed for a local slice, held for combining, carried in transit, or dropped. -/
def relay (d : Dev) (x : Packet) (sender : Nat) : Dev :=
  match if x.slice = 0 then none else d.sliceHolder x.slice with
  | some (p, k) =>
    match d.routeOf p x.dst with
    | some r =>
      if !d.isSet F.FAB_RT_DIRECT_EN r then d.sendNak x sender .sliceDenied
      else
        match if x.ply && !x.last && !x.retx && k.live then
            d.plyEntry p 4 fun e => bits (e.headD 0) 32 16 = x.dst && bits (e.headD 0) 48 3 = x.ch &&
              decide (x.off < bits ((e[1]?).getD 0) 10 32) else none with
        | some e =>
          if x.authentic (d.packetKey x) then
            { d with fab := { d.fab with holds := d.fab.holds ++ [⟨bits (e.headD 0) 8 3, p, x.opened (d.packetKey x), d.now⟩] } }
          else (d.count .FAB_AUTH).raise .packetAuth (evPart (some p)) 0x800 (x.src + x.slice * 2 ^ 16 + x.ch * 2 ^ 32)
        | none => d.forward p x.dst x.dst x
    | none => d.sendNak x sender .sliceDenied
  | none =>
    if (List.range 64).any fun j => d.isSet F.FAB_TRN_VALID j && d.get F.FAB_TRN_SLICE j = x.slice && d.get F.FAB_TRN_DST j = x.dst then
      d.queueRem { id := 0, who := 4, flow := none, dst := x.dst, ch := x.ch, direct := true, packet := some x, stamp := 0 }
    else d.count .FAB_TRN_DROP

/-- The index of a fibre: input fibre `f` of an engine, or output fibre `f` from 18 on (R403). -/
def fibreNo (e f : Nat) : Nat := if f < 18 then 18 * e + f else 144 + 18 * e + (f - 18)

/-- Every ring of a bank of eight is FAILED (R23): the lane has no ring left. `b` is the first of them. Log entry notes/assumptions/73.md (DEDUCED). -/
def bankFailed (d : Dev) (e b : Nat) : Bool := (List.range 8).all fun l => d.ringState e (b + l) = 7

/-- A fibre serves no plan any more (R23, R274): an input fibre with too many uncorrectable blocks, an output fibre with a lane that has no ring left; a
ring that is FAILED by itself takes only its permutations. Log entry notes/assumptions/73.md (DEDUCED). -/
def fibreLost (d : Dev) (e f : Nat) : Bool :=
  if f < 18 then decide (fibreNo e f ∈ d.light.failed) else (List.range 8).any fun i => d.bankFailed e (64 * (f - 18) + 8 * i)

/-- The part treats a fibre as failed and reports it once (R274). -/
def reportFibre (d : Dev) (e f : Nat) : Dev :=
  if fibreNo e f ∈ d.light.failed then d
  else { d with light := { d.light with failed := fibreNo e f :: d.light.failed } }.raise .fibreFailed 7 (0x818 + e) (f % 18)

/-- With a third lost fibre of the engine and direction the two spares no longer suffice (R23, R26). Log entry notes/assumptions/73.md (DEDUCED). -/
def exhaustFibres (d : Dev) (e f : Nat) : Dev :=
  if 2 < ((List.range 18).filter fun x => d.fibreLost e (if f < 18 then x else x + 18)).length then d.raise .spareExhausted 7 (0x818 + e) (4 + 256 * fibreNo e f)
  else d

/-- An input fibre has too many uncorrectable blocks (R26, R274). Log entry notes/assumptions/73.md (DEDUCED). -/
def failFibre (d : Dev) (e f : Nat) : Dev := if d.fibreLost e f then d else (d.reportFibre e f).exhaustFibres e f

/-- The blocks of an arrival are counted at its receive lane, and a fibre with more than 16 uncorrectable ones in 1 ms has failed
(R274). -/
def countBlocks (d : Dev) (a : Arrival) : Dev :=
  let k := 144 * a.engine.val + 8 * a.fibre.val + a.lane.val
  let d := if a.corrected = 0 then d else d.count .LANE_CE k a.corrected
  if a.uncorrectable = 0 then d
  else
    let d := d.count .LANE_UE k a.uncorrectable
    let old := (d.light.bad.get [] k).filter fun x => decide (d.now < x.1 + 1000000)
    let sum := old.foldl (fun n x => n + x.2) a.uncorrectable
    let d := { d with light := { d.light with bad := d.light.bad.set k (old ++ [(d.now, a.uncorrectable)]) } }
    if 16 < sum then d.failFibre a.engine a.fibre else d

/-- A control unit arrives (R222, R223, R259): a lane whose drop ring delivers nothing takes nothing; else its blocks are counted, and a good unit of the kind acts. -/
def hears (d : Dev) (a : Arrival) (kind at_ : Nat) (f : Dev → Dev) : Dev :=
  if !d.delivers a then d
  else
    let d := d.countBlocks a
    if a.control kind at_ then f d else d

/-- The layout epoch of a packet at a context bound to a layer (R313). -/
def epochStatus (d : Dev) (n : Nat) (x : Packet) : Status :=
  let behind := (d.ctx n .epoch + 65536 - x.epoch) % 65536
  if behind = 0 then .ok
  else if behind = 1 ∧ n ∈ d.fab.retained then .ok
  else if behind ≤ 32767 then .epochStale
  else .formatFault

/-- The constituents of a combined packet (R282): SRC, SFLOW, RFLOW, SEQ. -/
def constituents (x : Packet) : List (Nat × Nat × Nat × Nat) :=
  (List.range (x.num 0 1)).map fun c =>
    let v := x.num (8 + 8 * c) 8
    (bits v 0 16, bits v 16 12, bits v 28 12, bits v 40 16)

/-- A constituent of a packet of partition `p` may land (R17, R295): RFLOW is a receive context of the partition with its PEER and PEER_FLOW, and its SEQ is in the window and has
not landed. -/
def constituentOk (d : Dev) (p : Nat) (c : Nat × Nat × Nat × Nat) : Bool :=
  let n := c.2.2.1
  d.ctxIs n 1 && d.ctx n .part = p && d.ctx n .peer = c.1 && d.ctx n .peerFlow = c.2.1 && d.inWindow n c.2.2.2 = some true

/-- A packet for a Ply engine (R282, R287, R295, R313): refused by its units or its epoch, dropped when the partition's 1 MiB share of the input queue
is full, split when a constituent fails, else landed in the queue, with every constituent on its own context. A ring packet goes on (R246). -/
def plyLand (d : Dev) (n : Nat) (entry : List Nat) (x : Packet) (sender : Nat) : Dev :=
  let e := bits (entry.headD 0) 8 3
  let cmb := (entry.headD 0).testBit 11
  let grp := (entry.headD 0).testBit 12
  let p := d.ctx n .part
  let used := (d.fab.plyIn.filter fun q => q.1 = e && d.ctx q.2.1 .part = p).foldl (fun s q => s + q.2.2.payload.length) 0
  let cons := if cmb && !grp then constituents x else []
  if !grp && !x.plyOk cmb then d.sendNak x sender .formatFault
  else if !grp && d.epochStatus n x ≠ .ok then d.sendNak x sender (d.epochStatus n x)
  else if 0x100000 < used + x.payload.length then d.count .PLY_QDROP (4 * e + p)
  else if !(cons.all (d.constituentOk p)) then (d.count .PLY_SPLIT (4 * e + p)).landed n x sender
  else
    let d := { d with fab := { d.fab with plyIn := d.fab.plyIn ++ [(e, n, { x with wire := [] })] } }
    let d := if x.ovf then d.put F.PLY_STEP_OVF p 1 else d
    let d := (d.landed n x sender).ringForward p n x
    cons.foldl (fun d c => d.landed c.2.2.1 { x with seq := c.2.2.2, last := false, sig := false } sender) d

/-- A version tag packet (R236): recorded, or compared with the tag that context n − 1 recorded (R323); a mismatch fails the context with
VERSION_SKEW. -/
def tagPacket (d : Dev) (n : Nat) (x : Packet) (sender : Nat) : Dev :=
  let t := (x.num 0 4, x.num 4 4, x.num 8 2)
  let land (d : Dev) : Dev := (d.landed n x sender).ringForward (d.ctx n .part) n x
  match d.ctx n .tagMode with
  | 1 => land (((d.setCtx n .tagStep t.1).setCtx n .tagDigest t.2.1).setCtx n .tagEpoch t.2.2)
  | 2 =>
    if t = (d.ctx (n - 1) .tagStep, d.ctx (n - 1) .tagDigest, d.ctx (n - 1) .tagEpoch) then land d
    else ((d.setCtx n .status Status.versionSkew.code).setRx n { d.rxOf n with skew := some (x.seq, none) }).sendNak x sender .versionSkew
  | _ => land d

end Dev

/-! ### Acknowledgements and timers -/

/-- A SEQ that an acknowledgement covers: below CUM, or in its MAP (R235). -/
def acked (cum map seq : Nat) : Bool :=
  let a := (seq + 65536 - cum) % 65536
  decide (32768 ≤ a) || (decide (1 ≤ a ∧ a ≤ 64) && map.testBit (a - 1))

/-- Take acknowledged packets away and count their bytes to their skeins. A status other than OK goes to the skein whose signal the acknowledgement answers (R200), and a message
whose packet is acknowledged is done. -/
def Dev.settle (d : Dev) (p : Flight → Bool) (s : Status := .ok) : Dev :=
  let (gone, left) := d.fab.flights.partition p
  let bytes (id : Nat) : Nat := (gone.filter fun x => x.skein = some id && !x.packet.tag && !x.copy).foldl (fun n x => n + x.packet.payload.length) 0
  let told (x : Skein) : Bool := s ≠ .ok && x.sig && gone.any fun f => f.skein = some x.id && f.packet.last
  let done (x : Skein) : Bool := x.kind = Dev.messageKind && Dev.skeinCut x && !(left.any fun f => f.skein = some x.id)
  { d with fab := { d.fab with
    flights := left
    skeins := (d.fab.skeins.filter fun x => !done x).map fun x =>
      { x with acked := if x.kind = 1 then x.acked else x.acked + bytes x.id, note := if told x then some s else x.note }}}

/-- BASE_SEQ of a send context: the oldest unacknowledged SEQ (R232). -/
def Dev.oldestSeq (d : Dev) (n : Nat) : Nat :=
  match d.fab.flights.find? fun x => x.flow = n && !x.copy with
  | some x => x.packet.seq
  | none => d.ctx n .nextSeq

/-- A retransmission is sent by the flow with RETX; a forwarder sends its packet again as it came (R225, R243, R246). -/
def Flight.again (f : Flight) : Packet := if f.packet.wire.isEmpty then { f.packet with retx := true } else f.packet

/-- NAK GAP for `seq` (R243): the packet is queued again as remainder, at most three times. -/
def Dev.retransmit (d : Dev) (f : Flight) : Dev :=
  if 3 ≤ f.naks then d
  else
    let d := { d with fab := { d.fab with
      flights := d.fab.flights.map fun x => if x = f then { x with naks := x.naks + 1 } else x } }
    d.queueRem { id := 0, who := d.ctx f.flow .part, flow := some f.flow, dst := f.peer, ch := f.packet.ch, direct := f.packet.dst = 0xFFFF
                 packet := some f.again, stamp := 0 }

/-- A send context hears acknowledgements from its PEER, or for a ring from its next parts (R235). -/
def Dev.hearsPeer (d : Dev) (n src : Nat) : Bool :=
  d.ctxIs n 0 && (d.ctx n .peer = src || d.fab.flights.any fun f => f.flow = n && f.peer = src)

/-- An acknowledgement for this part (R235, R238, R243): it takes the packets of its sender away and BASE_SEQ advances; NAK GAP queues a retransmission, and a NAK with another status
fails the flow. A NAK without GAP names one packet and acknowledges none. Log entry notes/assumptions/22.md (DEDUCED). -/
def Dev.acknowledged (d : Dev) (u : AckUnit) : Dev :=
  let n := u.sflow
  let s := Status.ofCode u.status
  let mine (f : Flight) : Bool := f.peer = u.src && f.packet.sflow = n
  let owner := d.hearsPeer n u.src
  let missing := d.fab.flights.find? fun f => mine f && f.packet.seq = u.cum
  let d := if u.nak && !u.gap then d else d.settle (fun f => mine f && acked u.cum u.map f.packet.seq) (if u.nak then .ok else s)
  let d := if owner then (d.setCtx n .baseSeq (d.oldestSeq n)).showOpen n else d
  let d :=
    if u.nak && u.status ≠ 0 then (if owner then d.failFlow n s else d)
    else if u.nak && u.gap then
      match missing with
      | some f => d.retransmit f
      | none => d
    else d
  if owner then d.queueHead n else d

/-- ACKNOWLEDGEMENT (R223, R235): the unit arrives on a lane; one for another part, or a bad one, does nothing. -/
def execAcknowledgement (a : Arrival) (s : State) : Host.Outcome State Fault Refusal :=
  runDev 4 (fun d => d.hears a 0xAC 142 fun d =>
    if a.ack.dst = d.fabId && d.fabId ≠ 0xFFFF then d.acknowledged a.ack else d) s

/-- 1 µs after a landed packet that is still unacknowledged, the receiver acknowledges (R235). -/
def execAckTimer (n : Fin 4096) (s : State) : Host.Outcome State Fault Refusal :=
  runDev 4 (fun d => if d.ctxIs n 1 && (d.rxOf n).owed then (d.reachTime ((d.rxOf n).owedAt + 1000)).sendAck n else d) s

/-- GAP µs after the later of a landing beyond CUM and CUM's last advance, the receiver sends NAK GAP for CUM; GAP is at least 2 (R232, R235). -/
def execGapTimer (n : Fin 4096) (s : State) : Host.Outcome State Fault Refusal :=
  runDev 4 (fun d =>
    match (d.rxOf n).gapAt with
    | some t => if d.ctxIs n 1 then (d.reachTime (t + 1000 * Nat.max 2 (d.ctx n .gap))).sendAck n .ok true true else d
    | none => d) s

/-- A context of a plan pairs with the one that a prime names (R248). -/
def primePair (u : PrimeUnit) (dir n pair : Nat) (c : Nat × List Nat) : Bool :=
  c.1 = n && CtxF.valid.of c.2 = 1 && CtxF.dir.of c.2 = dir && CtxF.peer.of c.2 = u.src && CtxF.peerFlow.of c.2 = pair && CtxF.slice.of c.2 = u.slice

/-- A prime's answer completes the preparing send context that it names (R248). -/
def Dev.primeAnswered (d : Dev) (u : PrimeUnit) : Dev :=
  (List.range 4).foldl (fun d p =>
    let b := d.bank p
    match b.staged with
    | some a => if a.ctxs.any (primePair u 0 u.sflow u.rflow) then d.setBank p { b with unprimed := b.unprimed.filter (· ≠ u.sflow) } else d
    | none => d) d

/-- The partition whose active or staged plan holds the receive context that a prime names (R248). -/
def Dev.primeHolder (d : Dev) (u : PrimeUnit) : Option Nat :=
  (List.range 4).find? fun p =>
    (d.hasPlan p && d.ctxIs u.rflow 1 && d.ctx u.rflow .part = p && d.ctx u.rflow .peer = u.src && d.ctx u.rflow .peerFlow = u.sflow && d.ctx u.rflow .slice = u.slice) ||
    match (d.bank p).staged with
    | some a => a.ctxs.any (primePair u 1 u.rflow u.sflow)
    | none => false

/-- PRIME (R223, R248): a request is answered when a matching receive context stands in the active or staged plan; an answer completes a preparing context. -/
def execPrime (a : Arrival) (s : State) : Host.Outcome State Fault Refusal :=
  runDev 4 (fun d => d.hears a 0xD1 81 fun d =>
    let u := a.prime
    if u.dst ≠ d.fabId || d.fabId = 0xFFFF then d
    else if u.answer then d.primeAnswered u
    else match d.primeHolder u with
      | some p => d.postControl .prime (some p) u.src ({ u with src := d.fabId, dst := u.src, answer := true } : PrimeUnit).unit
      | none => d) s

/-! ### The lane scheduler -/

/-- What a lane's Creel may grant: the next packet of a context under one of its allowances, a packet under one of a forward context, a remainder packet, or a control unit past ACK_RES (R239). -/
inductive LaneWhat where
  | head (flow allow : Nat)
  | fwd (r : FwdReq) (allow : Nat)
  | rem (r : RemReq)
  | ctrl (r : CtrlReq)
  deriving DecidableEq, Repr

/-- A request at a lane's Creel: its class, the block time at which it was queued, its number, its units and blocks, and what it is (R239, R240). -/
structure LaneReq where
  cls : Nat
  stamp : Nat
  id : Nat
  units : Nat
  blocks : Nat
  what : LaneWhat
  deriving DecidableEq, Repr

namespace Dev

/-- The blocks that an allowance of `n` units costs at a context (R239). -/
def allowCost (d : Dev) (flow n : Nat) : Nat := 16 * n + 4 * ceilDiv n (d.ctx flow .pktu + 1)

/-- The allowances on a lane in the current slot, each under its number. -/
def laneAllows (d : Dev) (e f i code : Nat) : List (Nat × Allow) :=
  if 4 ≤ code then [] else (d.planAllows code).filter fun x => x.2.e = e && x.2.f = f && x.2.slot = d.tw.slot && x.2.lane = i

/-- The scheduled packets that an allowance on a lane in this slot covers (R239). -/
def scheduledReqs (d : Dev) (allows : List (Nat × Allow)) : List LaneReq :=
  allows.filterMap fun (k, x) =>
    let left := d.unitsLeft (k, x)
    match d.fab.fwd.find? (·.flow = x.flow) with
    | some r =>
      let u := r.packet.lenm1 + 1
      if u ≤ left then some ⟨r.packet.ch, r.stamp, x.flow, u, packetBlocks u, .fwd r k⟩ else none
    | none =>
      if d.ctxIs x.flow 0 && !(decide (d.ctx x.flow .part ∈ d.dead)) then
        match d.nextUnits x.flow with
        | some u => if u ≤ left then some ⟨d.ctx x.flow .ch, d.fab.head.get 0 x.flow, x.flow, u, packetBlocks u, .head x.flow k⟩ else none
        | none => none
      else none

/-- The remainder packets that wait at a lane and that its fibre-slot may serve now (R20, R21, R239, R242). -/
def remainderReqs (d : Dev) (x : Nat × Nat × Nat) : List LaneReq :=
  (d.fab.rem.filter fun r => r.lane = some (laneNo x) && (d.remPath r x).isSome).filterMap fun r =>
    (match r.packet with
      | some p => some (p.lenm1 + 1)
      | none => if r.who ∈ d.dead then none else r.flow.bind d.nextUnits).map fun u => ⟨r.ch, r.stamp, 4096 + r.id, u, packetBlocks u, .rem r⟩

/-- The acknowledgements and primes that wait and that a lane of owner code `code` to `dest` may take as class 2 (R239). -/
def controlReqs (d : Dev) (code : Nat) (dest : Option Nat) : List LaneReq :=
  (d.fab.ctrl.filter fun c => codeSuits c.who code && dest = some c.dst).map fun c => ⟨2, c.stamp, 4096 + c.id, 0, 2, .ctrl c⟩

/-- The requests that are eligible at a lane, `pos` block times into the slot (R221, R239): what holds no allowance leaves the blocks of every unspent allowance and of what is left
of ACK_RES. A part strapped to 0xFFFF sends no packet (R216). Log entry notes/assumptions/25.md (DESIGN CHOICE). -/
def eligible (d : Dev) (e f i pos : Nat) : List LaneReq :=
  let code := d.slotCode e f d.tw.slot
  let lane := laneNo (e, f, i)
  match d.slotPerm e f d.tw.slot with
  | none => []
  | some (perm, guard) =>
    if d.fabId = 0xFFFF || !d.laneLit e f i (permLine perm i) then []
    else
      let room := d.slotBlocks guard pos - pos
      let allows := d.laneAllows e f i code
      let kept := (allows.map fun x => d.allowCost x.2.flow (d.unitsLeft x)).sum + d.ackLeft code lane
      let rest := d.remainderReqs (e, f, i) ++ d.controlReqs code (d.reaches e f (permLine perm i))
      (d.scheduledReqs allows).filter (fun r => decide (r.blocks ≤ room)) ++ rest.filter fun r => decide (r.blocks + kept ≤ room)

/-- The comparison of the Creel (R240): the larger sum of age (saturating at 65,535) and bias, then the lower class, the earlier arrival, the lower
queue. -/
def creelBefore (now : Nat) (bias : Nat → Nat) (a b : Nat × Nat × Nat) : Bool :=
  let sum (x : Nat × Nat × Nat) : Nat := min 65535 (now - x.2.1) + bias x.1
  decide (sum b < sum a) || (decide (sum a = sum b) && (decide (a.1 < b.1) || (decide (a.1 = b.1) &&
    (decide (a.2.1 < b.2.1) || (decide (a.2.1 = b.2.1) && decide (a.2.2 < b.2.2))))))

/-- The winner of a Creel among class, arrival and queue number (R240). Log entry notes/assumptions/25.md (DESIGN CHOICE). -/
def creelPick {α : Type} (now : Nat) (bias : Nat → Nat) (key : α → Nat × Nat × Nat) : List α → Option α
  | [] => none
  | x :: t => some (t.foldl (fun b y => if creelBefore now bias (key y) (key b) then y else b) x)

/-- The committed bias of a class at the lanes (R241). -/
def laneBias (d : Dev) (c : Nat) : Nat := d.fab.bias.get (bits (Reg.reset .CREEL_BIAS_FAB c).toNat 0 16) c

/-- Mark the path of a packet in flight. -/
def setPath (d : Dev) (flow seq : Nat) (path : Option Nat) : Dev :=
  { d with fab := { d.fab with
    flights := d.fab.flights.map fun x => if x.flow = flow && x.packet.seq = seq then { x with path } else x } }

/-- A packet leaves on a lane for `dst` over the path that reaches `dest`: one that the part originates for partition `p` gets its packet counter, and VIA on its way to a relay
(R225, R226). -/
def depart (d : Dev) (p lane start dest dst : Nat) (x : Packet) (flow : Option Nat) : Dev :=
  if x.src ≠ d.fabId then d.emitPacket lane x start
  else
    let via := decide (dest ≠ dst)
    let (c, d) := d.takePctr (if x.managed then 4 else p)
    let d := match flow with
      | some n => d.setPath n x.seq (if via then some dest else none)
      | none => d
    d.emitPacket lane { x with via, pctr := c } start

/-- The units of a transfer are taken from the allowance with number `k`. -/
def spend (d : Dev) (k units : Nat) : Dev :=
  { d with fab := { d.fab with spent := d.fab.spent.set k (d.fab.spent.get 0 k + units) } }

/-- Take a remainder packet out of the lanes' queues. -/
def takeRem (d : Dev) (id : Nat) : Dev := { d with fab := { d.fab with rem := d.fab.rem.filter (·.id ≠ id) } }

end Dev

/-- The next packet of flow `n` is cut and leaves on a lane for `dst` or its relay `dest`; the one behind it reaches the queue. -/
def Work.departHead (w : Work) (p lane start dest dst n : Nat) : Work :=
  match w.cutPacket n with
  | (w, some x) => w.on fun d =>
    let d := { d with fab := { d.fab with rem := d.fab.rem.filter fun r => r.flow ≠ some n || r.packet.isSome } }
    ((d.depart p lane start dest dst x (some n)).clearHead n).queueHead n
  | (w, none) => w

/-- The Creel of a lane grants a request whose transfer starts at a block time (R239). -/
def Work.grantLane (w : Work) (code lane start dest : Nat) (r : LaneReq) : Work :=
  let d := w.dev
  match r.what with
  | .head n k => { w with dev := d.spend k r.units }.departHead code lane start dest (if d.ctx n .peer = 0xFFFF then dest else d.ctx n .peer) n
  | .fwd q k =>
    let d := { d with fab := { d.fab with fwd := d.fab.fwd.filter (·.id ≠ q.id) } }.spend k r.units
    { w with dev := d.depart code lane start dest (if q.packet.dst = 0xFFFF then dest else q.packet.dst) q.packet (some q.flow) }
  | .rem q =>
    let d := d.takeRem q.id
    match q.packet, q.flow with
    | some x, flow =>
      let d := if x.retx && x.src = d.fabId && decide (q.who < 4) then d.count .FAB_RETX q.who else d
      { w with dev := d.depart q.who lane start dest q.dst x flow }
    | none, some n => { w with dev := d }.departHead q.who lane start dest q.dst n
    | none, none => { w with dev := d }
  | .ctrl c => { w with dev := { d with fab := { d.fab with ctrl := d.fab.ctrl.filter (·.id ≠ c.id) } }.sendControl c.kind lane start c.unit }

/-- The Creel of a lane grants its next transfer `pos` block times after the start of the slot, unless the lane is still busy (R239, R240). Log entry notes/assumptions/25.md (DESIGN CHOICE). -/
def execLaneCreelGrant (e : Fin 8) (f : Fin 18) (i : Fin 8) (pos : Nat) (s : State) : Host.Outcome State Fault Refusal :=
  runWork 4 (fun w =>
    let d := w.dev
    let lane := Dev.laneNo (e, f, i)
    let now := d.fab.slotBase + pos
    if now < d.laneFrom lane then w
    else
      let d := { d with fab := { d.fab with block := max d.fab.block now } }
      let dest := (d.laneDest d.tw.slot (e.val, f.val, i.val)).getD 0xFFFF
      match Dev.creelPick now d.laneBias (fun r => (r.cls, r.stamp, r.id)) (d.eligible e f i pos) with
      | none => { w with dev := d }
      | some r => { w with dev := d }.grantLane (d.slotCode e f d.tw.slot) lane now dest r) s

/-- Only the management processor and the owner port tune the lanes (R241). -/
def Dev.whole : Requester → Bool
  | .part _ => false
  | _ => true

/-- A write of COMMIT to the fabric window's CREEL_COMMIT applies the eight shadows at every lane (R9, R241). -/
def Dev.commitLaneCreel (d : Dev) (r : Requester) : Dev :=
  if !whole r then d.answer .partitionDenied
  else
    ({ d with fab := { d.fab with
      bias := (List.range 8).foldl (fun t c => t.set c (d.get F.CREEL_BIAS_FAB_BIAS c)) d.fab.bias } }).answer .ok

/-- LANE_CREEL_COMMIT (R241). -/
def execLaneCreelCommit (r : Requester) (s : State) : Host.Outcome State Fault Refusal :=
  runDev 4 (Dev.ask r fun d => d.commitLaneCreel r) s

/-! ### Skeins -/

/-- TSKEIN (R147): the skein at s[RA] is handed to the flow engine once the units of its mask have drained (R121); its acceptance writes RD. The skein queue
holds 8 (R118). Log entry notes/assumptions/50.md (DEDUCED). -/
def execTskein (c : Fin 1024) (w : Word) (s : State) : Host.Outcome State Fault Refusal :=
  runDev (coreDom c) (fun d => d.issueCore c w 0xA4 fun k =>
    if 8 ≤ k.tq.length then k
    else
      let k' := { k with tq := k.tq ++ [Hand.mk k.seq (k.reg (Op.ra w)).toNat (Op.rd w) (Op.fn w)] }
      (k'.await (Op.rd w)).bumpSeq.advance) s

/-- Read a skein record into its fields (R237). -/
def skeinOf (l : List Nat) (id part addr : Nat) (o : SkeinFrom) : Skein :=
  let w (i : Nat) : Nat := (l[i]?).getD 0
  { id, part, addr, origin := o, kind := bits (w 0) 0 4, sig := (w 0).testBit 4, tag := (w 0).testBit 5, localSig := (w 0).testBit 6
    flow := bits (w 0) 8 12, sync := bits (w 0) 32 16, compSync := bits (w 0) 48 16, src := bits (w 1) 0 48, bytes := bits (w 2) 0 40
    off := bits (w 3) 0 32, due := bits (w 3) 32 32, epoch := bits (w 4) 0 16, pe := bits (w 4) 16 3
    tags := [bits (w 5) 0 32, bits (w 5) 32 32, bits (w 6) 0 16] }

/-- The reserved fields of a skein record are zero (R237). -/
def skeinReservedOk (l : List Nat) : Bool :=
  let w (i : Nat) : Nat := (l[i]?).getD 0
  bits (w 0) 7 1 = 0 && bits (w 0) 20 12 = 0 && bits (w 1) 48 16 = 0 && bits (w 2) 40 24 = 0 && bits (w 4) 19 45 = 0 &&
  bits (w 6) 16 48 = 0 && bits (w 7) 49 15 = 0

/-- The status with which the part meets a skein of partition `p` at acceptance (R12, R228, R238, R363): that of a failed send context, else the lowest of the conditions that it breaks.
Log entry notes/assumptions/23.md (DEDUCED). -/
def Dev.skeinStatus (d : Dev) (p : Nat) (l : List Nat) (x : Skein) : Status :=
  let n := x.flow
  let dst := d.ctx n .peer
  let mine := d.ctxIs n 0 && d.ctx n .part = p
  let bytesOk := if x.kind = 1 then x.bytes = 0 && d.ctx n .ch = 2 else x.bytes ≠ 0 && x.bytes % 256 = 0
  let when_ (b : Bool) (s : Status) : Status := if b then s else .ok
  if mine && d.ctx n .status ≠ 0 then d.ctxStatus n
  else
    Status.lowestOf
      [when_ (!skeinReservedOk l || decide (3 < x.kind) || !mine || !bytesOk) .formatFault, when_ (!(d.fab.keys.get {} p).live) .keyRevoked,
       when_ (mine && decide (x.kind < 3) && !(x.kind = 2 && dst = d.fabId) && (d.routeOf p dst).isNone) .sliceDenied,
       if x.kind = 1 then .ok else (d.reach (some p) x.src x.bytes).1]

/-- A skein is refused without a write to it: its status goes to the first-status register of the submitting core's unit T (R124), or back to the Ply engine (R238). Log entry notes/assumptions/23.md (DEDUCED). -/
def Work.refuseSkein (w : Work) (o : SkeinFrom) (addr : Nat) (s : Status) : Work × Status :=
  match o with
  | .core c => (w.on (·.modCore c (·.record 3 s)), s)
  | .ply _ => (w.on fun d => { d with fab := { d.fab with finished := d.fab.finished ++ [(o, addr, s, 0)] } }, s)
  | .host _ => (w, s)

/-- The flow engine meets the skein at `addr` (R147, R238): the status of acceptance. A record that cannot be read is not accepted and not written; one
refused at acceptance completes there. Log entry notes/assumptions/23.md (DEDUCED). -/
def Work.acceptSkein (w : Work) (p reader addr : Nat) (o : SkeinFrom) : Work × Status :=
  match w.load (some p) reader addr 64 with
  | (w, .ok, _, bs) =>
    let l := (List.range 8).map fun i => leNat ((bs.drop (8 * i)).take 8)
    let x := skeinOf l w.dev.fab.nextId p addr o
    let w := w.on fun d => { d with fab := { d.fab with nextId := d.fab.nextId + 1 } }
    let st := w.dev.skeinStatus p l x
    if st ≠ .ok then (w.finishSkein { x with localSig := x.localSig && decide (x.kind ≤ 3) } st, st)
    else
      (w.on fun d =>
        ({ d with fab := { d.fab with skeins := d.fab.skeins ++ [x] } }.showOpen x.flow).queueHead x.flow, .ok)
  | (w, st, _, _) => w.refuseSkein o addr st

/-- Core `c` hands over its oldest skein (R121, R147). -/
def Work.acceptFromCore (w : Work) (c : Fin 1024) : Work :=
  match (w.dev.core c).tq with
  | [] => w
  | h :: _ =>
    if !(w.dev.core c).unitsDone h.mask h.seq then w
    else
    let (w, st) : Work × Status := match w.dev.partOfCore c with
      | none => w.refuseSkein (.core c) h.addr .partitionDenied
      | some p =>
        if w.dev.reachAt (some p) h.addr = .partitionDenied then w.refuseSkein (.core c) h.addr .partitionDenied
        else if h.addr % 64 ≠ 0 || !inBobbin c h.addr 64 then w.refuseSkein (.core c) h.addr .formatFault
        else w.acceptSkein p c h.addr (.core c)
    w.on (·.handDone c h st)

/-- The port's queue engine hands over the skein of its oldest SKEIN entry (R237, R355); one that is refused has completed. -/
def Work.acceptFromPort (w : Work) (q : Fin 4) : Work :=
  let isNew (e : QEntry) : Bool := e.op = 1 && !e.handed && e.done.isNone
  match w.dev.partOfPort q, (w.dev.zport q).entries.find? isNew with
  | some p, some e =>
    let mark (f : QEntry → QEntry) (d : Dev) : Dev :=
      d.setZport q { d.zport q with entries := (d.zport q).entries.map fun x => if x.id = e.id then f x else x }
    let w := w.on (mark fun x => { x with handed := true })
    let (w, st) := w.acceptSkein p (0x828 + q.val) e.addr (.host q)
    if st = .ok then w
    else w.on fun d =>
      mark (fun x => { x with done := some (st, 0) }) { d with fab := { d.fab with finished := d.fab.finished.filter fun x =>
        !(x.1 = .host q && x.2.1 = e.addr) } }
  | _, _ => w

/-- The flow engine takes the next skein of a core, of a port's queue, or of a Ply engine from a record at `addr` (R147, R237, R238). Log entry notes/assumptions/23.md (DEDUCED). -/
def execSkeinAccept (o : SkeinFrom) (addr : Fin 4398046511104) (s : State) : Host.Outcome State Fault Refusal :=
  runWork 4 (fun w =>
    match o with
    | .core c => w.acceptFromCore c
    | .ply e =>
      match w.dev.partOfHbm addr with
      | some p => (if addr.val % 64 = 0 then w.acceptSkein p (0x810 + e.val) addr o else w.refuseSkein o addr .formatFault).1
      | none => (w.refuseSkein o addr .partitionDenied).1
    | .host q => w.acceptFromPort q) s

/-- A skein of flow `n` whose packets are all acknowledged completes, with the status that its signal returned (R200); one whose flow has failed completes with that status (R238). -/
def execSkeinComplete (n : Fin 4096) (s : State) : Host.Outcome State Fault Refusal :=
  runWork 4 (fun w =>
    match w.dev.fab.skeins.find? fun x => x.flow = n.val && x.kind ≠ Dev.messageKind with
    | none => w
    | some x =>
      match x.failed with
      | some st => w.finishSkein x st
      | none =>
        if Dev.skeinCut x && !(w.dev.fab.flights.any (·.skein = some x.id)) then w.finishSkein x (x.note.getD .ok) else w) s

namespace Dev

/-- A lane of the fibre-slots of partition `p` serves one of the paths to a part in some slot of the plan (R244). -/
def pathOpen (d : Dev) (p dst : Nat) (paths : List (Option Nat)) : Bool :=
  (List.range 64).any fun s => lanes.any fun x => d.slotCode x.1 x.2.1 s = p &&
    match d.laneDest s x with
    | some dest => (pathVia paths dst dest).isSome
    | none => false

/-- The deadline retransmission of a packet (R244 steps 1 and 2): on a shortest path other than the one that it last took, or the flow fails with PATH_LOST. -/
def retryLate (d : Dev) (x : Flight) : Dev :=
  let p := d.ctx x.flow .part
  let ring := decide (x.packet.dst = 0xFFFF)
  if d.ctx x.flow .status ≠ 0 then d
  else if !d.pathOpen p x.peer ((d.pathsTo p x.peer ring).filter (· ≠ x.path)) then d.failFlow x.flow .pathLost
  else
    { d with fab := { d.fab with flights := d.fab.flights.map fun y => if y = x then { y with late := true } else y } }.queueRem
      { id := 0, who := p, flow := some x.flow, dst := x.peer, ch := x.packet.ch, direct := ring, avoid := some x.path, packet := some x.again, stamp := 0 }

/-- The deadlines of flow `n` at the current plan twist (R244). -/
def meetDeadlines (d : Dev) (n : Nat) : Dev :=
  let now := d.planTwist (d.ctx n .part)
  if d.fab.skeins.any fun x => x.flow = n && x.kind ≠ messageKind && x.failed.isNone && decide ((x.due : Int) < now) then d.failFlow n .deadlineMissed
  else if d.fab.flights.any fun x => x.flow = n && x.late && decide (x.twist + 2 ≤ now) then d.failFlow n .deadlineMissed
  else (d.fab.flights.filter fun x => x.flow = n && !x.late && decide (x.twist + 1 ≤ now)).foldl retryLate d

end Dev

/-- The deadlines of flow `n` at the current plan twist (R244): one deadline retransmission on another path, PATH_LOST without one, DEADLINE_MISSED one
twist later or past DUE. A forwarder of a ring keeps them for the packets that it has sent on (R246). -/
def execFlowDeadline (n : Fin 4096) (s : State) : Host.Outcome State Fault Refusal :=
  runDev 4 (fun d =>
    if !(d.ctxIs n 0 || (d.ctxIs n 1 && d.ctx n .ring = 1)) || !d.hasPlan (d.ctx n .part) || d.ctx n .status ≠ 0 then d
    else
      let d := d.meetDeadlines n
      if d.ctxIs n 0 then d.showOpen n else d) s

/-! ### Prepares -/

namespace Dev

/-- The rings that a plan's permutations use, as engine and ring. -/
def planRings (a : Plan) : List (Nat × Nat) :=
  a.perms.entries.flatMap fun x => (List.range 8).map fun i => (x.1 / 64 / 18, 64 * (x.1 / 64 % 18) + 8 * i + permLine x.2 i)

/-- A prepare fails (R248): the staged bank is EMPTY. -/
def failPrepare (d : Dev) (p : Nat) (st : Status) (sec ent : Nat) : Dev :=
  let d := d.setBank p { d.bank p with staged := none, unprimed := [], arrived := false, switchAt := none }
  d.putAll p [(F.FAB_PLAN_STAT_STATUS, st.code), (F.FAB_PLAN_STAT_SECTION, sec), (F.FAB_PLAN_STAT_ENTRY, ent), (F.FAB_PLAN_STAT_STAGED, 0)]

/-- Empty the staged bank. -/
def emptyStaged (d : Dev) (p : Nat) : Dev :=
  (d.setBank p { d.bank p with staged := none, unprimed := [], arrived := false, switchAt := none }).put F.FAB_PLAN_STAT_STAGED p 0

/-- The first permutation entry that needs a FAILED ring or a fibre out of service (R268). -/
def unlockable (d : Dev) (a : Plan) : Option Nat :=
  (a.perms.entries.find? fun x =>
    let e := x.1 / 64 / 18
    let f := x.1 / 64 % 18
    (List.range 8).any fun i => d.ringState e (64 * f + 8 * i + permLine x.2 i) = 7 || d.isSet F.LANE_STAT_OUT (288 * e + 8 * f + i)).map (·.1)

/-- A prepare under way whose plan needs a ring that has FAILED, or a fibre that has gone out of service, fails with NOT_LOCKED at the permutation entry (R268). -/
def recheckPrepares (d : Dev) : Dev :=
  (List.range 4).foldl (fun (d : Dev) p =>
    match d.get F.FAB_PLAN_STAT_STAGED p, (d.bank p).staged with
    | 2, some a =>
      match d.unlockable a with
      | some k => let (s, e) := a.places.get (0xF, 0xFFFFFF) k; d.failPrepare p .notLocked s e
      | none => d
    | _, _ => d) d

end Dev

/-! ### Tables -/

/-- A partition of the part has an active plan, or a staged one past LOADING (R218). -/
def Dev.planBeyondLoading (d : Dev) : Bool :=
  (List.range 4).any fun p => d.hasPlan p || decide (2 ≤ d.get F.FAB_PLAN_STAT_STAGED p)

/-- A partition has an active or staged plan (R219). -/
def Dev.planActiveOrStaged (d : Dev) (p : Nat) : Bool := d.hasPlan p || d.get F.FAB_PLAN_STAT_STAGED p ≠ 0

/-- A write to a path map entry (R217, R218, R252). -/
def Dev.writePmap (d : Dev) (r : Requester) (k v : Nat) : Dev :=
  if !whole r then d.answer .partitionDenied
  else if d.planBeyondLoading then d.answer .writeRefused
  else (d.setWord .FAB_PMAP k (BitVec.ofNat 64 (v % 2 ^ 50))).answer .ok

/-- FAB_PMAP_WRITE (R218). -/
def execFabPmapWrite (r : Requester) (k : Fin 1152) (v : Word) (s : State) : Host.Outcome State Fault Refusal :=
  runDev 4 (Dev.ask r fun d => d.writePmap r k v.toNat) s

/-- A write of owner codes (R219): a reserved code or a 17th coded fibre of an engine in a slot is a format fault; a change of a fibre-slot held under a plan is
refused, and that refusal is the lower code. -/
def Dev.writeFslot (d : Dev) (r : Requester) (k v : Nat) : Dev :=
  let old := (d.word .FAB_FSLOT k).toNat
  let code (x s : Nat) : Nat := bits x (4 * s) 4
  let e := k / 4 / 18
  let refused := (List.range 16).any fun s => code old s ≠ code v s &&
    (List.range 4).any fun p => code old s = p && d.planActiveOrStaged p
  let reserved := (List.range 16).any fun s => decide (5 ≤ code v s ∧ code v s ≤ 14)
  let d' := d.setWord .FAB_FSLOT k (BitVec.ofNat 64 v)
  let crowded := (List.range 16).any fun s =>
    decide (16 < ((List.range 18).filter fun f => d'.slotCode e f (16 * (k % 4) + s) ≠ 15).length)
  if !whole r then d.answer .partitionDenied
  else if refused then d.answer .writeRefused
  else if reserved || crowded then d.answer .formatFault
  else d'.answer .ok

/-- FAB_FSLOT_WRITE (R219). -/
def execFabFslotWrite (r : Requester) (k : Fin 576) (v : Word) (s : State) : Host.Outcome State Fault Refusal :=
  runDev 4 (Dev.ask r fun d => d.writeFslot r k v.toNat) s

/-- A write to a transit entry (R230, R231): a DST of this part, or a tag that a local partition holds, is a format fault. FAB_TRN_j counts at no time as the active, unshadowed
table of R9: log entry notes/assumptions/14.md (DESIGN CHOICE). Log entry notes/assumptions/24.md (DEDUCED). -/
def Dev.writeTrn (d : Dev) (r : Requester) (j v : Nat) : Dev :=
  if !whole r then d.answer .partitionDenied
  else if bits v 17 16 = d.fabId || (List.range 4).any fun p => d.holdsTag p (bits v 1 16) then d.answer .formatFault
  else (d.setWord .FAB_TRN j (BitVec.ofNat 64 (v % 2 ^ 33))).answer .ok

/-- FAB_TRN_WRITE (R230). -/
def execFabTrnWrite (r : Requester) (j : Fin 64) (v : Word) (s : State) : Host.Outcome State Fault Refusal :=
  runDev 4 (Dev.ask r fun d => d.writeTrn r j v.toNat) s

end Sys2Proof.Machine
end

