-- ==== Sys2Proof/Machine/MonOps.lean ====
section
/-!
DEFINITION. The monitor's lines (R416, R420, R421): the characters that it sends for a line of a kind with the values that it prints.
With them, the balls that boundary scan takes (R424, R425).
-/

namespace Sys2Proof.Machine

/-- The kinds of line that the monitor sends (R416, R420, R421). -/
inductive MonLine where
  | status | word | failed | log | frozen | snapshot | lane | object | twist | margin | command | aborted | banner
  deriving DecidableEq, Repr

/-- The number of a kind of line in the model's trace. -/
def MonLine.code : MonLine → Nat
  | .status => 0 | .word => 1 | .failed => 2 | .log => 3 | .frozen => 4 | .snapshot => 5 | .lane => 6 | .object => 7 | .twist => 8 | .margin => 9
  | .command => 10 | .aborted => 11 | .banner => 12

/-- A value in hex with `n` digits: the prefix 0x, capital digits, and an underscore every four digits counted from the right (R421, the conventions of Scope and Conventions). -/
def hexText (n v : Nat) : List Char :=
  "0x".toList ++ (List.range n).reverse.flatMap fun i =>
    "0123456789ABCDEF".toList.getD (v / 16 ^ i % 16) '0' :: (if i % 4 = 0 ∧ i ≠ 0 then ['_'] else [])

/-- A number in decimal. -/
def decText (v : Nat) : List Char := Nat.toDigits 10 v

/-- A lane's index as the results of `mg` print it: three decimal digits (R420). -/
def laneText (k : Nat) : List Char := (decText (1000 + k % 1000)).drop 1

/-- TWIST_ALIGN.ERROR, signed and in units of 125 ps, as `tt` prints it in ps (R420). -/
def errorText (v : Nat) : List Char := if v < 2 ^ 15 then decText (125 * v) else '-' :: decText (125 * (2 ^ 16 - v))

/-- The names of the status codes (R10). -/
def statusNames : List String :=
  ["OK", "ECC_UNCORRECTED", "DIE_LOST", "ISOLATED", "SLICE_DENIED", "PARTITION_DENIED", "VERSION_SKEW", "EPOCH_STALE", "DEADLINE_MISSED", "PATH_LOST", "WRITE_REFUSED", "KEY_REVOKED",
    "SATURATED", "FORMAT_FAULT", "STEP_STALE", "NOT_LOCKED"]

/-- The commands of R420, as `hp` lists them. -/
def commandNames : List String := ["pk", "po", "ev", "fz", "sn", "ln", "so", "sr", "tt", "mg", "bd", "hp"]

/-- The name before each value of a line, and the digits that the value prints with (R420): 0 for decimal. Log entry notes/assumptions/40.md (DESIGN CHOICE). -/
def MonLine.format : MonLine → List (String × Nat)
  | .word => [("", 12), ("", 16)]
  | .log => [("", 0), ("", 16), ("", 16), ("", 16), ("", 16)]
  | .frozen => [("", 1), ("", 1), ("", 16)]
  | .snapshot => [("", 6), ("", 16)]
  | .lane => [("", 0), ("v=", 2), ("f=", 2), ("l=", 1), ("a=", 1), ("d=", 1), ("x=", 1), ("o=", 1)]
  | .object => [("", 0), ("v=", 8), ("w=", 4), ("s=", 1), ("lp=", 4), ("ls=", 3), ("c=", 1), ("t=", 8)]
  | _ => []

/-- The parts of a line that a space joins. -/
def spaced : List (List Char) → List Char
  | [] => []
  | [x] => x
  | x :: t => x ++ ' ' :: spaced t

/-- The text of a line (R416, R420, R421). Log entry notes/assumptions/40.md (DESIGN CHOICE). -/
def MonLine.text (k : MonLine) (l : List Nat) : List Char :=
  let v (i : Nat) : Nat := l.getD i 0
  match k with
  | .status => if v 0 = 0 then "ok".toList else spaced ["er".toList, hexText 2 (v 0), (statusNames.getD (v 0) "").toList]
  | .failed => spaced [hexText 12 (v 0), "er".toList, hexText 2 (v 1)]
  | .twist => spaced [hexText 16 (v 0), "st=".toList ++ hexText 1 (v 1), "err=".toList ++ errorText (v 2), "src=".toList ++ hexText 4 (v 3), "h=".toList ++ hexText 2 (v 4)]
  | .margin => spaced (if l.length = 5 then laneText (v 0) :: (l.drop 1).map decText else l.map decText)
  | .command => (commandNames.getD (v 0) "").toList
  | .aborted => "ab".toList
  | .banner => spaced ["fralin 1.0 KVGT1-512".toList, hexText 16 (v 0), "cause".toList, decText (v 1)]
  | .frozen => "frz ".toList ++ spaced ((MonLine.frozen.format.zip l).map fun x => hexText x.1.2 x.2)
  | k => spaced ((k.format.zip l).map fun x => x.1.1.toList ++ if x.1.2 = 0 then decText x.2 else hexText x.1.2 x.2)

/-- The characters that leave for a line: its text and a line feed, and the prompt after the banner and after the line that ends an answer (R416). Log entry notes/assumptions/40.md (DESIGN CHOICE). -/
def MonLine.sent (k : MonLine) (l : List Nat) : List Nat :=
  (k.text l ++ '\n' :: (if k = .status ∨ k = .aborted ∨ k = .banner then "> ".toList else [])).map Char.toNat

/-! ### Received lines -/

/-- The value of a hex digit, of either case. -/
def hexDigit (c : Char) : Option Nat := ("0123456789abcdef".toList.findIdx? (· = c)).or ("0123456789ABCDEF".toList.findIdx? (· = c))

/-- The value of digits in a base, the first one highest. -/
def digitsValue (base : Nat) (t : Text) : Option Nat :=
  t.foldl (fun r c => match r, hexDigit c with
    | some v, some x => if x < base then some (base * v + x) else none
    | _, _ => none) (some 0)

/-- An argument as a number (R420): decimal, or hex with the prefix 0x and optional underscores. Log entry notes/assumptions/40.md (DESIGN CHOICE). -/
def textNum (t : Text) : Option Nat :=
  match t with
  | [] => none
  | '0' :: 'x' :: r => let r := r.filter (· ≠ '_'); if r.isEmpty then none else digitsValue 16 r
  | t => digitsValue 10 t

/-- Arguments that are all numbers. -/
def textNums : List Text → Option (List Nat)
  | [] => some []
  | t :: r => match textNum t, textNums r with
    | some v, some l => some (v :: l)
    | _, _ => none

/-- The arguments of `pk` (R420): an address that is a multiple of 8, and a count. -/
def pkArgs (l : List Text) : Option (Nat × Nat) :=
  let fit (a n : Nat) : Option (Nat × Nat) := if a % 8 = 0 ∧ a < 2 ^ 48 ∧ 1 ≤ n ∧ n ≤ 256 then some (a, n) else none
  match textNums l with
  | some [a] => fit a 1
  | some [a, n] => fit a n
  | _ => none

/-- The arguments of `po` (R420). -/
def poArgs (l : List Text) : Option (Nat × Nat) :=
  match textNums l with
  | some [a, v] => if a % 8 = 0 ∧ a < 2 ^ 48 ∧ v < 2 ^ 64 then some (a, v) else none
  | _ => none

/-- An optional count from 1 to `top`, else the default (R420). -/
def countArg (top dflt : Nat) (l : List Text) : Option Nat :=
  match textNums l with
  | some [] => some dflt
  | some [n] => if 1 ≤ n ∧ n ≤ top then some n else none
  | _ => none

/-- The argument of `fz` (R420): `now`, or else `arm`. -/
def fzArgs (l : List Text) : Option Bool :=
  if l = ["now".toList] then some true else if l = ["arm".toList] then some false else none

/-- The argument of `sn` (R420). -/
def snArgs (l : List Text) : Option Nat :=
  match textNums l with
  | some [w] => if w < 32 then some w else none
  | _ => none

/-- The arguments of `ln` (R420): an engine, and one lane or all. -/
def lnArgs (l : List Text) : Option (Nat × Option Nat) :=
  match textNums l with
  | some [e] => if e < 8 then some (e, none) else none
  | some [e, n] => if e < 8 ∧ n < 288 then some (e, some n) else none
  | _ => none

/-- The arguments of `so` (R420). -/
def soArgs (l : List Text) : Option (Nat × Nat) :=
  let fit (id n : Nat) : Option (Nat × Nat) := if 1 ≤ n ∧ n ≤ 256 ∧ id + n ≤ 65536 then some (id, n) else none
  match textNums l with
  | some [id] => fit id 1
  | some [id, n] => fit id n
  | _ => none

/-- The arguments of `sr` (R420). -/
def srArgs (l : List Text) : Option (Nat × Nat) :=
  match textNums l with
  | some [id, v] => if id < 65536 ∧ v < 2 ^ 32 then some (id, v) else none
  | _ => none

/-- The arguments of `mg` (R420): the target, and the value of its CTL register without START, by the fields of HBM_MRG_CTL, LANE_MRG_CTL and LBI_MRG_CTL. -/
def mgArgs (l : List Text) : Option (Margin × Nat) :=
  match l with
  | [] => none
  | t :: r => match textNums r with
    | some [c, x, y, z] =>
      if 256 ≤ z then none
      else if t = ['h'] then if c < 256 ∧ x < 2 ∧ y < 2 then some (.hbm, c + x * 2 ^ 8 + y * 2 ^ 9 + z * 2 ^ 16) else none
      else if t = ['l'] then if c < 8 ∧ x < 256 ∧ y < 2 then some (.lane c, x + y * 2 ^ 8 + z * 2 ^ 12) else none
      else if t = ['b'] then if c < 128 ∧ x < 2 ∧ y < 2 then some (.bond, c + x * 2 ^ 7 + y * 2 ^ 8 + z * 2 ^ 12) else none
      else none
    | _ => none

/-- The codes of the baud rates (R415, R426). -/
def baudCode (rate : Nat) : Option Nat := ([115200, 230400, 460800, 921600, 1500000, 3000000] : List Nat).findIdx? (· = rate)

/-- The argument of `bd`, as the rate's code (R415, R420). -/
def bdArgs (l : List Text) : Option Nat :=
  match textNums l with
  | some [rate] => baudCode rate
  | _ => none

/-- A line of a command as it is received (R416): the two letters of its name, a space before each argument and the line's end, of at most 128 characters. -/
def RxLine.of (name : MonName) (args : List Text) : RxLine :=
  let chars := 2 + (args.map fun t => 1 + t.length).sum
  ⟨some name, args, chars + 1, decide (chars ≤ 128)⟩

namespace Dev

/-- A line joins the receive buffer of 256 bytes behind the lines that wait there; one that does not fit loses characters (R416). Log entry notes/assumptions/40.md (DESIGN CHOICE). -/
def monTake (d : Dev) (x : RxLine) : Dev :=
  let room := 256 - (d.mon.rx.map (·.bytes)).sum
  let x := if x.bytes ≤ room then x else { x with bytes := room, whole := false }
  { d with mon := { d.mon with rx := d.mon.rx ++ [x], switched := d.mon.switched && !x.whole } }

/-- Send a line (R414). -/
def monLine (d : Dev) (k : MonLine) (l : List Nat) : Dev := d.send .monitor k.code (k.sent l)

/-- Send lines. -/
def monLines (d : Dev) (k : MonLine) (l : List (List Nat)) : Dev := l.foldl (fun (d : Dev) x => d.monLine k x) d

/-- The status line that ends a command (R421). -/
def monEnd (d : Dev) (s : Status) : Dev := (d.monLine .status [s.code]).answer s

/-- The monitor runs a command (R426: `DBG_MON_CTL.BUSY`). -/
def monBusy (d : Dev) : Bool := d.isSet F.DBG_MON_CTL_BUSY

/-- A command that takes time starts or ends. -/
def setMon (d : Dev) (m : Mon) : Dev := { d with mon := m }.put F.DBG_MON_CTL_BUSY 0 (flag (decide (0 < m.ttLeft) || m.margin.isSome))

/-- The margin run that `mg` waits for is done: the monitor prints its results and the run's status (R420, R421). -/
def marginDone (d : Dev) (m : Margin) : Dev :=
  if d.mon.margin ≠ some m then d
  else
    let d := d.setMon { d.mon with margin := none }
    match m with
    | .hbm =>
      (d.monLines .margin ((List.range 82).map fun k =>
        [k, d.get F.HBM_MRG_RES_LOW k, d.get F.HBM_MRG_RES_HIGH k, d.get F.HBM_MRG_RES_PASS k, d.get F.HBM_MRG_RES_IN_USE k])).monEnd .ok
    | .lane e =>
      (d.monLine .margin [d.get F.LANE_MRG_RES_LOW e, d.get F.LANE_MRG_RES_HIGH e, d.get F.LANE_MRG_RES_PASS e]).monEnd
        (Status.ofCode (d.get F.LANE_MRG_CTL_STATUS e))
    | .bond =>
      (d.monLines .margin ((List.range 656).map fun k =>
        [k, d.get F.LBI_MRG_RES_LOW k, d.get F.LBI_MRG_RES_HIGH k, d.get F.LBI_MRG_RES_PASS k, d.get F.LBI_MRG_RES_IN_USE k])).monEnd
        (Status.ofCode (d.get F.LBI_MRG_CTL_STATUS))

/-- At a boundary a `tt` that runs captures TWIST_CNT and TWIST_ALIGN, and prints after the last (R420). -/
def captureTwist (d : Dev) : Dev :=
  if d.mon.ttLeft = 0 then d
  else
    let l := d.mon.ttLines ++ [[d.get F.TWIST_CNT_CNT, d.get F.TWIST_ALIGN_STATE, d.get F.TWIST_ALIGN_ERROR, d.get F.TWIST_ALIGN_SOURCE, d.get F.TWIST_ALIGN_HOPS]]
    if d.mon.ttLeft = 1 then ((d.setMon { d.mon with ttLeft := 0, ttLines := [] }).monLines .twist l).monEnd .ok
    else d.setMon { d.mon with ttLeft := d.mon.ttLeft - 1, ttLines := l }

/-- What the boundary register drives (R425): FREEZE_N (open drain), MON_TX, RRB_CLK and RRB_DAT as 0 or 1, or 2 where the ball is not driven. -/
def ballsDriven (b : BitVec 33) : List Nat :=
  let driven (out ctl : Nat) : Nat := if b.getLsbD ctl then flag (b.getLsbD out) else 2
  [if b.getLsbD 2 then 2 else 0, driven 23 24, driven 26 27, driven 29 30]

/-- EXTEST, CLAMP and HIGHZ take the balls only while PKG_RST_N is sampled low (R424): 1 what the boundary register drives, 2 floated.
Once it is high the functional drivers hold them, whatever the instruction. -/
def takeBalls (d : Dev) : Dev :=
  if !d.boot.pinLow then d
  else match d.tap.ir with
    | 0 | 3 => d.send .pin 1 (ballsDriven d.tap.boundary)
    | 4 => d.send .pin 2 []
    | _ => d

/-- PKG_RST_N rises: with EXTEST, CLAMP or HIGHZ loaded, control of the balls returns to the functional drivers at that sample (R424). -/
def leaveBalls (d : Dev) : Dev := if d.boot.pinLow && decide (d.tap.ir ∈ [0, 3, 4]) then d.send .pin 3 [] else d

end Dev

end Sys2Proof.Machine
end

