-- ==== Sys2Proof/Machine/Light.lean ====
section
/-!
DEFINITION. The light engines: ring locks (R263 to R268), distaffs and fade (R260, R261, R269), the switch to the spare (R270 to R273), margining
(R276) and the registers with a row of their own (R258, R261, R277); with it raising a slip (R194).
-/

namespace Sys2Proof.Machine

namespace Dev

/-! ### Slips -/

/-- The bytes of a slip notice (R245): the slice tag and the counter value of the raising boundary. -/
def slipBytes (tag c : Nat) : List Byte := leBytes 1 0x10 ++ leBytes 2 tag ++ leBytes 8 c

/-- Raise a slip of a partition's slice (R194): logged with its unit, and the first one at a boundary sends a slip notice. -/
def raiseSlip (d : Dev) (p unit : Nat) : Dev :=
  if !d.hasPlan p then d
  else
    let d := d.raise .slipRaised p unit (field 64 (d.planTwist p))
    let c := d.get F.TWIST_CNT_CNT
    let notice (d : Dev) : Dev := d.sendMsg p 0xFFFF (slipBytes (d.sliceTag p) c)
    match d.tw.slips.find? fun x => x.part = p && x.at_ = c with
    | none => notice { d with tw := { d.tw with slips := d.tw.slips ++ [⟨p, c, c + 1, true⟩] } }
    | some x =>
      if x.sent then d
      else notice { d with tw := { d.tw with slips := d.tw.slips.map fun y => if y = x then { y with sent := true } else y } }

/-! ### Groups -/

/-- The transmit rings of a group of engine `e` (R255, R260). -/
def groupRings (g : Nat) : List Nat :=
  ((List.range 18).filter fun f => f % 2 = g).flatMap fun f => (List.range 64).map fun x => 64 * f + x

/-- The transmit lanes of a group. -/
def groupLanes (g : Nat) : List Nat :=
  ((List.range 18).filter fun f => f % 2 = g).flatMap fun f => (List.range 8).map fun i => 8 * f + i

/-- The partitions that hold a fibre-slot on an output fibre of a group, in any slot (R270). -/
def groupParts (d : Dev) (e g : Nat) : List Nat :=
  (List.range 4).filter fun p => (List.range 18).any fun f => f % 2 = g && (List.range 64).any fun s => d.slotCode e f s = p

/-- Mark lanes of a group. -/
def markLanes (d : Dev) (e : Nat) (l : List Nat) (f : Fld) (v : Nat) : Dev := l.foldl (fun d n => d.put f (288 * e + n) v) d

def ringLoop (d : Dev) (e m : Nat) : RingLoop := d.light.rings.get {} (2304 * e + m)

def setLoop (d : Dev) (e m : Nat) (x : RingLoop) : Dev :=
  { d with light := { d.light with rings := d.light.rings.set (2304 * e + m) x } }

def swOf (d : Dev) (e : Nat) : LaserSwitch := d.light.switches.get {} e

def setSw (d : Dev) (e : Nat) (x : LaserSwitch) : Dev := { d with light := { d.light with switches := d.light.switches.set e x } }

/-- The expected line of a ring; none for a parked receive ring (R263). -/
def expectedLine (d : Dev) (e m : Nat) : Option Nat :=
  if m < 1152 then some (m % 8)
  else
    let k := m - 1152
    let line := bits (d.get F.LANE_RXPERM_PERM (18 * e + k / 64)) (3 * (k / 8 % 8)) 3
    if line = k % 8 then some line else none

/-- The lane of a ring (R255). -/
def ringLane (m : Nat) : Nat := if m < 1152 then m / 8 else 144 + (m - 1152) / 8

/-- A switch goes on as its rings relock and verify (R270): RELOCK while a ring is still being captured, VERIFY, then WAIT_RETURN with the time taken. -/
def switchProgress (d : Dev) (e : Nat) : Dev :=
  let x := d.swOf e
  let st := d.get F.OPT_SW_STAT_STATE e
  if !x.turned || st < 3 then d
  else if x.before.all fun m => d.ringState e m = 4 then
    if st = 5 then d
    else d.putAll e [(F.OPT_SW_STAT_STATE, 5), (F.OPT_SW_STAT_LAST_US, (d.now - x.turnAt) / 1000)]
  else if st = 3 && x.before.all fun m => decide (d.ringState e m ≠ 1) && decide (d.ringState e m ≠ 2) then d.put F.OPT_SW_STAT_STATE e 4
  else d

/-- The light engines are up: every distaff is lit, and every transmit ring has both biases or has FAILED (R275). The firmware then shows READY (R384). -/
def bootLight (d : Dev) : Dev :=
  if d.get F.MGMT_BOOT_FW = 4 && (List.range 8).all fun e =>
      ((List.range 3).all fun k => decide (2 ≤ d.get F.OPT_DSTAT_STATE (3 * e + k))) &&
      (List.range 1152).all fun m => d.isSet F.LANE_RING_STORED_OK (2304 * e + m) || d.ringState e m = 7 then
    (d.put F.MGMT_BOOT_FW 0 5).raise .partReady 7 0x800 0
  else d

/-- Move a ring to a state (R264). A receive ring that leaves LOCKED ends its lane's margin run (R276). -/
def setRing (d : Dev) (e m st : Nat) : Dev :=
  let was := d.ringState e m
  let d := d.put F.LANE_RING_STATE (2304 * e + m) st
  let d :=
    if was = 4 && st ≠ 4 && d.isSet F.LANE_MRG_CTL_BUSY e && d.boundRing e (d.light.margin.get 0 e % 256) = m then
      (d.putAll e [(F.LANE_MRG_CTL_BUSY, 0), (F.LANE_MRG_CTL_DONE, 1), (F.LANE_MRG_CTL_STATUS, Status.notLocked.code)]).marginDone (.lane e)
    else d
  d.switchProgress e

/-- The heater setting from which a ring relocks (R266): the stored bias of the distaff that feeds it, plus the drift that the ring has shown. -/
def startBias (d : Dev) (e m feed : Nat) : Nat :=
  let i := 2304 * e + m
  if m < 1152 && feed = 2 then
    (d.get F.LANE_RING_STORED_SPR i + 65536 + d.get F.LANE_RING_BIAS i - d.get F.LANE_RING_STORED_ACT i) % 65536
  else d.get F.LANE_RING_STORED_ACT i

/-- A ring has FAILED (R23, R26, R264, R268, R274): a transmit lane that shows it in LANE_STAT has a transmit fault, so its fibre is reported; a bank of
eight without a good ring has no spare left, and with its lane a transmit fibre is lost; and a prepare that needs the ring fails. Log entry notes/assumptions/73.md (DEDUCED). -/
def failRing (d : Dev) (e m : Nat) : Dev :=
  let lost := d.fibreLost e (18 + m / 64)
  let d := d.setRing e m 7
  let d := if m < 1152 then d.reportFibre e (18 + m / 64) else d
  let d := if d.bankFailed e (m / 8 * 8) then
      let d := d.raise .spareExhausted 7 (0x818 + e) (6 + 256 * (2304 * e + m))
      if m < 1152 && !lost then d.exhaustFibres e (18 + m / 64) else d
    else d
  d.recheckPrepares

/-- A stored bias exists for the light that feeds the ring (R264, R266). -/
def biasValid (d : Dev) (e m : Nat) : Bool := d.isSet F.LANE_RING_STORED_OK (2304 * e + m)

/-- Start locking a ring from the light of a distaff (R264): from its stored bias, else by a sweep. -/
def startLock (d : Dev) (e m feed : Nat) : Dev :=
  let d := d.setLoop e m { d.ringLoop e m with fed := feed, sweeps := 0, passes := 0, weak := 0, windows := 0, steps := 0 }
  if d.biasValid e m then (d.put F.LANE_RING_BIAS (2304 * e + m) (d.startBias e m feed)).setRing e m 2
  else d.setRing e m 1

/-- A ring is verified (R266, R267): its heater setting is stored for the distaff that feeds it. -/
def lockRing (d : Dev) (e m : Nat) : Dev :=
  let i := 2304 * e + m
  let x := d.ringLoop e m
  let bias := d.get F.LANE_RING_BIAS i
  let spare := m < 1152 && x.fed = 2 && d.get F.OPT_DSTAT_STATE (3 * e + 2) ≠ 3
  let d := if spare then d.put F.LANE_RING_STORED_SPR i bias else d.put F.LANE_RING_STORED_ACT i bias
  let x := { x with hasAct := x.hasAct || !spare, hasSpr := x.hasSpr || spare, passes := 0, weak := 0, windows := 0, steps := 0, sweeps := 0 }
  let d := if x.hasAct && (x.hasSpr || decide (1152 ≤ m)) then d.put F.LANE_RING_STORED_OK i 1 else d
  ((d.setLoop e m x).setRing e m 4).bootLight

/-- A ring goes back to a sweep. -/
def seekRing (d : Dev) (e m : Nat) : Dev :=
  (d.setLoop e m { d.ringLoop e m with passes := 0, weak := 0, windows := 0, steps := 0 }).setRing e m 1

/-- The class of a pilot window (R263): 0 pass, 1 fail with the line found, 2 weak, 3 dark. Levels are in 0.01 dB. -/
def windowClass (dark : Bool) (pilots : List Int) (line : Nat) : Nat × Nat :=
  let p (i : Nat) : Int := (pilots[i]?).getD 0
  let top := (List.range 8).foldl (fun b i => if p b < p i then i else b) 0
  let next := (List.range 8).foldl (fun (b : Option Int) i => if i = top then b else match b with
    | some x => some (max x (p i))
    | none => some (p i)) none
  if dark then (3, 0)
  else if top = line && decide (next.getD (p top) + 600 ≤ p top) then (0, line)
  else if top ≠ line && decide (p line + 600 ≤ p top) then (1, top)
  else (2, 0)

/-- A ring without light is held (R264). -/
def holdRing (d : Dev) (e m : Nat) : Dev :=
  let st := d.ringState e m
  if 2 ≤ st ∧ st ≤ 4 then d.setRing e m 5 else d

end Dev

/-- PILOT_WINDOW (R263, R264, R267): a window of a ring is classed and moves its lock state. Log entry notes/assumptions/73.md (DEDUCED). -/
def execPilotWindow (e : Fin 8) (m : Fin 2304) (dark : Bool) (pilots : List Int) (s : State) : Host.Outcome State Fault Refusal :=
  runDev 4 (fun d =>
    let i := 2304 * e.val + m.val
    let st := d.ringState e m
    match d.expectedLine e m with
    | none => d
    | some line =>
      if st ≠ 3 ∧ st ≠ 4 then d
      else
        let x := d.ringLoop e m
        let (cls, found) := Dev.windowClass dark pilots line
        let x := { x with windows := x.windows + 1 }
        match cls with
        | 3 => d.holdRing e m
        | 0 =>
          let d := d.put F.LANE_RING_FOUND i line
          if st = 4 then d.setLoop e m { x with weak := 0 }
          else if x.passes + 1 = 2 then d.lockRing e m
          else if 5 ≤ x.windows then d.seekRing e m
          else d.setLoop e m { x with passes := x.passes + 1 }
        | 1 =>
          let d := d.putAll i [(F.LANE_RING_FOUND, found), (F.LANE_RING_MISLOCK, 1)]
          let d := (d.count .LANE_MISLOCK (288 * e + Dev.ringLane m)).raise .mislock 7 (0x818 + e) (m + found * 2 ^ 12)
          if 3 ≤ x.steps then d.seekRing e m
          else
            let (b, d) := d.free 16
            ((d.put F.LANE_RING_BIAS i b).setLoop e m { x with steps := x.steps + 1, passes := 0, weak := 0, windows := 0 }).setRing e m 2
        | _ =>
          if st = 4 then
            if x.weak + 1 = 3 then (d.setLoop e m { x with weak := 0, passes := 0, windows := 0 }).setRing e m 3
            else d.setLoop e m { x with weak := x.weak + 1 }
          else if 5 ≤ x.windows then d.seekRing e m
          else d.setLoop e m { x with passes := 0 }) s

/-- A distaff may feed a ring: it is lit, and for a transmit ring it is the one of the fibre's group or the spare (R260). -/
def Dev.mayFeed (d : Dev) (e m k : Nat) : Bool :=
  decide (1152 ≤ m) || ((k = 2 || k = m / 64 % 2) && (d.get F.OPT_DSTAT_STATE (3 * e + k) = 2 || d.get F.OPT_DSTAT_STATE (3 * e + k) = 3))

/-- RING_LOCK_REQUEST (R264, R275): a ring in OFF locks from a stored bias or seeks. At boot a group's rings seek again when its switch turns back to its own
distaff, which then serves the group. -/
def execRingLockRequest (e : Fin 8) (m : Fin 2304) (feed : Fin 3) (s : State) : Host.Outcome State Fault Refusal :=
  runDev 4 (fun d =>
    let st := d.ringState e m
    if !d.mayFeed e m feed then d
    else
      let k := 3 * e.val + feed.val
      let d := if m < 1152 && feed ≠ 2 && d.get F.OPT_DSTAT_STATE k = 2 then d.putAll k [(F.OPT_DSTAT_STATE, 3), (F.OPT_DSTAT_SERVES, feed)] else d
      if st = 0 then d.startLock e m feed
      else if m < 1152 && !d.biasValid e m && (d.ringLoop e m).fed ≠ feed && st ≠ 7 then d.startLock e m feed
      else d) s

/-- SEEK_SWEEP_END (R264): the sweep has named the resonance, at a heater setting, or ends without it. -/
def execSeekSweepEnd (e : Fin 8) (m : Fin 2304) (found : Bool) (bias : BitVec 16) (s : State) : Host.Outcome State Fault Refusal :=
  runDev 4 (fun d =>
    if d.ringState e m ≠ 1 then d
    else
      let i := 2304 * e.val + m.val
      let x := d.ringLoop e m
      if found then ((d.put F.LANE_RING_BIAS i bias.toNat).setLoop e m { x with sweeps := 0 }).setRing e m 2
      else if 4 ≤ x.sweeps + 1 then (((d.put F.LANE_RING_BIAS i 0).setLoop e m { x with sweeps := 0 }).failRing e m).bootLight
      else d.setLoop e m { x with sweeps := x.sweeps + 1 }) s

/-- CAPTURE_SETTLED (R264): the loop is within ±2 GHz for 5 µs, at a heater setting. -/
def execCaptureSettled (e : Fin 8) (m : Fin 2304) (bias : BitVec 16) (s : State) : Host.Outcome State Fault Refusal :=
  runDev 4 (fun d =>
    if d.ringState e m ≠ 2 then d
    else
      let d := d.put F.LANE_RING_BIAS (2304 * e + m) bias.toNat
      (d.setLoop e m { d.ringLoop e m with passes := 0, weak := 0, windows := 0 }).setRing e m 3) s

/-- CAPTURE_TIMEOUT (R264). -/
def execCaptureTimeout (e : Fin 8) (m : Fin 2304) (s : State) : Host.Outcome State Fault Refusal :=
  runDev 4 (fun d => if d.ringState e m = 2 then d.seekRing e m else d) s

/-- RING_DARK (R264). -/
def execRingDark (e : Fin 8) (m : Fin 2304) (s : State) : Host.Outcome State Fault Refusal :=
  runDev 4 (fun d => d.holdRing e m) s

/-- RING_LIGHT_RETURN (R264, R270): the same distaff leads to VERIFY, another to CAPTURE at its stored bias. A drop ring knows no distaff. -/
def execRingLightReturn (e : Fin 8) (m : Fin 2304) (feed : Fin 3) (s : State) : Host.Outcome State Fault Refusal :=
  runDev 4 (fun d =>
    if d.ringState e m ≠ 5 || !d.mayFeed e m feed then d
    else if 1152 ≤ m.val || (d.ringLoop e m).fed = feed then
      (d.setLoop e m { d.ringLoop e m with passes := 0, weak := 0, windows := 0 }).setRing e m 3
    else
      let d := d.setLoop e m { d.ringLoop e m with fed := feed, passes := 0, weak := 0, windows := 0 }
      (d.put F.LANE_RING_BIAS (2304 * e + m) (d.startBias e m feed)).setRing e m 2) s

/-! ### Lane commands -/

/-- A write of LANE_CTL (R268, R277). -/
def Dev.writeLaneCtl (d : Dev) (r : Requester) (e v : Nat) : Dev :=
  let m := bits v 0 12
  if !Dev.whole r then d.answer .partitionDenied
  else if 2303 < m then d.answer .formatFault
  else
    let d := d.put F.LANE_CTL_RING e m
    let d := if v.testBit 12 && d.ringState e m = 7 then (d.setLoop e m { d.ringLoop e m with sweeps := 0, passes := 0, weak := 0, windows := 0, steps := 0 }).setRing e m 1 else d
    d.answer .ok

/-- LANE_RETRY (R268). Log entry notes/assumptions/73.md (DEDUCED). -/
def execLaneRetry (r : Requester) (e : Fin 8) (m : Fin 4096) (s : State) : Host.Outcome State Fault Refusal :=
  runDev 4 (Dev.ask r fun d => d.writeLaneCtl r e (m + 4096)) s

/-- The eight lines of a permutation are distinct (R220). -/
def isPerm (v : Nat) : Bool := (List.range 8).all fun l => (List.range 8).any fun i => bits v (3 * i) 3 = l

/-- A write of LANE_RXPERM_f (R258). -/
def Dev.writeRxPerm (d : Dev) (r : Requester) (k v : Nat) : Dev :=
  if !Dev.whole r then d.answer .partitionDenied
  else if d.planBeyondLoading then d.answer .writeRefused
  else if !isPerm v then d.answer .formatFault
  else (d.setWord .LANE_RXPERM k (BitVec.ofNat 64 (v % 2 ^ 24))).answer .ok

/-- LANE_RXPERM_WRITE (R258). -/
def execLaneRxpermWrite (r : Requester) (e : Fin 8) (f : Fin 18) (v : Word) (s : State) : Host.Outcome State Fault Refusal :=
  runDev 4 (Dev.ask r fun d => d.writeRxPerm r (18 * e + f) v.toNat) s

/-- A write of LANE_MRG_CTL (R276, R277). -/
def Dev.writeLaneMrg (d : Dev) (r : Requester) (e v : Nat) : Dev :=
  let lane := bits v 0 8
  let dwell := bits v 12 8
  let start := v.testBit 9
  if !Dev.whole r then d.answer .partitionDenied
  else if start && (decide (143 < lane) || d.isSet F.LANE_MRG_CTL_BUSY e || dwell = 0) then d.answer .formatFault
  else if start && (d.ringState e (d.boundRing e lane) ≠ 4 || !d.isSet F.LANE_STAT_ACTIVE (288 * e + 144 + lane)) then d.answer .notLocked
  else
    let d := d.putAll e [(F.LANE_MRG_CTL_LANE, lane), (F.LANE_MRG_CTL_AXIS, bits v 8 1), (F.LANE_MRG_CTL_DWELL, dwell)]
    let d :=
      if start then
        let d := d.putAll e [(F.LANE_MRG_CTL_BUSY, 1), (F.LANE_MRG_CTL_DONE, 0)]
        { d with light := { d.light with margin := d.light.margin.set e (lane + 256 * bits v 8 1) } }
      else d
    d.answer .ok

/-- LANE_MARGIN_START (R276): START with the written LANE, AXIS and DWELL. -/
def execLaneMarginStart (r : Requester) (e : Fin 8) (v : Word) (s : State) : Host.Outcome State Fault Refusal :=
  runDev 4 (Dev.ask r fun d => d.writeLaneMrg r e (Nat.lor v.toNat 512)) s

/-- A receive lane margin run ends with the steps to the low and high edge (R276). -/
def Dev.endLaneMargin (d : Dev) (e low high : Nat) : Dev :=
  if !d.isSet F.LANE_MRG_CTL_BUSY e then d
  else
    let limit := if d.light.margin.get 0 e / 256 = 1 then 8 else 10
    let d := d.putAll e [(F.LANE_MRG_RES_LOW, low), (F.LANE_MRG_RES_HIGH, high),
      (F.LANE_MRG_RES_PASS, flag (decide (limit ≤ low) && decide (limit ≤ high)))]
    (d.putAll e [(F.LANE_MRG_CTL_BUSY, 0), (F.LANE_MRG_CTL_DONE, 1), (F.LANE_MRG_CTL_STATUS, 0)]).marginDone (.lane e)

/-! ### Switching to the spare -/

namespace Dev

/-- The lanes of the group stop and the switches begin to turn (R270 step 2, R271 step 1). -/
def startTurn (d : Dev) (e g : Nat) (forced : Bool) (x : LaserSwitch) : Dev :=
  let d := d.markLanes e (groupLanes g) F.LANE_STAT_EXCLUDED 1
  let d := d.putAll e [(F.OPT_SW_STAT_STATE, 2), (F.OPT_SW_STAT_GROUP, g), (F.OPT_SW_STAT_FORCED, flag forced)]
  d.setSw e { x with turnAt := d.now, turned := false, before := (groupRings g).filter fun m => d.ringState e m = 4, out := (d.swOf e).out }

/-- The lanes of a group return, but for those of a group that is out of service (R270, R271, R273). -/
def returnLanes (d : Dev) (e : Nat) (l : List Nat) : Dev :=
  d.markLanes e (l.filter fun n => !(d.swOf e).out.contains (n / 8 % 2)) F.LANE_STAT_EXCLUDED 0

/-- A switch without an exclusion: each lane returns at a slot start (R271, R272). -/
def runForced (d : Dev) (e g : Nat) (forced : Bool) : Dev :=
  let d := d.startTurn e g forced { forcedDark := groupLanes g, quiet := true }
  if forced then d.raise .forcedSwitch 7 (0x818 + e) g else d

/-- A group without a distaff goes out of service (R26, R273). -/
def outOfService (d : Dev) (e g : Nat) : Dev :=
  let d := (d.markLanes e (groupLanes g) F.LANE_STAT_EXCLUDED 1).markLanes e (groupLanes g) F.LANE_STAT_OUT 1
  let x := d.swOf e
  ((d.setSw e { x with out := g :: x.out }).raise .spareExhausted 7 (0x818 + e) (5 + 256 * e)).recheckPrepares

/-- The boundaries of the exclusion: E = max(1, ⌈120 ÷ PERIOD⌉) (R270). -/
def exclusionTwists (d : Dev) : Nat := Nat.max 1 (ceilDiv 120 d.tw.period)

/-- Refuse a switch request (R272). -/
def refuseSwitch (d : Dev) (e n : Nat) : Dev × Status := (d.put F.OPT_SW_STAT_REFUSE e n, .formatFault)

/-- Request a switch of a group (R270 to R273): the checks, then a planned switch is PENDING for boundary X, or runs at once. A group that is out of service finds no spare. Log entry notes/assumptions/73.md (DEDUCED). -/
def requestSwitch (d : Dev) (e g : Nat) (forced : Bool) : Dev × Status :=
  let st := d.get F.OPT_SW_STAT_STATE e
  let spare := 3 * e + 2
  let fade := signed 16 (d.get F.OPT_DSTAT_FADE spare)
  let align := d.get F.TWIST_ALIGN_STATE
  if st ≠ 0 && !(forced && st = 1 && d.get F.OPT_SW_STAT_GROUP e = g) then d.refuseSwitch e 1
  else if d.get F.OPT_DSTAT_STATE spare ≠ 2 || (d.swOf e).out.contains g then d.refuseSwitch e 2
  else if fade ≤ (if forced then -300 else -150) then d.refuseSwitch e 3
  else if forced then (d.runForced e g true, .ok)
  else if align = 0 || align = 4 then (d.runForced e g false, .ok)
  else
    let x := d.get F.TWIST_CNT_CNT + d.get F.OPT_CFG_LEAD e
    let d := d.setWord .OPT_SW_AT e (BitVec.ofNat 64 x)
    let d := d.putAll e [(F.OPT_SW_STAT_STATE, 1), (F.OPT_SW_STAT_GROUP, g), (F.OPT_SW_STAT_FORCED, 0), (F.OPT_SW_STAT_EXTRA, 0)]
    ((d.groupParts e g ++ [7]).foldl (fun d p => d.raise .plannedSwitch p (0x818 + e) (g + 2 * x)) (d.setSw e { out := (d.swOf e).out }), .ok)

/-- The slips of an exclusion (R270 step 2). -/
def exclusionSlips (d : Dev) (e g : Nat) : Dev :=
  (d.groupParts e g).foldl (fun (d : Dev) p => d.raiseSlip p (0x818 + e)) d

/-- The boundary's part in a planned switch of engine `e` (R270): the exclusion starts at X, raises a slip at each of its boundaries, and ends with the
return of the lanes or one more twist, at most twice. -/
def exclusionBoundary (d : Dev) (e : Nat) : Dev :=
  let st := d.get F.OPT_SW_STAT_STATE e
  let g := d.get F.OPT_SW_STAT_GROUP e
  let now := d.get F.TWIST_CNT_CNT
  let at_ := d.get F.OPT_SW_AT_AT e
  if st = 1 && decide (at_ ≤ now) then
    (d.startTurn e g false { back := some (now + d.exclusionTwists) }).exclusionSlips e g
  else
    let x := d.swOf e
    match x.back with
    | none => d
    | some b =>
      let extra := d.get F.OPT_SW_STAT_EXTRA e
      if now < b then d.exclusionSlips e g
      else if (x.turned && x.before.all fun m => d.ringState e m = 4) || extra = 2 then
        ((d.returnLanes e (groupLanes g)).setSw e { out := x.out }).put F.OPT_SW_STAT_STATE e 0
      else
        let d := (d.put F.OPT_SW_STAT_EXTRA e (extra + 1)).setSw e { x with back := some (now + 1) }
        (d.exclusionSlips e g).raise .exclusionExtended 7 (0x818 + e) (g + 2 * (extra + 1))

/-- TWIST_ALIGN.STATE is now FREE or UNALIGNED (R272): a planned switch that waits for its boundary runs at once, and one in its exclusion goes on without
exclusion twists. Log entry notes/assumptions/73.md (DEDUCED). -/
def switchesAtOnce (d : Dev) : Dev :=
  (List.range 8).foldl (fun (d : Dev) e =>
    let x := d.swOf e
    if d.get F.OPT_SW_STAT_STATE e = 1 then d.runForced e (d.get F.OPT_SW_STAT_GROUP e) false
    else if x.back.isSome then d.setSw e { x with back := none, forcedDark := groupLanes (d.get F.OPT_SW_STAT_GROUP e), quiet := true }
    else d) d

/-- The slot start's part in a switch without an exclusion (R271 step 3): each lane whose current ring is verified returns. In FREE no slot starts (R189),
so the lanes stay EXCLUDED and STATE does not return to IDLE until ENABLE lets slots run (DESIGN CHOICE: R272 does not say when they return there).
Log entry notes/assumptions/73.md (DESIGN CHOICE). -/
def lanesReturn (d : Dev) (e : Nat) : Dev :=
  let x := d.swOf e
  if !x.quiet || !x.turned then d
  else
    let lit (n : Nat) : Bool := match d.slotPerm e (n / 8) d.tw.slot with
      | some (perm, _) => d.ringState e (8 * n + permLine perm (n % 8)) = 4
      | none => false
    let (back, dark) := x.forcedDark.partition lit
    let d := (d.returnLanes e back).setSw e { x with forcedDark := dark }
    if dark.isEmpty then (d.setSw e { out := x.out }).put F.OPT_SW_STAT_STATE e 0 else d

end Dev

/-- SWITCH_TURN_DONE (R260, R266, R270 step 3): the spare serves the group, the old distaff is RETIRED, and the group's rings relock. -/
def execSwitchTurnDone (e : Fin 8) (s : State) : Host.Outcome State Fault Refusal :=
  runDev 4 (fun d =>
    let x := d.swOf e
    if d.get F.OPT_SW_STAT_STATE e ≠ 2 || x.turned then d
    else
      let g := d.get F.OPT_SW_STAT_GROUP e
      let d := d.putAll (3 * e + 2) [(F.OPT_DSTAT_STATE, 3), (F.OPT_DSTAT_SERVES, g)]
      let d := d.put F.OPT_DSTAT_STATE (3 * e + g) 4
      let d := (d.setSw e { x with turned := true }).put F.OPT_SW_STAT_STATE e 3
      ((Dev.groupRings g).foldl (fun d m => if d.ringState e m = 0 || d.ringState e m = 7 then d else d.startLock e m 2) d).switchProgress e) s

/-- A write of OPT_SW_CTL (R270 to R272, R277). -/
def Dev.writeSwCtl (d : Dev) (r : Requester) (e v : Nat) : Dev :=
  let g := bits v 2 1
  if !Dev.whole r then d.answer .partitionDenied
  else if v.testBit 0 && v.testBit 1 then d.answer .formatFault
  else
    let d := d.put F.OPT_SW_CTL_GROUP e g
    if v.testBit 0 || v.testBit 1 then
      let (d, st) := d.requestSwitch e g (v.testBit 1)
      d.answer st
    else d.answer .ok

/-- OPT_SW_PLAN (R270). -/
def execOptSwPlan (r : Requester) (e : Fin 8) (g : Fin 2) (s : State) : Host.Outcome State Fault Refusal :=
  runDev 4 (Dev.ask r fun d => d.writeSwCtl r e (1 + 4 * g)) s

/-- OPT_SW_FORCE (R271). -/
def execOptSwForce (r : Requester) (e : Fin 8) (g : Fin 2) (s : State) : Host.Outcome State Fault Refusal :=
  runDev 4 (Dev.ask r fun d => d.writeSwCtl r e (2 + 4 * g)) s

/-! ### Distaffs -/

/-- DISTAFF_WARM_DONE (R260). -/
def execDistaffWarmDone (e : Fin 8) (k : Fin 3) (s : State) : Host.Outcome State Fault Refusal :=
  runDev 4 (fun d =>
    let i := 3 * e.val + k.val
    if d.get F.OPT_DSTAT_STATE i = 1 then (d.put F.OPT_DSTAT_STATE i 2).bootLight else d) s

namespace Dev

/-- A distaff is lit: warming, ready or serving. -/
def distaffLit (d : Dev) (i : Nat) : Bool := let st := d.get F.OPT_DSTAT_STATE i; decide (1 ≤ st ∧ st ≤ 3)

/-- The fade of each line of a distaff with a valid baseline for powers in 0.01 dBm (R269). -/
def fades (d : Dev) (e k : Nat) (powers : List Int) : List (Nat × Int) :=
  (List.range 8).filterMap fun l =>
    let i := 24 * e + 8 * k + l
    if d.isSet F.OPT_BASELINE_VALID i then some (l, (powers[l]?).getD 0 - signed 16 (d.get F.OPT_BASELINE_POWER i)) else none

/-- The worst line: the lowest fade, the lowest line of equals. -/
def worstFade (l : List (Nat × Int)) : Option (Nat × Int) :=
  l.foldl (fun b x => match b with
    | some y => if x.2 < y.2 then some x else b
    | none => some x) none

def distaffOf (d : Dev) (i : Nat) : Distaff := d.light.distaffs.get {} i

def setDistaff (d : Dev) (i : Nat) (x : Distaff) : Dev := { d with light := { d.light with distaffs := d.light.distaffs.set i x } }

/-- The worst line of a distaff's last reading, among those with a valid baseline (R269, R277). -/
def worstOf (d : Dev) (e k : Nat) : Option (Nat × Int) :=
  worstFade ((List.range 8).filterMap fun l =>
    let i := 24 * e + 8 * k + l
    if d.isSet F.OPT_BASELINE_VALID i && d.isSet F.OPT_POWER_VALID i then some (l, signed 16 (d.get F.OPT_POWER_FADE i)) else none)

/-- WORST and FADE of a distaff show that line and its fade, and zero without one (R277). Log entry notes/assumptions/73.md (DEDUCED). -/
def showWorst (d : Dev) (e k : Nat) : Dev :=
  let (line, fade) := (d.worstOf e k).getD (0, 0)
  d.putAll (3 * e + k) [(F.OPT_DSTAT_WORST, line), (F.OPT_DSTAT_FADE, field 16 fade)]

end Dev

/-- DISTAFF_POWER_READING (R262, R269): a 1 ms reading of a distaff's eight lines. -/
def execDistaffPowerReading (e : Fin 8) (k : Fin 3) (powers : List Int) (s : State) : Host.Outcome State Fault Refusal :=
  runDev 4 (fun d =>
    let i := 3 * e.val + k.val
    if !d.distaffLit i then d
    else
      let fl := d.fades e k powers
      let d := (List.range 8).foldl (fun (d : Dev) l =>
        let fade := match fl.find? (·.1 = l) with
          | some x => x.2
          | none => 0
        d.putAll (24 * e + 8 * k + l) [(F.OPT_POWER_POWER, field 16 ((powers[l]?).getD 0)), (F.OPT_POWER_FADE, field 16 fade), (F.OPT_POWER_VALID, 1)]) d
      let d := d.showWorst e k
      match Dev.worstFade fl with
      | none => d
      | some (line, fade) =>
        let x := d.distaffOf i
        let d :=
          if fade ≤ -100 && !x.notified then
            ((d.put F.OPT_DSTAT_NOTIFY i 1).setDistaff i { x with notified := true }).raise .fadeNotify 7 (0x818 + e)
              (k + line * 4 + field 16 fade * 32)
          else if -80 < fade && x.notified then (d.put F.OPT_DSTAT_NOTIFY i 0).setDistaff i { x with notified := false }
          else d
        let x := d.distaffOf i
        if fade ≤ -150 && !x.planned then
          let d := (d.put F.OPT_DSTAT_PLANNED i 1).setDistaff i { x with planned := true }
          if d.isSet F.OPT_CFG_AUTO_PLAN e && d.get F.OPT_DSTAT_STATE i = 3 then (d.requestSwitch e (d.get F.OPT_DSTAT_SERVES i) false).1 else d
        else d) s

/-- DISTAFF_FORCE_READING (R269, R273): two consecutive 10 µs integrations of a distaff's lines. Both past −3.0 dB cancel a planned
switch of its group that is PENDING and force one, or put the group out of service; while the group's own switch turns to the spare they do neither. Log entry notes/assumptions/73.md (DEDUCED). -/
def execDistaffForceReading (e : Fin 8) (k : Fin 3) (first second : List Int) (s : State) : Host.Outcome State Fault Refusal :=
  runDev 4 (fun d =>
    let i := 3 * e.val + k.val
    let past (l : List Int) : Bool := match Dev.worstFade (d.fades e k l) with
      | some (_, f) => decide (f ≤ -300)
      | none => false
    let x := d.distaffOf i
    if !d.distaffLit i || x.forced || !past first || !past second then d
    else
      let d := (d.put F.OPT_DSTAT_FORCED i 1).setDistaff i { x with forced := true }
      let g := d.get F.OPT_DSTAT_SERVES i
      let sw := d.get F.OPT_SW_STAT_STATE e
      let own := decide (d.get F.OPT_SW_STAT_GROUP e = g)
      if d.get F.OPT_DSTAT_STATE i ≠ 3 || (decide (2 ≤ sw) && own && k ≠ 2) then d
      else
        let d := if sw = 1 && own then d.put F.OPT_SW_STAT_STATE e 0 else d
        let (d, st) := d.requestSwitch e g true
        if st = .ok then d else d.outOfService e g) s

/-- A write of OPT_BASELINE_m (R261, R277): the fade of the last reading, and the distaff's worst line, follow it. Log entry notes/assumptions/73.md (DEDUCED). -/
def Dev.writeBaseline (d : Dev) (r : Requester) (e m v : Nat) : Dev :=
  let k := 3 * e + m / 8
  if !Dev.whole r then d.answer .partitionDenied
  else if d.isSet F.OPT_DSTAT_BASE_OK k then d.answer .writeRefused
  else
    let d := d.setWord .OPT_BASELINE (24 * e + m) (BitVec.ofNat 64 (v % 2 ^ 17))
    let d := d.put F.OPT_POWER_FADE (24 * e + m)
      (if v.testBit 16 then field 16 (signed 16 (d.get F.OPT_POWER_POWER (24 * e + m)) - signed 16 (bits v 0 16)) else 0)
    let ok := (List.range 8).all fun l => d.isSet F.OPT_BASELINE_VALID (24 * e + m / 8 * 8 + l)
    ((d.put F.OPT_DSTAT_BASE_OK k (flag ok)).showWorst e (m / 8)).answer .ok

/-- OPT_BASELINE_WRITE (R261). -/
def execOptBaselineWrite (r : Requester) (e : Fin 8) (m : Fin 24) (v : Word) (s : State) : Host.Outcome State Fault Refusal :=
  runDev 4 (Dev.ask r fun d => d.writeBaseline r e m v.toNat) s

end Sys2Proof.Machine
end

