-- ==== Sys2Proof/Machine/PlyOps.lean ====
section
/-!
DEFINITION. What the Ply engines' commands share: FP32 and FP64 arithmetic (R304), the Ply table (R315) and its checks (R316), tiles and bins
(R286), ply-8 (R282 to R285), the state records (R303), failing a step (R292).
-/

namespace Sys2Proof.Machine

/-! ### Arithmetic on codes -/

/-- An exact value rounded to FP32, as its code. -/
def f32 (x : FV) : Nat := (narrow .fp32 false none x).code

/-- The value of an FP32 code. -/
def un32 (c : Nat) : FV := FV.decode .fp32 c

def fAdd (a b : Nat) : Nat := f32 (FV.add (un32 a) (un32 b))
def fSub (a b : Nat) : Nat := f32 (FV.sub (un32 a) (un32 b))
def fMul (a b : Nat) : Nat := f32 (FV.mul (un32 a) (un32 b))
def fDiv (a b : Nat) : Nat := (narrowFn .fp32 false none (fnDiv (un32 a) (un32 b))).code
def fSqrt (a : Nat) : Nat := (narrowFn .fp32 false none (fnSqrt (un32 a))).code

/-- An FP64 code and its value. -/
def f64 (x : FV) : Nat := (narrow .fp64 false none x).code
def un64 (c : Nat) : FV := FV.decode .fp64 c
def dAdd (a b : Nat) : Nat := f64 (FV.add (un64 a) (un64 b))
def dDiv (a b : Nat) : Nat := (narrowFn .fp64 false none (fnDiv (un64 a) (un64 b))).code
def dSqrt (a : Nat) : Nat := (narrowFn .fp64 false none (fnSqrt (un64 a))).code

/-- The FP32 code of one. -/
def one32 : Nat := 0x3F800000

/-- A BF16 code widened exactly. -/
def widen16 (c : Nat) : Nat := f32 (FV.decode .bf16 c)

/-! ### The Ply table -/

/-- A field of a Ply entry. -/
def ent (e : List Nat) (w lo n : Nat) : Nat := bits ((e[w]?).getD 0) lo n

/-- Bytes of one state record by rule (R303). -/
def recordSize (rule : Nat) : Nat := if rule = 0 then 384 else 512

/-- Where the SKETCH matrix lies after the records (R303). -/
def matrixOffset (e : List Nat) : Nat := ceilDiv (ent e 3 0 32 / 64 * recordSize (ent e 0 11 2)) 128 * 128

/-- Bytes of one version of a layer's state (R303). -/
def stateBytes (e : List Nat) : Nat :=
  let k := ent e 0 14 7
  if ent e 0 11 2 = 3 then matrixOffset e + 4 * k * k else ent e 3 0 32 / 64 * recordSize (ent e 0 11 2)

/-- Tiles of a layer (R286). -/
def tileCount (e : List Nat) : Nat := ceilDiv (ent e 3 0 32) 65536

namespace Dev

/-- The layer entries of partition `p` in order (R315). -/
def layers (d : Dev) (p : Nat) : List (List Nat) :=
  match (d.bank p).active with
  | some a => a.ply.filter fun e => ent e 0 0 8 = 1
  | none => []

/-- The entry of a layer; a retained accumulator goes by its old entry (R314). -/
def layerOf (d : Dev) (p layer : Nat) (old : Bool) : Option (List Nat) :=
  if old then (d.ply.old.find? fun x => x.1 = p && ent x.2 0 32 16 = layer).map (·.2)
  else (d.layers p).find? fun e => ent e 0 32 16 = layer

/-- The contributors of a layer as block keys: receive contexts, and 4,096 + context for self contributions (R315). -/
def contributors (d : Dev) (p layer : Nat) : List Nat :=
  match (d.bank p).active with
  | some a => a.ply.filterMap fun e =>
      if ent e 0 0 8 = 3 && ent e 0 11 1 = 0 && ent e 0 12 1 = 0 && ent e 0 32 16 = layer then some (ent e 0 16 12)
      else if ent e 0 0 8 = 2 && ent e 0 32 16 = layer && d.ctx (ent e 0 16 12) .peer = d.fabId then some (4096 + ent e 0 16 12)
      else none
  | none => []

/-- The receive contexts bound to a layer, combined packets' included (R313, R315). -/
def layerContexts (d : Dev) (p layer : Nat) : List Nat :=
  match (d.bank p).active with
  | some a => a.ply.filterMap fun e => if ent e 0 0 8 = 3 && ent e 0 12 1 = 0 && ent e 0 32 16 = layer then some (ent e 0 16 12) else none
  | none => []

/-- A group entry of partition `p` (R315). -/
def groupOf (d : Dev) (p g : Nat) : Option (List Nat) := d.plyEntry p 5 fun e => ent e 0 16 16 = g

/-- The partition that Ply engine `e` serves in the current slot; none while no boundaries run (R280). -/
def plyOwner (d : Dev) (e : Nat) : Nat :=
  if d.get F.TWIST_ALIGN_STATE = 0 then 0xF
  else bits (d.word .PLY_PSLOT (4 * e + d.tw.slot / 16)).toNat (4 * (d.tw.slot % 16)) 4

/-- Ply engine `e` may work for partition `p` now: it serves p in this slot, and p's step has not failed (R280, R292). -/
def plyServes (d : Dev) (e p : Nat) : Bool := d.plyOwner e = p && d.get F.PLY_STEP_STATE p ≠ 3

/-- The first Ply work of a step opens it (R297). -/
def openStep (d : Dev) (p : Nat) : Dev := if d.get F.PLY_STEP_STATE p = 0 then d.put F.PLY_STEP_STATE p 1 else d

/-- EXP as a signed number (R284). -/
def lsExp (d : Dev) (p : Nat) : Int := signed 6 (d.get F.PLY_LS_EXP p)

/-- A word of the accepted step parameter block (R298). -/
def spbField (d : Dev) (p w lo n : Nat) : Nat := bits (((d.ply.spb.get [] p)[w]?).getD 0) lo n

/-- Change the run of a layer. -/
def modRun (d : Dev) (p layer : Nat) (old : Bool) (f : LayerRun → LayerRun) : Dev :=
  let hit (r : LayerRun) : Bool := r.part = p && r.layer = layer && r.old = old
  let runs := if d.ply.runs.any hit then d.ply.runs else d.ply.runs ++ [{ part := p, layer, old, step := d.get F.PLY_STEP_CURRENT p }]
  { d with ply := { d.ply with runs := runs.map fun r => if hit r then f r else r } }

/-- The run of a layer. -/
def runOf (d : Dev) (p layer : Nat) (old : Bool) : LayerRun :=
  (d.ply.runs.find? fun r => r.part = p && r.layer = layer && r.old = old).getD { part := p, layer, old }

/-- The step flag for a run: a retained accumulator keeps the flag of the step it belongs to (R299, R314). -/
def runOvf (d : Dev) (p : Nat) (r : LayerRun) : Bool :=
  if r.old && r.step ≠ d.get F.PLY_STEP_CURRENT p then r.ovf else d.isSet F.PLY_STEP_OVF p

/-- The step of partition `p` fails (R292): STATE is FAILED, the event is raised, the partition's bins and queued packets are discarded. -/
def failStep (d : Dev) (p e layer : Nat) (st : Status := .ok) : Dev :=
  let d := (d.put F.PLY_STEP_STATE p 3).raise .plyStepFailed (evPart (some p)) (0x810 + e) layer st
  { d with
    ply := { d.ply with bins := d.ply.bins.filter (·.part ≠ p), marks := d.ply.marks.filter (·.1 ≠ p) }
    fab := { d.fab with plyIn := d.fab.plyIn.filter fun q => d.ctx q.2.1 .part ≠ p } }

/-- Set the step flag (R299). -/
def setOvf (d : Dev) (p : Nat) : Dev := d.put F.PLY_STEP_OVF p 1

/-- Count non-finite blocks or elements (R299). -/
def countNonfin (d : Dev) (e p n : Nat) : Dev := if n = 0 then d else d.count .PLY_NONFIN (4 * e + p) n

/-! ### The checks of R316 -/

/-- A region lies in partition `p`'s HBM range. -/
def inRange (d : Dev) (p a n : Nat) : Bool :=
  n = 0 || (decide (a + n ≤ hbmTop) && d.partOfHbm a = some p && d.partOfHbm (a + n - 1) = some p)

/-- Bits of a Ply entry that its table does not list, by type (R315). -/
def plyReserved (e : List Nat) : Bool :=
  let z (w lo n : Nat) : Bool := ent e w lo n = 0
  match ent e 0 0 8 with
  | 1 => z 0 21 11 && z 5 48 16 && z 6 48 16 && z 7 32 32
  | 2 => z 0 14 2 && z 0 28 4 && z 0 48 16 && z 1 48 16 && z 2 48 16 && z 3 48 16 && z 4 0 64 && z 5 0 64 && z 6 0 64 && z 7 0 64
  | 3 => z 0 13 3 && z 0 28 4 && z 0 48 16 && (List.range 7).all fun i => z (i + 1) 0 64
  | 4 => z 0 28 4 && z 0 51 13 && z 1 43 21 && z 2 48 16 && z 3 48 16 && z 4 0 64 && z 5 0 64 && z 6 0 64 && z 7 0 64
  | _ => z 0 11 5 && z 1 40 24 && (List.range 6).all fun i => z (i + 2) 0 64

/-- The context of a plan image, as its words. -/
def planCtx (a : Plan) (n : Nat) : Option (List Nat) := (a.ctxs.find? (·.1 = n)).map (·.2)

/-- A plan context has a direction. -/
def planCtxIs (a : Plan) (n dir : Nat) : Bool :=
  match planCtx a n with
  | some c => CtxF.valid.of c = 1 && CtxF.dir.of c = dir
  | none => false

/-- Ply engine `e` has a Ply slot coded `p`. -/
def hasPlySlot (d : Dev) (e p : Nat) : Bool :=
  (List.range 64).any fun s => bits (d.word .PLY_PSLOT (4 * e + s / 16)).toNat (4 * (s % 16)) 4 = p

/-- The checks of R316 on one entry of a plan image. -/
def plyEntryOk (d : Dev) (p : Nat) (a : Plan) (e : List Nat) : Bool :=
  let type := ent e 0 0 8
  let pe := ent e 0 8 3
  decide (1 ≤ type ∧ type ≤ 5) && plyReserved e && d.hasPlySlot pe p &&
  match type with
  | 1 =>
    let rule := ent e 0 11 2
    let k := ent e 0 14 7
    let elems := ent e 3 0 32
    let n := stateBytes e
    let sa := ent e 1 0 48
    let sb := ent e 2 0 48
    (d.get F.PLY_RULE_SEL_ALLOW p).testBit rule &&
    (if rule = 3 then decide (1 ≤ k ∧ k ≤ 64) && elems % k = 0 else k = 0) && elems ≠ 0 && elems % 64 = 0 &&
    sa % 128 = 0 && sb % 128 = 0 && d.inRange p sa n && d.inRange p sb n && (decide (sa + n ≤ sb) || decide (sb + n ≤ sa)) &&
    ent e 5 0 48 % 64 = 0 && d.inRange p (ent e 5 0 48) 128 &&
    (decide (rule < 2) || (ent e 4 0 48 % 128 = 0 && d.inRange p (ent e 4 0 48) (4 * elems))) &&
    (rule ≠ 3 || d.inRange p (ent e 6 0 48) (4 * k * k))
  | 2 =>
    let n := ent e 0 16 12
    let self := match planCtx a n with
      | some c => CtxF.peer.of c = d.fabId
      | none => false
    let direct := a.allows.any fun x => x.flow = n && (match planCtx a n, a.perms.find ((18 * x.e + x.f) * 64 + x.slot) with
      | some c, some perm => d.reaches x.e x.f (permLine perm x.lane) = some (CtxF.peer.of c)
      | _, _ => false)
    let dests := (a.allows.filter (·.flow = n)).filterMap fun x => (a.perms.find ((18 * x.e + x.f) * 64 + x.slot)).bind fun perm =>
      d.reaches x.e x.f (permLine perm x.lane)
    let cmb := ent e 0 13 1 = 1
    let sz := if ent e 0 11 1 = 1 then 2 else 4
    planCtxIs a n 0 && !(self && (ent e 0 12 1 = 1 || cmb)) && d.inRange p (ent e 1 0 48) sz &&
    (ent e 0 12 1 = 0 || (d.inRange p (ent e 2 0 48) 2 && d.inRange p (ent e 3 0 48) 2)) &&
    (!cmb || (!direct && (dests.all fun x => dests.head? = some x) && (match planCtx a n with
      | some c => decide (CtxF.pktu.of c ≤ 30)
      | none => false)))
  | 3 =>
    let n := ent e 0 16 12
    let layer := a.ply.find? fun x => ent x 0 0 8 = 1 && ent x 0 32 16 = ent e 0 32 16
    let old := (d.layers p).find? fun x => ent x 0 32 16 = ent e 0 32 16
    planCtxIs a n 1 && (ent e 0 12 1 = 1 || (match layer, planCtx a n with
      | some l, some c => CtxF.limit.of c = 4 * ent l 3 0 32 &&
          (match old with
            | some o => ent l 0 48 16 ≠ (ent o 0 48 16 + 1) % 65536 || CtxF.keep.of c = 1
            | none => true)
      | _, _ => true))
  | 4 => decide (2 ≤ ent e 0 11 5 ∧ ent e 0 11 5 ≤ 31) && planCtxIs a (ent e 0 16 12) 0 && decide (1 ≤ ent e 1 0 10 ∧ ent e 1 0 10 ≤ 1000) &&
    (ent e 1 42 1 = 0 || (d.inRange p (ent e 2 0 48) (128 * ent e 1 10 32) && d.inRange p (ent e 3 0 48) (128 * ent e 1 10 32)))
  | _ => ent e 0 32 16 = d.fabId || planCtxIs a (ent e 1 0 12) 0

/-- The checks of R316 on the whole table, in its order: the place among the Ply entries of the first entry at fault. -/
def plyTableFault (d : Dev) (a : Plan) : Option Nat :=
  let idx := a.ply.zipIdx
  let layer (x : List Nat × Nat) : Bool := ent x.1 0 0 8 = 1
  let dup := idx.find? fun x => layer x && idx.any fun y => layer y && decide (y.2 ≠ x.2) && ent y.1 0 32 16 = ent x.1 0 32 16
  let selfCtx (n : Nat) : Bool := match planCtx a n with
    | some c => CtxF.peer.of c = d.fabId
    | none => false
  let count (l : Nat) : Nat := (a.ply.filter fun e =>
    (ent e 0 0 8 = 3 && ent e 0 11 1 = 0 && ent e 0 12 1 = 0 && ent e 0 32 16 = l) ||
    (ent e 0 0 8 = 2 && ent e 0 32 16 = l && selfCtx (ent e 0 16 12))).length
  let contrib := idx.find? fun x => layer x && decide (count (ent x.1 0 32 16) = 0 ∨ 64 < count (ent x.1 0 32 16))
  let hasGroup (g : Nat) : Bool := a.ply.any fun e => ent e 0 0 8 = 5 && ent e 0 16 16 = g
  let group := idx.find? fun x => layer x && (!hasGroup 0 || (decide (2 ≤ ent x.1 0 11 2) && !hasGroup (ent x.1 4 48 16)))
  let many := if 64 < (a.ply.filter fun e => ent e 0 0 8 = 5).length then idx.find? fun x => ent x.1 0 0 8 = 5 else none
  (dup.or (contrib.or (group.or many))).map (·.2)

/-! ### Tiles -/

/-- The tiles of engine `e` for partition `p` in order: layer entry and tile (R286). Log entry notes/assumptions/72.md (DEDUCED). -/
def tileSeq (d : Dev) (e p : Nat) : List (List Nat × Nat) :=
  ((d.layers p).filter fun x => ent x 0 8 3 = e).flatMap fun x => (List.range (tileCount x)).map fun t => (x, t)

/-- The bin bound to a tile. -/
def binOf (d : Dev) (p layer : Nat) (old : Bool) (tile : Nat) : Option Bin :=
  d.ply.bins.find? fun b => b.part = p && b.layer = layer && b.old = old && b.tile = tile

/-- Every block of a packet or contribution can be added: its tile is bound and none has been added from the context (R287). -/
def addable (d : Dev) (p layer : Nat) (old : Bool) (keys : List Nat) (off n : Nat) : Bool :=
  decide (0 < n) && (List.range n).all fun i =>
    match d.binOf p layer old ((off + i) / 1024) with
    | some b => keys.all fun k => (k, off + i) ∉ b.added
    | none => false

/-- Add one block of 64 elements to its bin, one FP32 addition each (R288). -/
def addBlock (d : Dev) (p layer : Nat) (old : Bool) (keys : List Nat) (block : Nat) (v : Nat → FV) : Dev :=
  let bins := d.ply.bins.map fun b =>
    if b.part = p && b.layer = layer && b.old = old && b.tile = block / 1024 then
      { b with
        acc := (List.range 64).foldl (fun t j =>
          let k := block % 1024 * 64 + j
          t.set k (f32 (FV.add (un32 (t.get 0 k)) (v j)))) b.acc
        added := (keys.map fun k => (k, block)) ++ b.added }
    else b
  { d with ply := { d.ply with bins } }

end Dev

/-! ### ply-8 -/

/-- The decoded value of element `j` of block `b` of a ply-8 payload (R282, R285). -/
def plyValue (x : Packet) (cmb : Bool) (b j : Nat) : FV :=
  let base := plyBase cmb
  let sc := x.num (base + 4 + b) 1
  let c := x.num (base + 256 + 64 * b + j) 1
  if sc = 255 || c = 0x7F || c = 0xFF then .nan
  else un32 (f32 (FV.mul (e8m0 sc) (FV.decode .e4m3 c)))

/-- A converted block: scale byte, codes, the residuals as BF16 codes when the block is finite, and whether it is not (R283). -/
structure PlyBlock where
  scale : Nat
  codes : List Nat
  res : Option (List Nat)
  deriving DecidableEq, Repr

/-- Convert 64 FP32 values, residuals included, to ply-8 (R283). -/
def plyBlock (x : List Nat) : PlyBlock :=
  let v := x.map un32
  if v.any FV.nonFinite then ⟨0xFF, x.map fun _ => 0, none⟩
  else
    let top : Option Int := v.foldl (fun r y =>
      match y with
      | .fin _ m e => if m = 0 then r else
          let t := (bitLength m : Int) - 1 + e
          some (match r with
            | some z => max z t
            | none => t)
      | _ => r) none
    let e : Int := match top with
      | some t => max (t - 7) (-127)
      | none => -127
    let codes := v.map fun y => (narrow .e4m3 true none (y.scale (-e))).code
    let res := (v.zip codes).map fun y => (narrow .bf16 false none (FV.sub y.1 ((FV.decode .e4m3 y.2).scale e))).code
    ⟨(e + 127).toNat, codes, some res⟩

/-- The payload of converted blocks after an optional constituent unit (R282). -/
def plyPayload (pre : List Byte) (l : List PlyBlock) : List Byte :=
  let scale := takePad 256 0 (leBytes 2 l.length ++ leBytes 2 0 ++ l.map fun b => BitVec.ofNat 8 b.scale)
  let data := l.flatMap fun b => b.codes.map fun c => BitVec.ofNat 8 c
  pre ++ scale ++ takePad (ceilDiv l.length 4 * 256) 0 data

end Sys2Proof.Machine
end

