-- ==== Sys2Proof/Machine/Ply.lean ====
section
/-!
DEFINITION. The Ply engines: slots (R280), bins and accumulation (R286 to R292), conversion to ply-8 (R283), self contributions (R289), combining (R293
to R295), finishing, the update rules (R303 to R309), group messages (R310), digests (R311, R312) and the step with its verdict (R297 to R302).
-/

namespace Sys2Proof.Machine

/-! ### Slots -/

/-- A write of Ply slot owners (R280, R318). -/
def Dev.writePslot (d : Dev) (r : Requester) (k v : Nat) : Dev :=
  let old := (d.word .PLY_PSLOT k).toNat
  let code (x s : Nat) : Nat := bits x (4 * s) 4
  let refused := (List.range 16).any fun s => code old s ≠ code v s &&
    (List.range 4).any fun p => code old s = p && d.planActiveOrStaged p
  let reserved := (List.range 16).any fun s => decide (4 ≤ code v s ∧ code v s ≤ 14)
  if !Dev.whole r then d.answer .partitionDenied
  else if refused then d.answer .writeRefused
  else if reserved then d.answer .formatFault
  else (d.setWord .PLY_PSLOT k (BitVec.ofNat 64 v)).answer .ok

/-- PLY_PSLOT_WRITE (R280). -/
def execPlyPslotWrite (r : Requester) (e : Fin 8) (q : Fin 4) (v : Word) (s : State) : Host.Outcome State Fault Refusal :=
  runDev 7 (Dev.ask r fun d => d.writePslot r (4 * e + q) v.toNat) s

/-! ### Bins -/

/-- The tiles of retained accumulators of engine `e` that are neither bound nor finished (R314). -/
def Dev.oldTiles (d : Dev) (e p : Nat) : List (List Nat × Nat) :=
  ((d.ply.old.filter fun x => x.1 = p && ent x.2 0 8 3 = e).map (·.2)).flatMap fun x =>
    let l := ent x 0 32 16
    ((List.range (tileCount x)).filter fun t => decide ((d.runOf p l true).finished ≤ t) && (d.binOf p l true t).isNone).map fun t => (x, t)

/-- Bind a tile to a zeroed bin, and set the layer's due mark with its first tile (R286, R291). -/
def Dev.bindTile (d : Dev) (e p : Nat) (x : List Nat) (t : Nat) (old : Bool) : Dev :=
  let l := ent x 0 32 16
  let d := { d with ply := { d.ply with bins := d.ply.bins ++ [{ e, part := p, layer := l, old, tile := t }] } }
  if t = 0 then { d with ply := { d.ply with marks := d.ply.marks ++ [(p, l, old, d.planTwist p + ent x 2 48 16)] } } else d

/-- TILE_BIND (R286): the next tile of the engine's sequence for a partition is bound to a free bin. The open tiles of a retained accumulator come first
(R314). -/
def execTileBind (e : Fin 8) (p : Fin 4) (s : State) : Host.Outcome State Fault Refusal :=
  runDev 7 (fun d =>
    if !d.plyServes e p || decide (64 ≤ (d.ply.bins.filter (·.e = e.val)).length) then d
    else match d.oldTiles e p with
      | (x, t) :: _ => d.bindTile e p x t true
      | [] =>
        let seq := d.tileSeq e p
        let k := 4 * e.val + p.val
        let n := d.ply.cursor.get 0 k
        match seq[n % seq.length]? with
        | none => d
        | some (x, t) =>
          if (d.binOf p (ent x 0 32 16) false t).isSome then d
          else
            let d := d.bindTile e p x t false
            { d with ply := { d.ply with cursor := d.ply.cursor.set k (n + 1) } }) s

/-- Whether a packet on context `n` belongs to a retained accumulator (R313). -/
def Dev.oldEpoch (d : Dev) (n : Nat) (x : Packet) : Bool := x.epoch ≠ d.ctx n .epoch

/-- The keys under which a packet's blocks are counted (R287, R295). -/
def plyKeys (x : Packet) (n : Nat) (cmb : Bool) : List Nat := if cmb then (Dev.constituents x).map (·.2.2.1) else [n]

/-- PLY_ACCUMULATE (R287, R288, R295): the oldest queued packet that can be added is decoded and added into its bins. -/
def execPlyAccumulate (e : Fin 8) (p : Fin 4) (s : State) : Host.Outcome State Fault Refusal :=
  runDev 7 (fun d =>
    let ready (q : Nat × Nat × Packet) : Bool :=
      q.1 = e.val && d.ctx q.2.1 .part = p.val &&
      match d.plyReceive q.2.1 with
      | some r => ent r 0 12 1 = 0 &&
          d.addable p (ent r 0 32 16) (d.oldEpoch q.2.1 q.2.2) (plyKeys q.2.2 q.2.1 (ent r 0 11 1 = 1)) q.2.2.off (q.2.2.nblk (ent r 0 11 1 = 1))
      | none => false
    if !d.plyServes e p then d
    else match d.fab.plyIn.find? ready with
      | none => d
      | some q =>
        let r := (d.plyReceive q.2.1).getD []
        let cmb := ent r 0 11 1 = 1
        let x := q.2.2
        let d := { d with fab := { d.fab with plyIn := d.fab.plyIn.erase q } }
        let d := d.openStep p
        (List.range (x.nblk cmb)).foldl (fun d b =>
          d.addBlock p (ent r 0 32 16) (d.oldEpoch q.2.1 x) (plyKeys x q.2.1 cmb) (x.off + b) (plyValue x cmb b)) d) s

/-! ### Conversion and self contribution -/

namespace Work

/-- Read one block of 64 gradient elements as FP32 codes: FP32, or BF16 widened exactly (R283, R289). -/
def gradBlock (w : Work) (p reader a : Nat) (bf16 : Bool) : Work × Status × List Nat :=
  let sz := if bf16 then 2 else 4
  match w.load (some p) reader a (64 * sz) with
  | (w, .ok, _, bs) =>
    (w, .ok, (List.range 64).map fun j =>
      let c := leNat ((bs.drop (sz * j)).take sz)
      if bf16 then widen16 c else c)
  | (w, st, _, _) => (w, st, [])

/-- Convert one block (R283, R284): the residual of version VER at `res` is added, scaled by 2^(EXP − RES_EXP) with one rounding, and the residual of
version WV written at `resW`; a block that is not finite sets the step flag and carries the residual unchanged. -/
def convertBlock (w : Work) (e p : Nat) (x : List Nat) (ef : Option (Nat × Nat)) : Work × Status × PlyBlock :=
  let finish (w : Work) (b : PlyBlock) : Work := if b.res.isNone then w.on fun d => (d.setOvf p).countNonfin e p 1 else w
  match ef with
  | none => let b := plyBlock x; (finish w b, .ok, b)
  | some (rv, rw) =>
    match w.load (some p) (0x810 + e) rv 128 with
    | (w, .ok, _, bs) =>
      let k : Int := w.dev.lsExp p - signed 6 (w.dev.get F.PLY_LS_RES_EXP p)
      let y := (x.zip (List.range 64)).map fun q =>
        f32 (FV.add (un32 q.1) ((FV.decode .bf16 (leNat ((bs.drop (2 * q.2)).take 2))).scale k))
      let b := plyBlock y
      let out := match b.res with
        | some r => r.flatMap (leBytes 2)
        | none => bs
      let (w, st, _) := w.store (some p) (0x810 + e) rw out
      (finish w b, st, b)
    | (w, st, _, _) => (w, st, ⟨0, [], none⟩)

/-- Convert blocks in order; the first status other than OK ends it. -/
def convertBlocks (w : Work) (e p : Nat) (ef : Nat → Option (Nat × Nat)) :
    List (Nat × List Nat) → Work × Status × List PlyBlock
  | [] => (w, .ok, [])
  | (i, x) :: t =>
    match w.convertBlock e p x (ef i) with
    | (w, .ok, b) =>
      let (w, st, l) := w.convertBlocks e p ef t
      (w, st, b :: l)
    | (w, st, _) => (w, st, [])

/-- Read blocks in order. -/
def gradBlocks (w : Work) (p reader a : Nat) (bf16 : Bool) : List Nat → Work × Status × List (Nat × List Nat)
  | [] => (w, .ok, [])
  | i :: t =>
    match w.gradBlock p reader (a + i * (if bf16 then 128 else 256)) bf16 with
    | (w, .ok, x) =>
      let (w, st, l) := w.gradBlocks p reader a bf16 t
      (w, st, (i, x) :: l)
    | (w, st, _) => (w, st, [])

/-- The residual regions of a send entry for block `i` from SRC (R284, R315): version VER to read and version WV to write. -/
def resAt (d : Dev) (p : Nat) (entry : List Nat) (src i : Nat) (sz : Nat) : Option (Nat × Nat) :=
  if ent entry 0 12 1 = 0 then none
  else
    let k := ((src - ent entry 1 0 48) / sz + 64 * i) * 2
    let a := ent entry 2 0 48 + k
    let b := ent entry 3 0 48 + k
    if d.get F.PLY_STEP_VER p = 0 then some (a, b) else some (b, a)

/-- Form the packets of a Ply skein one after the other, each of at most 4 × PKTU blocks (R282, R283); the header is formed once its blocks are converted,
so OVF is the step flag then. -/
def convertPackets (w : Work) (e : Nat) (entry : List Nat) (x : Skein) (total : Nat) :
    Nat → Nat → List Packet → Work × Status × List Packet
  | 0, _, acc => (w, .ok, acc)
  | k + 1, done, acc =>
    if total ≤ done then (w, .ok, acc)
    else
      let p := x.part
      let bf16 := ent entry 0 11 1 = 1
      let sz := if bf16 then 2 else 4
      let n := Nat.min (total - done) (4 * Nat.max 1 (w.dev.ctx x.flow .pktu))
      let (w, st, g) := w.gradBlocks p (0x810 + e) x.src bf16 ((List.range n).map (done + ·))
      if st ≠ .ok then (w, st, acc)
      else
        let d := w.dev
        let (w, st, bl) := w.convertBlocks e p (fun i => resAt d p entry x.src i sz) g
        if st ≠ .ok then (w, st, acc)
        else
          let pay := plyPayload [] bl
          let d := w.dev
          let pk : Packet :=
            { ch := d.ctx x.flow .ch, lenm1 := pay.length / 256 - 1, dst := d.ctx x.flow .peer, src := d.fabId
              slice := d.ctx x.flow .slice, rflow := d.ctx x.flow .peerFlow, sflow := x.flow, seq := 0, epoch := x.epoch
              last := decide (total ≤ done + n), ovf := d.isSet F.PLY_STEP_OVF p, retx := false, via := false
              ply := decide (ent entry 0 13 1 = 1), tag := false, mcid := 0, off := x.off + done, sync := x.sync, pctr := 0
              sig := x.sig, payload := pay }
          w.convertPackets e entry x total k (done + n) (acc ++ [pk])

end Work

/-- The send entry of a context (R315). -/
def Dev.plySend (d : Dev) (n : Nat) : Option (List Nat) := d.plyEntry (d.ctx n .part) 2 fun e => ent e 0 16 12 = n

/-- The Ply skein with which flow `n` goes on. -/
def Dev.plySkein (d : Dev) (n : Nat) : Option Skein :=
  match d.headSkein n with
  | some x => if x.kind = 2 && decide (x.cut < x.bytes) then some x else none
  | none => none

/-- PLY_CONVERT (R283, R284, R289, R292): the Ply engine of the head Ply skein of flow `n` converts its gradient and the packets wait to be sent. -/
def execPlyConvert (n : Fin 4096) (s : State) : Host.Outcome State Fault Refusal :=
  runWork 7 (fun w =>
    let d := w.dev
    match d.plySkein n, d.plySend n with
    | some x, some entry =>
      let p := x.part
      if d.ctx n .peer = d.fabId || !d.plyServes x.pe p || (ent entry 0 12 1 = 1 && d.isSet F.PLY_STEP_PENDING p) then w
      else
        let w := w.on (·.openStep p)
        let total := x.bytes / (if ent entry 0 11 1 = 1 then 128 else 256)
        let (w, st, l) := w.convertPackets x.pe entry x total total 0 []
        if st ≠ .ok then (w.on (·.failStep p x.pe (ent entry 0 32 16) st)).finishSkein x st
        else w.on fun d => (d.modSkein x.id fun y => { y with ready := l, cut := y.bytes }).queueHead n
    | _, _ => w) s

/-- A self contribution of another epoch than its layer's belongs to the layer's retained accumulator (R314, R338). -/
def Dev.selfOld (d : Dev) (p layer epoch : Nat) : Bool :=
  (d.layerOf p layer true).isSome && match d.layerOf p layer false with
    | some x => ent x 0 48 16 ≠ epoch
    | none => true

/-- Add the blocks of a self contribution in order while they can be added (R288, R289). -/
def Work.selfBlocks (entry : List Nat) (x : Skein) (n : Nat) : Nat → Nat → Work → Work × Status × Nat
  | 0, b, w => (w, .ok, b)
  | k + 1, b, w =>
    let bf16 := ent entry 0 11 1 = 1
    let old := w.dev.selfOld x.part (ent entry 0 32 16) x.epoch
    if !w.dev.addable x.part (ent entry 0 32 16) old [4096 + n] (x.off + b) 1 then (w, Status.ok, b)
    else match w.gradBlock x.part (0x810 + x.pe) (x.src + b * (if bf16 then 128 else 256)) bf16 with
      | (w, .ok, v) =>
        let w := w.on fun d => d.addBlock x.part (ent entry 0 32 16) old [4096 + n] (x.off + b) fun j => un32 ((v[j]?).getD 0)
        Work.selfBlocks entry x n k (b + 1) w
      | (w, st, _) => (w, st, b)

/-- PLY_SELF_CONTRIBUTION (R289, R292): the blocks whose tiles are bound are added; the skein completes with OK when every element has been added. -/
def execPlySelfContribution (n : Fin 4096) (s : State) : Host.Outcome State Fault Refusal :=
  runWork 7 (fun w =>
    let d := w.dev
    match d.plySkein n, d.plySend n with
    | some x, some entry =>
      let p := x.part
      let sz := if ent entry 0 11 1 = 1 then 128 else 256
      if d.ctx n .peer ≠ d.fabId || !d.plyServes x.pe p then w
      else
        let w := w.on (·.openStep p)
        let (w, st, b) := Work.selfBlocks entry x n (x.bytes / sz - x.cut / sz) (x.cut / sz) w
        if st ≠ .ok then (w.on (·.failStep p x.pe (ent entry 0 32 16) st)).finishSkein x st
        else if x.bytes / sz ≤ b then w.finishSkein { x with acked := x.bytes } .ok
        else w.on fun d => d.modSkein x.id fun y => { y with cut := b * sz }
    | _, _ => w) s

/-! ### Combining -/

/-- The combine entry that holds a packet (R293). -/
def Dev.combineEntry (d : Dev) (p : Nat) (x : Packet) : Option (List Nat) :=
  d.plyEntry p 4 fun e => ent e 0 32 16 = x.dst && ent e 0 48 3 = x.ch

/-- The held packets that combine with one: alike in DST, CH, EPOCH, OFF and NBLK, of distinct SRC (R293). -/
def Dev.holdGroup (d : Dev) (h : Held) : List Held :=
  (d.fab.holds.filter fun y => y.engine = h.engine && y.part = h.part && y.packet.dst = h.packet.dst && y.packet.ch = h.packet.ch &&
    y.packet.epoch = h.packet.epoch && y.packet.off = h.packet.off && y.packet.nblk false = h.packet.nblk false).foldl
    (fun l y => if l.any fun z => z.packet.src = y.packet.src then l else l ++ [y]) []

/-- Put held packets into ascending order of SRC (R294). -/
def insertHeld (h : Held) : List Held → List Held
  | [] => [h]
  | x :: t => if h.packet.src ≤ x.packet.src then h :: x :: t else x :: insertHeld h t

/-- Combine held packets into one and send it on OUT (R294). -/
def Work.combine (w : Work) (entry : List Nat) (l : List Held) : Work :=
  match l.foldr insertHeld [] with
  | [] => w
  | h :: t =>
    let e := h.engine
    let p := h.part
    let k := h.packet.nblk false
    let sums : List (Nat × List Nat) := (List.range k).map fun b => (b, (List.range 64).map fun j =>
      t.foldl (fun a y => f32 (FV.add (un32 a) (plyValue y.packet false b j))) (f32 (plyValue h.packet false b j)))
    let w := w.on fun d => (d.openStep p)
    let d := w.dev
    let res (b : Nat) : Option (Nat × Nat) :=
      if ent entry 1 42 1 = 0 then none
      else
        let o := (h.packet.off + b) * 128
        let a := ent entry 2 0 48 + o
        let c := ent entry 3 0 48 + o
        if d.get F.PLY_STEP_VER p = 0 then some (a, c) else some (c, a)
    let (w, st, bl) := w.convertBlocks e p res sums
    if st ≠ .ok then w.on (·.failStep p e 0xFFFF st)
    else
      let head := BitVec.ofNat 8 (h :: t).length :: leBytes 7 0 ++ (h :: t).flatMap fun y =>
        leBytes 8 (y.packet.src + y.packet.sflow * 2 ^ 16 + y.packet.rflow * 2 ^ 28 + y.packet.seq * 2 ^ 40)
      let pay := plyPayload (takePad 256 0 head) bl
      w.on fun d =>
        let n := ent entry 0 16 12
        let x := { h.packet with
          lenm1 := pay.length / 256 - 1, payload := pay, ply := false, retx := false, via := false, tag := false, last := false, sig := false
          sync := 0, mcid := 0, ovf := (h :: t).any fun y => y.packet.ovf }
        let gone := (h :: t)
        let d := { d with fab := { d.fab with holds := d.fab.holds.filter fun y => y ∉ gone } }
        (d.sendOn n x).count .PLY_COMB (4 * e + p)

/-- A combination with error feedback waits while PENDING is 1 (R284). -/
def Dev.combineReady (d : Dev) (e p : Nat) (entry : List Nat) : Bool :=
  d.plyServes e p && !(ent entry 1 42 1 = 1 && d.isSet F.PLY_STEP_PENDING p)

/-- PLY_COMBINE (R293, R294): N alike packets are present and are combined. -/
def execPlyCombine (e : Fin 8) (p : Fin 4) (s : State) : Host.Outcome State Fault Refusal :=
  runWork 7 (fun w =>
    let full (h : Held) : Bool := h.engine = e.val && h.part = p.val &&
      match w.dev.combineEntry p h.packet with
      | some en => w.dev.combineReady e p en && decide (ent en 0 11 5 ≤ (w.dev.holdGroup h).length)
      | none => false
    match w.dev.fab.holds.find? full with
    | some h =>
      match w.dev.combineEntry p h.packet with
      | some en => w.combine en ((w.dev.holdGroup h).take (ent en 0 11 5))
      | none => w
    | none => w) s

/-- When the hold of a held packet expires (R293); without a combine entry of its partition at once. -/
def Dev.holdEnd (d : Dev) (h : Held) : Nat :=
  match d.combineEntry h.part h.packet with
  | some en => h.since + ent en 1 0 10
  | none => h.since

/-- The held packet of engine `e` and partition `p` whose hold expires first; the oldest of equals. -/
def Dev.firstHold (d : Dev) (e p : Nat) : Option Held :=
  (d.fab.holds.filter fun h => h.engine = e && h.part = p).foldl (fun b h => match b with
    | some x => if d.holdEnd h < d.holdEnd x then some h else b
    | none => some h) none

/-- COMBINE_HOLD_EXPIRY (R293): the hold that ends first expires; its packet is combined with those present, or forwarded unchanged. -/
def execCombineHoldExpiry (e : Fin 8) (p : Fin 4) (s : State) : Host.Outcome State Fault Refusal :=
  runWork 7 (fun w =>
    match w.dev.firstHold e p with
    | none => w
    | some h =>
      let alone (w : Work) : Work := w.on fun d =>
        { d with fab := { d.fab with holds := d.fab.holds.filter (· ≠ h) } }.forward p h.packet.dst h.packet.dst h.packet
      match w.dev.combineEntry p h.packet with
      | some en =>
        let w := w.on fun d => d.reachTime (d.holdEnd h)
        let l := (w.dev.holdGroup h).take (ent en 0 11 5)
        if 2 ≤ l.length && w.dev.combineReady e p en then w.combine en l else alone w
      | none => alone w) s

/-! ### Finishing -/

/-- One element's operands in a rule (R304). -/
structure RuleIn where
  lr : Nat
  wd : Option Nat
  b1 : Nat
  b2 : Nat
  bc1 : Nat
  bc2 : Nat
  eps : Nat
  deriving DecidableEq, Repr

/-- The rule operands of a layer (R298, R304). -/
def Dev.ruleIn (d : Dev) (p : Nat) (x : List Nat) : RuleIn :=
  { lr := fMul (d.spbField p 1 0 32) (ent x 7 0 32)
    wd := if ent x 0 13 1 = 1 then some (d.spbField p 1 32 32) else none
    b1 := d.spbField p 3 32 32, b2 := d.spbField p 4 0 32, bc1 := d.spbField p 2 0 32, bc2 := d.spbField p 2 32 32
    eps := d.spbField p 4 32 32 }

/-- Decay (R305). -/
def RuleIn.decay (r : RuleIn) (d w0 : Nat) : Nat :=
  match r.wd with
  | some wd => fAdd d (fMul wd w0)
  | none => d

/-- PLAIN-M (R305): w and m. -/
def RuleIn.plain (r : RuleIn) (g w0 m0 : Nat) : Nat × Nat :=
  let m := fAdd (fMul r.b1 m0) g
  (fSub w0 (fMul r.lr (r.decay m w0)), m)

/-- MOMENT-2's moments and direction (R305): m, v and d. -/
def RuleIn.moments (r : RuleIn) (g w0 m0 v0 : Nat) : Nat × Nat × Nat :=
  let m := fAdd (fMul r.b1 m0) (fMul (fSub one32 r.b1) g)
  let v := fAdd (fMul r.b2 v0) (fMul (fSub one32 r.b2) (fMul g g))
  let u := fDiv (fMul m r.bc1) (fAdd (fSqrt (fMul v r.bc2)) r.eps)
  (m, v, r.decay u w0)

/-- The rounding draws of an element's moments (R304): r_m and r_v. -/
def momentDraws (seed step layer i : Nat) : Nat × Nat :=
  let key := (step % 2 ^ 16 * 2 ^ 48 + layer * 2 ^ 32 + i) % 2 ^ 64
  let z0 := (seed + key * 0x9E3779B97F4A7C15) % 2 ^ 64
  let z1 := Nat.xor z0 (z0 / 2 ^ 30) * 0xBF58476D1CE4E5B9 % 2 ^ 64
  let z2 := Nat.xor z1 (z1 / 2 ^ 27) * 0x94D049BB133111EB % 2 ^ 64
  let z := Nat.xor z2 (z2 / 2 ^ 31)
  (z % 2 ^ 16, z / 2 ^ 16 % 2 ^ 16)

/-- A moment narrowed to BF16 with a draw (R67, R304). -/
def narrowMoment (r c : Nat) : Nat := (narrow .bf16 false (some r) (un32 c)).code

namespace Work

/-- Read record `j` of version `ver` of a layer as w, m and v (R303). -/
def readRecord (w : Work) (e p : Nat) (x : List Nat) (ver j : Nat) : Work × Status × List (Nat × Nat × Nat) :=
  let rule := ent x 0 11 2
  let sz := recordSize rule
  let base := if ver = 0 then ent x 1 0 48 else ent x 2 0 48
  match w.load (some p) (0x810 + e) (base + j * sz) sz with
  | (w, .ok, _, bs) =>
    let at_ (o n : Nat) : Nat := leNat ((bs.drop o).take n)
    (w, .ok, (List.range 64).map fun i =>
      (at_ (4 * i) 4, widen16 (at_ (256 + 2 * i) 2), if rule = 0 then 0 else widen16 (at_ (384 + 2 * i) 2)))
  | (w, st, _, _) => (w, st, [])

/-- Write record `j` of version WV: w as computed, m and v narrowed (R303, R304). -/
def writeRecord (w : Work) (e p : Nat) (x : List Nat) (j : Nat) (l : List (Nat × Nat × Nat)) : Work × Status :=
  let d := w.dev
  let rule := ent x 0 11 2
  let sz := recordSize rule
  let base := if d.get F.PLY_STEP_VER p = 1 then ent x 1 0 48 else ent x 2 0 48
  let draw (i : Nat) : Nat × Nat := momentDraws (d.word .PLY_SEED p).toNat (d.spbField p 0 0 48) (ent x 0 32 16) (64 * j + i)
  let il := l.zip (List.range 64)
  let bs := (l.flatMap fun y => leBytes 4 y.1) ++ (il.flatMap fun y => leBytes 2 (narrowMoment (draw y.2).1 y.1.2.1)) ++
    (if rule = 0 then [] else il.flatMap fun y => leBytes 2 (narrowMoment (draw y.2).2 y.1.2.2))
  let (w, st, _) := w.store (some p) (0x810 + e) (base + j * sz) bs
  (w, st)

/-- Do something at each index until a status is not OK. -/
def each (f : Work → Nat → Work × Status) : List Nat → Work → Work × Status
  | [], w => (w, .ok)
  | i :: t, w =>
    match f w i with
    | (w, .ok) => each f t w
    | (w, st) => (w, st)

/-- Read FP32 codes. -/
def readCodes (w : Work) (e p a n : Nat) : Work × Status × List Nat :=
  match w.load (some p) (0x810 + e) a (4 * n) with
  | (w, .ok, _, bs) => (w, .ok, (List.range n).map fun i => leNat ((bs.drop (4 * i)).take 4))
  | (w, st, _, _) => (w, st, [])

end Work

/-! ### Group messages -/

/-- The kinds of group message (R310). -/
def groupHeader (kind piece layer step : Nat) (ovf : Bool) (count : Nat) : List Byte :=
  leBytes 8 (kind + piece * 2 ^ 8 + layer * 2 ^ 16 + step % 2 ^ 32 * 2 ^ 32) ++
  leBytes 8 (step / 2 ^ 32 % 2 ^ 16 + flag ovf * 2 ^ 16 + count * 2 ^ 32)

/-- The values of a kind are FP64 for norms and FP32 for a SKETCH partial (R310). -/
def groupValueSize (kind : Nat) : Nat := if kind % 0x80 = 3 then 4 else 8

/-- A group message as a packet (R310). -/
def groupPacket (dst : Nat) (mcid : Nat) (kind piece layer step : Nat) (ovf : Bool) (v : List Nat) : Packet :=
  let bs := groupHeader kind piece layer step ovf v.length ++ v.flatMap (leBytes (groupValueSize kind))
  let units := ceilDiv bs.length 256
  { ch := 1, lenm1 := units - 1, dst, src := 0, slice := 0, rflow := 0, sflow := 0, seq := 0, epoch := 0, last := true, ovf := false
    retx := false, via := false, ply := false, tag := false, mcid, off := 0, sync := 0, pctr := 0, sig := false
    payload := takePad (256 * units) 0 bs }

/-- A group message as it is read (R310). -/
structure GroupMsg where
  kind : Nat
  piece : Nat
  layer : Nat
  step : Nat
  ovf : Bool
  values : List Nat
  deriving DecidableEq, Repr

def GroupMsg.of (x : Packet) : GroupMsg :=
  let kind := x.num 0 1
  let sz := groupValueSize kind
  { kind, piece := x.num 1 1, layer := x.num 2 2, step := x.num 4 6, ovf := (x.num 10 1).testBit 0
    values := (List.range (x.num 12 2)).map fun i => x.num (16 + sz * i) sz }

/-- Close a phase ring entry and zero the running totals (R343). -/
def Work.closePhase (w : Work) (p : Nat) (skipped rolled : Bool) : Work :=
  let d := w.dev
  if !d.isSet F.TWIST_PHASE_BASE_EN p then w
  else
    let i := d.get F.TWIST_PHASE_IDX_VALUE p
    let cores := 64 * ((List.range 16).filter fun g => (d.get F.ZQL_PGRP_GROUPS p).testBit g).length
    let w0 := d.get F.PLY_STEP_CURRENT p + flag skipped * 2 ^ 48 + flag rolled * 2 ^ 49
    let w2 := Nat.min 65535 (d.tw.entrySlips.get 0 p) + cores % 2 ^ 11 * 2 ^ 16
    let bs := leBytes 8 w0 ++ leBytes 8 (d.get F.TWIST_CNT_CNT) ++ leBytes 8 w2 ++ leBytes 40 0 ++
      (List.range 8).flatMap fun f => leBytes 8 (d.word .TWIST_PHNOW (8 * p + f)).toNat
    let (w, _) := w.store (some p) 0x800 (d.get F.TWIST_PHASE_BASE_ADDR p + 128 * (i % 256)) bs
    w.on fun d =>
      let d := d.count .TWIST_PHASE_IDX p
      let d := { d with tw := { d.tw with entrySlips := d.tw.entrySlips.set p 0 } }
      (List.range 8).foldl (fun d f => d.zeroCount .TWIST_PHNOW (8 * p + f)) d

/-- A new step: CURRENT advances and the step's runs go (R298, R300). A retained accumulator's run goes on (R314), and a group message other than the
verdict still awaits its result (R301). -/
def Dev.nextStep (d : Dev) (p : Nat) : Dev :=
  let stays (r : LayerRun) : LayerRun := if r.part = p then { r with ovf := d.runOvf p r } else r
  let d := { d with ply := { d.ply with runs := (d.ply.runs.filter fun (r : LayerRun) => r.part ≠ p || r.old).map stays } }
  let d := d.putAll p [(F.PLY_STEP_CURRENT, d.get F.PLY_STEP_CURRENT p + 1), (F.PLY_STEP_SPB_OK, 0), (F.PLY_STEP_OVF, 0), (F.PLY_STEP_STATE, 0)]
  { d with ply := { d.ply with
    trust := d.ply.trust.erase p
    boundary := d.ply.boundary.filter (· ≠ p)
    home := d.ply.home.filter fun x => x.part ≠ p || (x.kind = 0x83 && d.ply.runs.any fun r => r.part = p && r.layer = x.layer)
    awaiting := d.ply.awaiting.filter fun a => a.1 ≠ p || a.2.1 ≠ 1 } }

/-- The loss-scale snapshot (R302). -/
def Dev.takeSnap (d : Dev) (p : Nat) : Dev :=
  { d with ply := { d.ply with
    snap := d.ply.snap.set p (d.get F.PLY_LS_EXP p, d.get F.PLY_LS_CLEAN p, d.get F.PLY_LS_RES_EXP p) } }

/-- A part applies the verdict's result (R300). -/
def Work.applyVerdict (w : Work) (p g : Nat) (entry : List Nat) (ovf : Bool) : Work :=
  let w := w.closePhase p ovf false
  w.on fun d =>
    let exp := d.lsExp p
    let d :=
      if ovf then
        let d := d.putAll p [(F.PLY_LS_EXP, field 6 (max (exp - 1) (-24))), (F.PLY_LS_CLEAN, 0), (F.PLY_STEP_LAST_SKIP, 1)]
        (d.count .PLY_SKIPS p).takeSnap p
      else
        let c := (d.get F.PLY_LS_CLEAN p + 1) % 65536
        let d := { d with ply := { d.ply with resNext := d.ply.resNext.set p (d.get F.PLY_LS_EXP p) } }
        let d := d.putAll p [(F.PLY_LS_CLEAN, c), (F.PLY_STEP_PENDING, 1), (F.PLY_STEP_LAST_SKIP, 0)]
        if c = d.get F.PLY_LS_INTERVAL p then d.putAll p [(F.PLY_LS_EXP, field 6 (min (exp + 1) 24)), (F.PLY_LS_CLEAN, 0)] else d
    let d := d.nextStep p
    let _ := g
    d.postSignal (.signal (ent entry 1 24 16) 1 p (0x810 + ent entry 0 8 3) 0xF d.fabId .none)

namespace Dev

/-- Whether a group result concerns a retained accumulator: one of its step that waits (R314). -/
def resultRun (d : Dev) (p layer step : Nat) : Bool :=
  d.ply.runs.any fun r => r.part = p && r.layer = layer && r.old && r.step = step && r.sent && !r.written

/-- The oldest group message of a kind and layer that awaits its result has it (R301). -/
def answered (d : Dev) (p kind layer : Nat) : Dev :=
  match d.ply.awaiting.find? fun a => a.1 = p && a.2.1 = kind && a.2.2.1 = layer with
  | some a => { d with ply := { d.ply with awaiting := d.ply.awaiting.erase a } }
  | none => d

/-- A norms or SKETCH result reaches the layer (R299, R301, R306, R310): each piece answers one message that awaits its result. -/
def applyResult (d : Dev) (p : Nat) (m : GroupMsg) (entry : List Nat) : Dev :=
  let old := d.resultRun p m.layer m.step
  let d := if m.ovf && decide (m.step = d.get F.PLY_STEP_CURRENT p) then d.setOvf p else d
  let kind := m.kind % 0x80
  let d :=
    if kind = 2 then d.modRun p m.layer old fun r => { r with norms := some ((m.values[0]?).getD 0, (m.values[1]?).getD 0) }
    else
      let k := match d.layerOf p m.layer old with
        | some x => ent x 0 14 7
        | none => 0
      let here : GroupIn := ⟨p, 0x83, m.layer, 0, m.piece, m.ovf, m.values⟩
      let home := d.ply.home.filter (fun x => !(x.part = p && x.kind = 0x83 && x.layer = m.layer && x.piece = m.piece)) ++ [here]
      let piece (i : Nat) : List Nat :=
        match home.find? fun x => x.part = p && x.kind = 0x83 && x.layer = m.layer && x.piece = i with
        | some x => x.values
        | none => []
      let all := piece 0 ++ piece 1
      if all.length = k * (k + 1) / 2 then
        ({ d with ply := { d.ply with home := home.filter fun x => !(x.part = p && x.kind = 0x83 && x.layer = m.layer) } }).modRun p m.layer old
          fun r => { r with matrix := some all }
      else { d with ply := { d.ply with home } }
  (d.answered p kind m.layer).postSignal (.signal (ent entry 1 24 16) 1 p (0x810 + ent entry 0 8 3) 0xF d.fabId .none)

end Dev

/-- Apply a group's result on this part. -/
def Work.applyGroup (w : Work) (p g : Nat) (entry : List Nat) (m : GroupMsg) : Work :=
  if m.kind = 0x81 then w.applyVerdict p g entry m.ovf else w.on fun d => d.applyResult p m entry

/-- Put contributions into ascending order of sender (R310). -/
def insertGroupIn (h : GroupIn) : List GroupIn → List GroupIn
  | [] => [h]
  | x :: t => if h.sender ≤ x.sender then h :: x :: t else x :: insertGroupIn h t

/-- A contribution reaches the home (R300, R310): a sender counts once; when PARTS_N are present, each value is summed in FP64 in ascending order of sender, the result
is broadcast on DOWN and applied here. -/
def Work.homeAdd (w : Work) (p g : Nat) (entry : List Nat) (x : GroupIn) : Work :=
  let alike (y : GroupIn) : Bool := y.part = p && y.kind = x.kind && y.layer = x.layer && y.piece = x.piece
  let d := w.dev
  if d.ply.home.any fun y => alike y && decide (y.sender = x.sender) then w
  else
    let all := (d.ply.home.filter alike) ++ [x]
    if all.length < ent entry 0 48 16 then w.on fun d => { d with ply := { d.ply with home := d.ply.home ++ [x] } }
    else
      let sorted := all.foldr insertGroupIn []
      let wide (c : Nat) : Nat := if x.kind = 3 then f64 (un32 c) else c
      let sum (i : Nat) : Nat := match sorted.map (fun y => wide ((y.values[i]?).getD 0)) with
        | [] => 0
        | v :: t => t.foldl dAdd v
      let vals := (List.range x.values.length).map fun i => if x.kind = 3 then f32 (un64 (sum i)) else sum i
      let m : GroupMsg := ⟨x.kind + 0x80, x.piece, x.layer, d.get F.PLY_STEP_CURRENT p, all.any (·.ovf), vals⟩
      let w := w.on fun d => { d with ply := { d.ply with home := d.ply.home.filter fun y => !alike y } }
      let w := w.on fun d =>
        let n := ent entry 1 12 12
        if d.ctxIs n 0 && decide (1 < ent entry 0 48 16) then
          d.sendOn n (groupPacket 0xFFFF (d.ringMcid n) m.kind m.piece m.layer m.step m.ovf m.values)
        else d
      w.applyGroup p g entry m

/-- A part contributes to a group (R300, R306, R310): at the home directly, else by a message on UP that then awaits a result. -/
def Work.contribute (w : Work) (p g kind layer piece : Nat) (v : List Nat) : Work :=
  let d := w.dev
  match d.groupOf p g with
  | none => w
  | some entry =>
    let ovf := d.isSet F.PLY_STEP_OVF p
    if ent entry 0 32 16 = d.fabId then w.homeAdd p g entry ⟨p, kind, layer, d.fabId, piece, ovf, v⟩
    else w.on fun d =>
      let d := d.sendOn (ent entry 1 0 12)
        (groupPacket (ent entry 0 32 16) 0 kind piece layer (d.get F.PLY_STEP_CURRENT p) ovf v)
      { d with ply := { d.ply with awaiting := d.ply.awaiting ++ [(p, kind, layer, d.get F.TWIST_CNT_CNT)] } }

/-! ### Tile finish, pass 2, solver -/

/-- The contributors of a layer; a retained accumulator's stand behind its old entry (R314). -/
def Dev.contributorsOf (d : Dev) (p : Nat) (x : List Nat) (old : Bool) : List Nat :=
  if old then x.drop 8 else d.contributors p (ent x 0 32 16)

/-- The elements of tile `t` of a layer. -/
def tileElems (x : List Nat) (t : Nat) : Nat := Nat.min 65536 (ent x 3 0 32 - 65536 * t)

/-- Every contributor has delivered every block of the tile (R290). -/
def Dev.tileComplete (d : Dev) (p : Nat) (x : List Nat) (b : Bin) : Bool :=
  (d.contributorsOf p x b.old).all fun c => (List.range (tileElems x b.tile / 64)).all fun i => (c, 1024 * b.tile + i) ∈ b.added

/-- The reduced gradient of an element (R304). -/
def reduced (exp : Int) (gmul acc : Nat) : Nat := fMul (f32 ((un32 acc).scale (-exp))) gmul

/-- Finish one block of a tile under rules 0 and 1, or its pass 1 under rules 2 and 3 (R305, R306). -/
def Work.finishBlock (e p : Nat) (x : List Nat) (old : Bool) (g : Nat → Nat) (w : Work) (j : Nat) : Work × Status :=
  let rule := ent x 0 11 2
  let r := w.dev.ruleIn p x
  let gs := (List.range 64).map fun i => g (64 * j + i)
  match w.readRecord e p x (w.dev.get F.PLY_STEP_VER p) j with
  | (w, .ok, rec) =>
    let l := rec.zip gs
    if rule = 0 then w.writeRecord e p x j (l.map fun y => let (nw, m) := r.plain y.2 y.1.1 y.1.2.1; (nw, m, 0))
    else if rule = 1 then
      w.writeRecord e p x j (l.map fun y =>
        let (m, v, dd) := r.moments y.2 y.1.1 y.1.2.1 y.1.2.2
        (fSub y.1.1 (fMul r.lr dd), m, v))
    else
      let (w, st, _) := w.store (some p) (0x810 + e) (ent x 4 0 48 + 256 * j) (gs.flatMap (leBytes 4))
      let sq (c : Nat) : Nat := f64 (FV.mul (un32 c) (un32 c))
      let nd := l.map fun y => sq (r.moments y.2 y.1.1 y.1.2.1 y.1.2.2).2.2
      let nw := l.map fun y => sq y.1.1
      (w.on fun d => d.modRun p (ent x 0 32 16) old fun q => { q with nw := nw.foldl dAdd q.nw, nd := nd.foldl dAdd q.nd }, st)
  | (w, st, _) => (w, st)

/-- After a layer's last tile, pass 1 ends and the group messages leave (R306, R308, R310). -/
def Work.endPassOne (w : Work) (e p : Nat) (x : List Nat) (old : Bool) : Work :=
  let l := ent x 0 32 16
  let g := ent x 4 48 16
  let rule := ent x 0 11 2
  if rule < 2 then w
  else
    let q := w.dev.runOf p l old
    let w := w.on fun d => d.modRun p l old fun q => { q with sent := true }
    let w := w.contribute p g 2 l 0 [q.nw, q.nd]
    if rule < 3 then w
    else
      let k := ent x 0 14 7
      match w.readCodes e p (ent x 6 0 48) (k * k) with
      | (w, .ok, a) =>
        let tri := (List.range k).flatMap fun i => (List.range (k - i)).map fun j => (a[i * k + i + j]?).getD 0
        let w := w.contribute p g 3 l 0 (tri.take 2044)
        if 2044 < tri.length then w.contribute p g 3 l 1 (tri.drop 2044) else w
      | (w, st, _) => w.on (·.failStep p e l st)

/-- A retained accumulator whose last tile has finished has drained (R313, R314, R338): old packets are refused, and the layer counts as finished for the
verdict. -/
def Dev.drain (d : Dev) (p : Nat) (x : List Nat) : Dev :=
  let l := ent x 0 32 16
  let bound := d.layerContexts p l
  let d := { d with fab := { d.fab with retained := d.fab.retained.filter fun n => n ∉ x.drop 8 && n ∉ bound } }
  let d := match d.layerOf p l false with
    | some y => bound.foldl (fun (d : Dev) n => d.setCtx n .epoch (ent y 0 48 16)) d
    | none => d
  d.modRun p l false fun r => { r with done := true }

/-- TILE_FINISH (R290, R299, R304 to R306): a complete tile of a layer finishes and frees its bin. Log entry notes/assumptions/72.md (DEDUCED). -/
def execTileFinish (e : Fin 8) (p : Fin 4) (layer : Fin 65536) (old : Bool) (s : State) : Host.Outcome State Fault Refusal :=
  runWork 7 (fun w =>
    let d := w.dev
    match d.layerOf p layer old with
    | none => w
    | some x =>
      let t := (d.runOf p layer old).finished
      match d.binOf p layer old t with
      | none => w
      | some b =>
        if ent x 0 8 3 ≠ e || !d.plyServes e p || tileCount x ≤ t || ((d.runOf p layer old).done && !old) || !d.isSet F.PLY_STEP_SPB_OK p || d.isSet F.PLY_STEP_PENDING p ||
            !d.tileComplete p x b then w
        else
          let d := d.openStep p
          let d := if (d.ply.trust.find p).isSome then d
            else { d with ply := { d.ply with trust := d.ply.trust.set p (d.isSet F.PLY_RULE_SEL_SK_AS_TRUST p) } }
          let n := tileElems x t
          let gm := ent x 3 32 32
          let g (i : Nat) : Nat := reduced (d.lsExp p) gm (b.acc.get 0 (i - 65536 * t))
          let bad := ((List.range n).filter fun i => (un32 (g (65536 * t + i))).nonFinite).length
          let d := if bad = 0 then d else (d.setOvf p).countNonfin e p bad
          let w := { w with dev := d }
          let (w, st) :=
            if d.isSet F.PLY_STEP_OVF p then (w, Status.ok)
            else Work.each (Work.finishBlock e p x old g) ((List.range (n / 64)).map (1024 * t + ·)) w
          if st ≠ .ok then w.on (·.failStep p e layer st)
          else
            let w := w.on fun d =>
              let d := { d with ply := { d.ply with bins := d.ply.bins.filter fun y => !(y.part = p.val && y.layer = layer.val && y.old = old && y.tile = t) } }
              d.modRun p layer old fun r => { r with finished := t + 1 }
            if t + 1 < tileCount x then w
            else
              let w := if old then w.on fun d => d.drain p x else w
              w.endPassOne e p x old) s

/-- TRUST's ratio of the group sums (R307), as an FP32 code. -/
def trustRatio (nw nd trMax : Nat) : Nat :=
  let zero (c : Nat) : Bool := FV.eqv (un64 c) .zero
  if zero nw || zero nd then one32
  else
    let t := f32 (un64 (dDiv (dSqrt nw) (dSqrt nd)))
    if FV.lt (un32 trMax) (un32 t) then trMax else t

/-- Element (i, j) of a k × k matrix given as codes. -/
def mat (k : Nat) (m : List Nat) (i j : Nat) : Nat := (m[i * k + j]?).getD 0

/-- M = BETA2 × M0 + (1 − BETA2) × A, element by element (R308); A comes as its upper triangle. -/
def sketchM (k b2 : Nat) (m0 tri : List Nat) : List Nat :=
  let at_ (i j : Nat) : Nat := let (i, j) := (Nat.min i j, Nat.max i j); (tri[i * k - i * (i - 1) / 2 - i + j]?).getD 0
  (List.range (k * k)).map fun q => fAdd (fMul b2 ((m0[q]?).getD 0)) (fMul (fSub one32 b2) (at_ (q / k) (q % k)))

/-- a minus the sum of products, formed in the order given (R308). Log entry notes/assumptions/72.md (DEDUCED). -/
def lessSum (a : Nat) (l : List Nat) : Nat :=
  match l with
  | [] => a
  | x :: t => fSub a (t.foldl fAdd x)

/-- One column of the Cholesky factor after the columns so far; L is kept as its columns (R308). -/
def cholColumn (k : Nat) (m : Nat → Nat → Nat) (cols : List (List Nat)) (j : Nat) : Option (List Nat) :=
  let l (i p : Nat) : Nat := (((cols[p]?).getD [])[i]?).getD 0
  let dot (i : Nat) : Nat := lessSum (m i j) ((List.range j).map fun p => fMul (l i p) (l j p))
  let s := dot j
  if (un32 s).nonFinite || !FV.lt .zero (un32 s) then none
  else
    let r := fSqrt s
    some ((List.range k).map fun i => if i < j then 0 else if i = j then r else fDiv (dot i) r)

/-- Cholesky in fixed order (R308): the columns of L, or none when the attempt fails. -/
def cholesky (k : Nat) (m : Nat → Nat → Nat) : Option (List (List Nat)) :=
  (List.range k).foldl (fun c j => match c with
    | some cols => (cholColumn k m cols j).map fun x => cols ++ [x]
    | none => none) (some [])

/-- Column `c` of (L Lᵀ)^−1 by forward and then backward substitution (R308). -/
def solveColumn (k : Nat) (cols : List (List Nat)) (c : Nat) : List Nat :=
  let l (i j : Nat) : Nat := (((cols[j]?).getD [])[i]?).getD 0
  let y := (List.range k).foldl (fun (y : List Nat) i =>
    let s := lessSum (if i = c then one32 else 0) ((List.range i).map fun j => fMul (l i j) ((y[j]?).getD 0))
    y ++ [fDiv s (l i i)]) []
  (List.range k).foldl (fun (x : List Nat) q =>
    let i := k - 1 - q
    let s := lessSum ((y[i]?).getD 0) ((List.range q).map fun t => fMul (l (i + 1 + t) i) ((x[t]?).getD 0))
    fDiv s (l i i) :: x) []

/-- Up to ten attempts, the first undamped, the others with LAMBDA0 doubled each time (R308): P row-major, or none. -/
def solveP (k lambda0 : Nat) (m : List Nat) : Nat → Nat → Option (List Nat)
  | 0, _ => none
  | n + 1, lam =>
    match cholesky k fun i j => if i = j then fAdd (mat k m i j) lam else mat k m i j with
    | some cols =>
      let p := (List.range k).map (solveColumn k cols)
      some ((List.range (k * k)).map fun q => (((p[q % k]?).getD [])[q / k]?).getD 0)
    | none => solveP k lambda0 m n (if n = 9 then lambda0 else fMul 0x40000000 lam)

/-- Where the SKETCH matrix of a version lies (R303). -/
def matrixAt (x : List Nat) (ver : Nat) : Nat := (if ver = 0 then ent x 1 0 48 else ent x 2 0 48) + matrixOffset x

/-- SOLVER_DONE (R308): the solver forms P of a SKETCH layer, or the layer falls back to TRUST. -/
def execSolverDone (e : Fin 8) (p : Fin 4) (layer : Fin 65536) (old : Bool) (s : State) : Host.Outcome State Fault Refusal :=
  runWork 7 (fun w =>
    let d := w.dev
    match d.layerOf p layer old, (d.runOf p layer old).matrix with
    | some x, some tri =>
      if ent x 0 8 3 ≠ e || ent x 0 11 2 ≠ 3 || !d.plyServes e p || (d.runOf p layer old).solved.isSome then w
      else
        let k := ent x 0 14 7
        match w.readCodes e p (matrixAt x (d.get F.PLY_STEP_VER p)) (k * k) with
        | (w, .ok, m0) =>
          let m := sketchM k (d.spbField p 4 0 32) m0 tri
          let r := if d.ply.trust.get false p then none else solveP k (d.spbField p 5 32 32) m 10 0
          w.on fun d =>
            let d := d.modRun p layer old fun q => { q with solved := some r }
            if r.isSome then d
            else (d.count .PLY_SKFALL (4 * e + p)).raise .sketchFallback (Dev.evPart (some p)) (0x810 + e) layer
        | (w, st, _) => w.on (·.failStep p e layer st)
    | _, _ => w) s

/-- Read every record of a layer, in order. -/
def Work.readLayer (e p : Nat) (x : List Nat) (ver : Nat) : List Nat → Work → Work × Status × List (Nat × Nat × Nat)
  | [], w => (w, .ok, [])
  | j :: t, w =>
    match w.readRecord e p x ver j with
    | (w, .ok, l) =>
      let (w, st, r) := Work.readLayer e p x ver t w
      (w, st, l ++ r)
    | (w, st, _) => (w, st, [])

/-- PASS_TWO (R306, R307, R309): the layer's moments are formed again and its records written under TRUST or SKETCH, with the undamped M. -/
def execPassTwo (e : Fin 8) (p : Fin 4) (layer : Fin 65536) (old : Bool) (s : State) : Host.Outcome State Fault Refusal :=
  runWork 7 (fun w =>
    let d := w.dev
    let run := d.runOf p layer old
    match d.layerOf p layer old, run.norms with
    | some x, some (nw, nd) =>
      let rule := ent x 0 11 2
      if ent x 0 8 3 ≠ e || rule < 2 || !d.plyServes e p || run.written || d.runOvf p run || (rule = 3 && run.solved.isNone) then w
      else
        let n := ent x 3 0 32
        let k := ent x 0 14 7
        let ver := d.get F.PLY_STEP_VER p
        let r := d.ruleIn p x
        let (w, st1, rec) := Work.readLayer e p x ver (List.range (n / 64)) w
        let (w, st2, g) := w.readCodes e p (ent x 4 0 48) n
        let (w, st3, m0) := if rule = 3 then w.readCodes e p (matrixAt x ver) (k * k) else (w, .ok, [])
        let st := st1.orElse (st2.orElse st3)
        if st ≠ .ok then w.on (·.failStep p e layer st)
        else
          let mv := (rec.zip g).map fun y => (y.1.1, r.moments y.2 y.1.1 y.1.2.1 y.1.2.2)
          let new : List (Nat × Nat × Nat) := match run.solved with
            | some (some pm) =>
              let mh := mv.map fun y => fMul y.2.1 r.bc1
              (mv.zip (List.range n)).map fun y =>
                let q := y.2 / k * k
                let j := y.2 % k
                let u := match (List.range k).map fun l => fMul (mat k pm j l) ((mh[q + l]?).getD 0) with
                  | [] => 0
                  | a :: t => t.foldl fAdd a
                (fSub y.1.1 (fMul r.lr (r.decay u y.1.1)), y.1.2.1, y.1.2.2.1)
            | _ =>
              let sc := fMul r.lr (trustRatio nw nd (d.spbField p 5 0 32))
              mv.map fun y => (fSub y.1 (fMul sc y.2.2.2), y.2.1, y.2.2.1)
          let (w, st) : Work × Status := Work.each (fun w j => w.writeRecord e p x j ((new.drop (64 * j)).take 64)) (List.range (n / 64)) w
          let (w, st) : Work × Status := match run.matrix with
            | some tri =>
              if rule = 3 && decide (st = Status.ok) then
                let (w, st, _) := w.store (some p) (0x810 + e) (matrixAt x (1 - ver)) ((sketchM k (d.spbField p 4 0 32) m0 tri).flatMap (leBytes 4))
                (w, st)
              else (w, st)
            | none => (w, st)
          if st ≠ Status.ok then w.on (·.failStep p e layer st)
          else w.on fun d => d.modRun p layer old fun q => { q with written := true }
    | _, _ => w) s

/-- The layer digest of `n` bytes: SHA-384 over the digests of its 64 KiB chunks (R311). -/
def layerDigest (bs : List Byte) : List Byte :=
  sha384 ((List.range (ceilDiv bs.length 65536)).flatMap fun i => sha384 ((bs.drop (65536 * i)).take 65536))

/-- LAYER_FINISH (R299, R311, R312): the digest is written, DONE_SYNC is signalled and the due mark clears. -/
def execLayerFinish (e : Fin 8) (p : Fin 4) (layer : Fin 65536) (old : Bool) (s : State) : Host.Outcome State Fault Refusal :=
  runWork 7 (fun w =>
    let d := w.dev
    let run := d.runOf p layer old
    match d.layerOf p layer old with
    | none => w
    | some x =>
      let ovf := d.runOvf p run
      let gone := old && decide (d.ply.runs.all fun r => !(r.part = p.val && r.layer = layer.val && r.old))
      if ent x 0 8 3 ≠ e || !d.plyServes e p || run.finished ≠ tileCount x || (run.done && !old) || gone ||
          !(ovf || decide (ent x 0 11 2 < 2) || run.written) then w
      else
        let wv := 1 - d.get F.PLY_STEP_VER p
        let (w, st) :=
          if ovf then (w, Status.ok)
          else match w.load (some p) (0x810 + e) (if wv = 0 then ent x 1 0 48 else ent x 2 0 48) (stateBytes x) with
            | (w, .ok, _, bs) =>
              let fell : Bool := match run.solved with
                | some none => true
                | _ => false
              let (w, st, _) := w.store (some p) (0x810 + e) (ent x 5 0 48 + 64 * wv)
                (layerDigest bs ++ leBytes 8 (d.spbField p 0 0 48 + layer * 2 ^ 48) ++ leBytes 8 (wv + 2 * flag fell))
              (w, st)
            | (w, st, _, _) => (w, st)
        if st ≠ .ok then w.on (·.failStep p e layer st)
        else w.on fun d =>
          let d := d.postSignal (.signal (ent x 1 48 16) 1 p (0x810 + e) 0xF d.fabId .none)
          let d := match d.ply.marks.find? fun m => m.1 = p.val && m.2.1 = layer.val && m.2.2.1 = old with
            | some m => { d with ply := { d.ply with marks := d.ply.marks.erase m } }
            | none => d
          if old then
            { d with ply := { d.ply with
              bins := d.ply.bins.filter fun b => !(b.part = p.val && b.layer = layer.val && b.old)
              marks := d.ply.marks.filter fun m => !(m.1 = p.val && m.2.1 = layer.val && m.2.2.1)
              old := d.ply.old.filter fun y => !(y.1 = p.val && ent y.2 0 32 16 = layer.val)
              runs := d.ply.runs.filter fun r => !(r.part = p.val && r.layer = layer.val && r.old) } }
          else d.modRun p layer old fun r => { r with done := true }) s

/-! ### The verdict -/

/-- VERDICT_SEND (R297, R300): every layer entry of the partition has finished; without one, a boundary has passed since the block was accepted. -/
def execVerdictSend (e : Fin 8) (p : Fin 4) (s : State) : Host.Outcome State Fault Refusal :=
  runWork 7 (fun w =>
    let d := w.dev
    match d.groupOf p 0 with
    | none => w
    | some entry =>
      let l := d.layers p
      let ready := if l.isEmpty then decide (p.val ∈ d.ply.boundary) && d.isSet F.PLY_STEP_SPB_OK p
        else l.all fun x => (d.runOf p (ent x 0 32 16) false).done
      if ent entry 0 8 3 ≠ e || !d.plyServes e p || decide (2 ≤ d.get F.PLY_STEP_STATE p) || !ready then w
      else (w.on fun d => d.put F.PLY_STEP_STATE p 2).contribute p 0 1 0 0 []) s

/-- The first queued group packet of engine `e` and partition `p` of one of the kinds, with its group (R310). -/
def Dev.groupIn (d : Dev) (e p : Nat) (kinds : List Nat) : Option ((Nat × Nat × Packet) × Nat) :=
  let hit (q : Nat × Nat × Packet) : Bool :=
    q.1 = e && d.ctx q.2.1 .part = p && q.2.2.num 0 1 ∈ kinds &&
    match d.plyReceive q.2.1 with
    | some r => ent r 0 12 1 = 1
    | none => false
  (d.fab.plyIn.find? hit).map fun q => (q, ((d.plyReceive q.2.1).map fun r => ent r 0 32 16).getD 0)

/-- Take a packet out of the Ply queue. -/
def Dev.takeIn (d : Dev) (q : Nat × Nat × Packet) : Dev := { d with fab := { d.fab with plyIn := d.fab.plyIn.erase q } }

/-- GROUP_MESSAGE (R310): a contribution reaches its home; one of another step is discarded and logged. -/
def execGroupMessage (e : Fin 8) (p : Fin 4) (s : State) : Host.Outcome State Fault Refusal :=
  runWork 7 (fun w =>
    let d := w.dev
    if !d.plyServes e p then w
    else match d.groupIn e p [1, 2, 3] with
      | none => w
      | some (q, g) =>
        let w := w.on (·.takeIn q)
        let m := GroupMsg.of q.2.2
        match d.groupOf p g with
        | none => w
        | some entry =>
          if ent entry 0 32 16 ≠ d.fabId then w
          else if m.step ≠ d.get F.PLY_STEP_CURRENT p then
            w.on fun d => d.raise .groupMessage (Dev.evPart (some p)) (0x810 + e) (m.layer + m.step * 2 ^ 16)
          else w.homeAdd p g entry ⟨p, m.kind, m.layer, q.2.2.src, m.piece, m.ovf, m.values⟩) s

/-- A result is taken from the queue and applied (R300, R310) where it is of the current step, or of the step of a retained accumulator that waits for it
(R314). One of an earlier step that nothing waits for any more is discarded; its message is answered all the same (R301). -/
def Work.takeResult (w : Work) (e p : Nat) (kinds : List Nat) : Work :=
  let d := w.dev
  if !d.plyServes e p then w
  else match d.groupIn e p kinds with
    | none => w
    | some (q, g) =>
      let w := w.on (·.takeIn q)
      let m := GroupMsg.of q.2.2
      match d.groupOf p g with
      | none => w
      | some entry =>
        if m.step = d.get F.PLY_STEP_CURRENT p || (m.kind ≠ 0x81 && d.resultRun p m.layer m.step) then w.applyGroup p g entry m
        else if m.kind = 0x81 then w
        else w.on fun d => d.answered p (m.kind % 0x80) m.layer

/-- VERDICT_RESULT (R300). -/
def execVerdictResult (e : Fin 8) (p : Fin 4) (s : State) : Host.Outcome State Fault Refusal :=
  runWork 7 (fun w => w.takeResult e p [0x81]) s

/-- GROUP_RESULT (R306, R310). -/
def execGroupResult (e : Fin 8) (p : Fin 4) (s : State) : Host.Outcome State Fault Refusal :=
  runWork 7 (fun w => w.takeResult e p [0x82, 0x83]) s

/-- GROUP_RESULT_TIMEOUT (R301): 64 twists after a group message without its result, the step fails. -/
def execGroupResultTimeout (p : Fin 4) (s : State) : Host.Outcome State Fault Refusal :=
  runDev 7 (fun d =>
    match d.ply.awaiting.find? fun a => a.1 = p.val && decide (a.2.2.2 + 64 ≤ d.get F.TWIST_CNT_CNT) with
    | none => d
    | some a =>
      let e := if a.2.1 = 1 then ((d.groupOf p 0).map fun x => ent x 0 8 3).getD 0
        else ((d.layerOf p a.2.2.1 false).map fun x => ent x 0 8 3).getD 0
      let d := { d with ply := { d.ply with awaiting := d.ply.awaiting.filter (·.1 ≠ p.val) } }
      d.failStep p e (if a.2.1 = 1 then 0xFFFF else a.2.2.1)) s

/-! ### Step commands -/

/-- An FP32 code is finite. -/
def finite32 (c : Nat) : Bool := bits c 23 8 ≠ 255

/-- The checks of a step parameter block, step 3 of R298. -/
def spbOk (l : List Nat) (exp : Int) : Bool :=
  let f (w lo n : Nat) : Nat := bits ((l[w]?).getD 0) lo n
  let fl := [f 1 0 32, f 1 32 32, f 2 0 32, f 2 32 32, f 3 0 32, f 3 32 32, f 4 0 32, f 4 32 32, f 5 0 32, f 5 32 32]
  let unit (c : Nat) : Bool := decide (c < one32) || c = 0x80000000
  let pos (c : Nat) : Bool := decide (0 < c ∧ c < 0x7F800000)
  fl.all finite32 && f 3 0 32 = (exp + 127).toNat * 2 ^ 23 && unit (f 3 32 32) && unit (f 4 0 32) && pos (f 4 32 32) && pos (f 5 0 32) &&
  pos (f 5 32 32) && f 0 48 16 = 0 && f 6 0 64 = 0 && f 7 0 64 = 0

/-- SUBMIT (R298). -/
def Dev.submitStep (d : Dev) (p : Nat) : Dev × Status :=
  let l := (List.range 8).map fun w => (d.word .PLY_SPB (8 * p + w)).toNat
  if d.get F.PLY_STEP_STATE p = 3 || d.isSet F.PLY_STEP_SPB_OK p then (d, Status.formatFault)
  else if bits ((l[0]?).getD 0) 0 48 ≠ d.get F.PLY_STEP_CURRENT p then (d, .stepStale)
  else if !spbOk l (d.lsExp p) then (d, .formatFault)
  else
    let d := d.put F.PLY_STEP_SPB_OK p 1
    ({ d with ply := { d.ply with spb := d.ply.spb.set p l, boundary := d.ply.boundary.filter (· ≠ p) } }, .ok)

/-- COMMIT (R302). -/
def Dev.commitStep (d : Dev) (p : Nat) : Dev × Status :=
  if !d.isSet F.PLY_STEP_PENDING p then (d, .formatFault)
  else
    let d := d.putAll p [(F.PLY_STEP_VER, 1 - d.get F.PLY_STEP_VER p), (F.PLY_STEP_PENDING, 0), (F.PLY_LS_RES_EXP, d.ply.resNext.get 0x10 p)]
    (d.takeSnap p, .ok)

/-- ROLLBACK (R302, R343). -/
def Work.rollbackStep (w : Work) (p : Nat) : Work × Status :=
  if w.dev.hasPlan p then (w, Status.writeRefused)
  else
    let w := w.closePhase p false true
    (w.on fun d =>
      let (e, c, r) := d.ply.snap.get (0x10, 0, 0x10) p
      let d := d.putAll p [(F.PLY_LS_EXP, e), (F.PLY_LS_CLEAN, c), (F.PLY_LS_RES_EXP, r), (F.PLY_STEP_PENDING, 0), (F.PLY_STEP_SPB_OK, 0),
        (F.PLY_STEP_OVF, 0), (F.PLY_STEP_STATE, 0)]
      { d with
        ply := { d.ply with
          bins := d.ply.bins.filter (·.part ≠ p)
          cursor := ⟨d.ply.cursor.entries.filter fun x => x.1 % 4 ≠ p⟩
          runs := d.ply.runs.filter (·.part ≠ p)
          marks := d.ply.marks.filter (·.1 ≠ p)
          old := d.ply.old.filter (·.1 ≠ p)
          home := d.ply.home.filter (·.part ≠ p)
          awaiting := d.ply.awaiting.filter (·.1 ≠ p)
          trust := d.ply.trust.erase p
          boundary := d.ply.boundary.filter (· ≠ p) }
        fab := { d.fab with
          plyIn := d.fab.plyIn.filter fun q => d.ctx q.2.1 .part ≠ p
          retained := d.fab.retained.filter fun n => d.ctx n .part ≠ p } }, .ok)

/-- A partition's own host may write its Ply registers, nobody else (R318). -/
def ownPart (r : Requester) (p : Nat) : Bool :=
  match r with
  | .part q => q.val = p
  | _ => false

/-- A write of PLY_STEP_CTL_p (R302, R318): one command at most; STATUS holds the last command's status. -/
def Work.writeStepCtl (w : Work) (r : Requester) (p v : Nat) : Work :=
  if !ownPart r p then w.on (·.answer .partitionDenied)
  else
    let c := v % 8
    let (w, st) :=
      if c = 0 then (w, Status.ok)
      else if c = 1 then let (d, st) := w.dev.submitStep p; ({ w with dev := d }, st)
      else if c = 2 then let (d, st) := w.dev.commitStep p; ({ w with dev := d }, st)
      else if c = 4 then w.rollbackStep p
      else (w, .formatFault)
    w.on fun d => (if c = 0 then d else d.put F.PLY_STEP_CTL_STATUS p st.code).answer st

/-- PLY_SUBMIT (R298). -/
def execPlySubmit (r : Requester) (p : Fin 4) (s : State) : Host.Outcome State Fault Refusal :=
  runWork 7 (Work.ask r fun w => w.writeStepCtl r p 1) s

/-- PLY_COMMIT (R302). -/
def execPlyCommit (r : Requester) (p : Fin 4) (s : State) : Host.Outcome State Fault Refusal :=
  runWork 7 (Work.ask r fun w => w.writeStepCtl r p 2) s

/-- PLY_ROLLBACK (R302). -/
def execPlyRollback (r : Requester) (p : Fin 4) (s : State) : Host.Outcome State Fault Refusal :=
  runWork 7 (Work.ask r fun w => w.writeStepCtl r p 4) s

/-- A write of PLY_STEP_p (R297, R318): only while STATE is IDLE, PENDING is 0 and no plan is active. A block accepted for another CURRENT
does not serve the new one (R298; DEDUCED, notes/assumptions/70.md). -/
def Dev.writeStep (d : Dev) (r : Requester) (p v : Nat) : Dev :=
  if !ownPart r p then d.answer .partitionDenied
  else if d.get F.PLY_STEP_STATE p ≠ 0 || d.isSet F.PLY_STEP_PENDING p || d.hasPlan p then d.answer .writeRefused
  else
    let d := if d.get F.PLY_STEP_CURRENT p = bits v 0 48 then d else d.put F.PLY_STEP_SPB_OK p 0
    (d.putAll p [(F.PLY_STEP_CURRENT, bits v 0 48), (F.PLY_STEP_VER, bits v 48 1)]).answer .ok

/-- PLY_STEP_WRITE (R318). -/
def execPlyStepWrite (r : Requester) (p : Fin 4) (v : Word) (s : State) : Host.Outcome State Fault Refusal :=
  runDev 7 (Dev.ask r fun d => d.writeStep r p v.toNat) s

/-- A write of PLY_LS_p (R318, R336): only while STATE is IDLE and PENDING is 0; RES_EXP takes EXP, CLEAN is zeroed, and the written scale is what a
ROLLBACK restores. Log entry notes/assumptions/72.md (DEDUCED). -/
def Dev.writeLs (d : Dev) (r : Requester) (p v : Nat) : Dev :=
  let e := signed 6 (bits v 0 6)
  if !ownPart r p then d.answer .partitionDenied
  else if d.get F.PLY_STEP_STATE p ≠ 0 || d.isSet F.PLY_STEP_PENDING p then d.answer .writeRefused
  else if e < -24 ∨ 24 < e ∨ bits v 22 16 = 0 then d.answer .formatFault
  else
    ((d.putAll p [(F.PLY_LS_EXP, bits v 0 6), (F.PLY_LS_CLEAN, 0), (F.PLY_LS_RES_EXP, bits v 0 6), (F.PLY_LS_INTERVAL, bits v 22 16)]).takeSnap
      p).answer .ok

/-- PLY_LS_WRITE (R318). -/
def execPlyLsWrite (r : Requester) (p : Fin 4) (v : Word) (s : State) : Host.Outcome State Fault Refusal :=
  runDev 7 (Dev.ask r fun d => d.writeLs r p v.toNat) s

end Sys2Proof.Machine
end

