-- ==== Sys2Proof/Machine/Recovery.lean ====
section
/-!
DEFINITION. Verify, seal and compare runs (R326 to R328) and the phase timers (R342 to R344).
-/

namespace Sys2Proof.Machine

/-- A write of PLY_VRF_CTL_p of engine `e` (R326, R344). START with BUSY set or no entries completes with FORMAT_FAULT and does nothing. -/
def Dev.writeVrfCtl (d : Dev) (r : Requester) (e p v : Nat) : Dev :=
  let k := 4 * e + p
  let start := v.testBit 0
  if !ownPart r p then d.answer .partitionDenied
  else if start && (d.isSet F.PLY_VRF_CTL_BUSY k || bits v 13 16 = 0) then d.answer .formatFault
  else
    let d := d.putAll k [(F.PLY_VRF_CTL_MODE, bits v 1 1), (F.PLY_VRF_CTL_COUNT, bits v 13 16), (F.PLY_VRF_CTL_SYNC, bits v 29 16),
      (F.PLY_VRF_CTL_SIG, bits v 45 1), (F.PLY_VRF_CTL_CMP, bits v 46 1)]
    let d :=
      if start then
        let d := d.putAll k [(F.PLY_VRF_CTL_BUSY, 1), (F.PLY_VRF_CTL_DONE, 0)]
        let run := [d.get F.PLY_VRF_LIST_ADDR k, bits v 13 16, bits v 1 1, bits v 46 1, bits v 29 16, bits v 45 1]
        { d with ply := { d.ply with vrf := d.ply.vrf.set k run } }
      else d
    d.answer .ok

/-- VERIFY_RUN_START (R326). -/
def execVerifyRunStart (r : Requester) (e : Fin 8) (p : Fin 4) (v : Word) (s : State) : Host.Outcome State Fault Refusal :=
  runDev 7 (Dev.ask r fun d => d.writeVrfCtl r e p (v.toNat / 2 * 2 + 1)) s

/-- The first place at which two byte lists differ, or their length (R328). -/
def firstDiff : List Byte → List Byte → Nat
  | x :: xs, y :: ys => if x = y then firstDiff xs ys + 1 else 0
  | _, _ => 0

namespace Work

/-- One entry of a verify, seal or compare run (R326, R328): its status, MATCH and STEP. -/
def vrfEntry (w : Work) (e p mode cmp : Nat) (l : List Nat) : Work × Status × Bool × Nat :=
  let reader := 0x810 + e
  let base := bits ((l[0]?).getD 0) 0 48
  let layer := bits ((l[0]?).getD 0) 48 16
  let n := bits ((l[1]?).getD 0) 0 40
  let slot := bits ((l[2]?).getD 0) 0 48
  let ver := bits ((l[2]?).getD 0) 48 1
  let step := bits ((l[3]?).getD 0) 0 48
  let crooked := base % 128 ≠ 0 || n = 0 || n % 128 ≠ 0 || (if cmp = 1 then slot % 128 ≠ 0 else slot % 64 ≠ 0)
  let d := w.dev
  let outside := !d.inRange p base (Nat.max n 1) || !d.inRange p slot (if cmp = 1 then Nat.max n 1 else 64)
  if outside then (w, .partitionDenied, false, step)
  else if crooked then (w, .formatFault, false, step)
  else match w.load (some p) reader base n with
    | (w, .ok, _, bs) =>
      if cmp = 1 then
        match w.load (some p) reader slot n with
        | (w, .ok, _, cs) => let k := firstDiff bs cs; (w, .ok, decide (k = n), k)
        | (w, st, _, _) => (w, st, false, step)
      else
        let dg := layerDigest bs
        if mode = 1 then
          let (w, st, _) := w.store (some p) reader slot (dg ++ leBytes 8 (step + layer * 2 ^ 48) ++ leBytes 8 ver)
          (w, st, decide (st = .ok), step)
        else match w.load (some p) reader slot 64 with
          | (w, .ok, _, cs) =>
            let w6 := leNat ((cs.drop 48).take 8)
            let w7 := leNat ((cs.drop 56).take 8)
            (w, .ok, decide (cs.take 48 = dg) && decide (w6 = step + layer * 2 ^ 48) && decide (w7 % 2 = ver), step)
          | (w, st, _, _) => (w, st, false, step)
    | (w, st, _, _) => (w, st, false, step)

/-- The entries of a run in order: the first status other than OK, and whether an entry does not match. -/
def vrfEntries (e p mode cmp addr : Nat) : List Nat → Work → Work × Status × Bool
  | [], w => (w, .ok, false)
  | i :: t, w =>
    let a := addr + 32 * i
    match w.load (some p) (0x810 + e) a 32 with
    | (w, .ok, _, bs) =>
      let l := (List.range 4).map fun j => leNat ((bs.drop (8 * j)).take 8)
      let (w, st, hit, step) := w.vrfEntry e p mode cmp l
      let v := step + st.code * 2 ^ 48 + flag hit * 2 ^ 56 + 2 ^ 57
      let (w, _) := w.store (some p) (0x810 + e) (a + 24) (leBytes 8 v)
      let (w, st', bad) := vrfEntries e p mode cmp addr t w
      (w, st.orElse st', !hit || bad)
    | (w, st, _, _) =>
      let (w, st', _) := vrfEntries e p mode cmp addr t w
      (w, st.orElse st', true)

end Work

/-- VERIFY_RUN_END (R326, R327): in the partition's Ply slots the run works its list to the end, sets DONE, STATUS and MISMATCH, and signals SYNC. -/
def execVerifyRunEnd (e : Fin 8) (p : Fin 4) (s : State) : Host.Outcome State Fault Refusal :=
  runWork 7 (fun w =>
    let k := 4 * e.val + p.val
    match w.dev.ply.vrf.find k with
    | some [addr, count, mode, cmp, sync, sig] =>
      if !w.dev.plyServes e p then w
      else
        let (w, st, bad) := Work.vrfEntries e p mode cmp addr (List.range count) w
        w.on fun d =>
          let d := d.putAll k [(F.PLY_VRF_CTL_BUSY, 0), (F.PLY_VRF_CTL_DONE, 1), (F.PLY_VRF_CTL_STATUS, st.code), (F.PLY_VRF_CTL_MISMATCH, flag bad)]
          let d := { d with ply := { d.ply with vrf := d.ply.vrf.erase k } }
          if sig = 1 then d.postSignal (.signal sync 1 p (0x810 + e) 0xF d.fabId .none) else d
    | _ => w) s

/-! ### Phase timers -/

/-- The phase in which a core of partition `p` counts (R342). Log entry notes/assumptions/72.md (DEDUCED). -/
def Dev.phaseOf (d : Dev) (p c : Nat) : Option Nat :=
  let k := d.cores.get {} c
  match k.run with
  | .idle => none
  | .halt => none
  | _ =>
    if k.stall ≠ .none then some 7
    else if p ∈ d.tw.rerun ∧ d.hasPlan p then some 6
    else k.phase.filter fun f => decide (f < 8)

/-- PHASE_TIMER_TICK (R342): each microsecond every phase total gains the cores that count in it. -/
def execPhaseTimerTick (s : State) : Host.Outcome State Fault Refusal :=
  runDev 2 (fun d =>
    let d := { d with now := (d.now / 1000 + 1) * 1000 }
    d.cores.keys.foldl (fun d c =>
      match d.partOfCore c with
      | none => d
      | some p =>
        match d.phaseOf p c with
        | some f => d.count .TWIST_PHNOW (8 * p + f)
        | none => d) d) s

/-- A write of TWIST_PHASE_BASE_p (R344): ADDR does not change while EN is 1. -/
def Dev.writePhaseBase (d : Dev) (r : Requester) (p v : Nat) : Dev :=
  if !ownPart r p then d.answer .partitionDenied
  else if d.isSet F.TWIST_PHASE_BASE_EN p && bits v 0 48 ≠ d.get F.TWIST_PHASE_BASE_ADDR p then d.answer .writeRefused
  else if bits v 0 48 % 128 ≠ 0 then d.answer .formatFault
  else (d.setWord .TWIST_PHASE_BASE p (BitVec.ofNat 64 (v % 2 ^ 49))).answer .ok

end Sys2Proof.Machine
end

