-- ==== Sys2Proof/Machine/Plan.lean ====
section
/-!
DEFINITION. Plans: reading and checking an image (R247, R248, R316, R323), preparing (R248, R268), arming and switching (R249, R250, R313, R314), stopping (R251)
and what entry to UNALIGNED does to them (R190).
-/

namespace Sys2Proof.Machine

/-! ### The image -/

/-- Words of one entry of a section kind (R247, R315). -/
def entryWords : Nat → Option Nat
  | 1 => some 9 | 2 => some 2 | 3 => some 1 | 4 => some 1 | 5 => some 8 | _ => none

/-- A section as it is read: its kind, whether its header is well formed, and its entries. -/
structure ImgSection where
  kind : Nat
  ok : Bool
  entries : List (List Nat)
  deriving DecidableEq, Repr

/-- Cut a list into pieces of `n` words. -/
def pieces (n : Nat) : Nat → List Nat → List (List Nat)
  | 0, _ => []
  | k + 1, l => l.take n :: pieces n k (l.drop n)

/-- Read `n` sections. None: the image ends inside a section or goes on behind the last one (R248). A section of an unknown kind ends the reading. -/
def readSections : Nat → List Nat → Option (List ImgSection)
  | 0, [] => some []
  | 0, _ => none
  | k + 1, h0 :: h1 :: t =>
    let kind := bits h0 0 8
    let count := bits h0 8 24
    let ok : Bool := h0 / 2 ^ 32 = 0 && h1 = 0
    match entryWords kind with
    | none => some [⟨kind, false, []⟩]
    | some n =>
      if t.length < count * n then none
      else (readSections k (t.drop (count * n))).map fun r => ⟨kind, ok, pieces n count (t.take (count * n))⟩ :: r
  | _, _ => none

/-- The fibre-slot of a permutation entry as its key (R247). -/
def permKey (e : List Nat) : Nat := (18 * bits (e.headD 0) 0 3 + bits (e.headD 0) 3 5) * 64 + bits (e.headD 0) 8 6

/-- The plan that sections give, unchecked. -/
def planOf (h : List Nat) (l : List ImgSection) : Plan :=
  let f (w lo n : Nat) : Nat := bits ((h[w]?).getD 0) lo n
  let all (k : Nat) : List (List Nat) := (l.filter (·.kind = k)).flatMap (·.entries)
  let g (e : List Nat) (lo n : Nat) : Nat := bits (e.headD 0) lo n
  { slice := f 0 48 16, guard := f 1 14 10, ackRes := f 1 24 8, rows := f 3 0 8, cols := f 3 8 8, myrow := f 3 16 8, mycol := f 3 24 8
    rowNext := f 3 32 16, colNext := f 3 48 16
    ctxs := (all 1).map fun e => (g e 0 12, e.drop 1)
    routes := (all 2).map fun e => (g e 0 9, (e[1]?).getD 0)
    perms := (all 3).foldl (fun (t : Tab Nat) e => t.set (permKey e) (g e 14 24)) ⟨[]⟩
    places := (l.zipIdx.filter (·.1.kind = 3)).foldl (fun t x => x.1.entries.zipIdx.foldl (fun t e => t.set (permKey e.1) (x.2, e.2)) t) ⟨[]⟩
    allows := (all 4).map fun e => ⟨g e 0 3, g e 3 5, g e 8 6, g e 14 3, g e 17 12, g e 29 13⟩
    ply := all 5 }

namespace Dev

/-- A context of a plan is kept: it has KEEP and an active context of the partition (R250). -/
def keptCtx (d : Dev) (p : Nat) (c : Nat × List Nat) : Bool :=
  CtxF.keep.of c.2 = 1 && d.hasPlan p && d.ctx c.1 .valid = 1 && d.ctx c.1 .part = p

/-- The checks on a flow context entry (R232, R248): its SLICE is the plan's, or 0 for management on channels 4 and 7 (R17, R225, R231). Log entry notes/assumptions/24.md (DEDUCED). -/
def ctxEntryOk (d : Dev) (p : Nat) (a : Plan) (e : List Nat) : Bool :=
  let n := bits (e.headD 0) 0 12
  let c := e.drop 1
  let z (w lo k : Nat) : Bool := bits (((e.drop 1)[w]?).getD 0) lo k = 0
  e.headD 0 / 2 ^ 12 = 0 && z 1 55 1 && z 3 50 14 && z 5 50 14 && z 6 40 24 && z 7 0 64 && CtxF.dir.of c ≠ 3 && CtxF.part.of c = p &&
  (CtxF.slice.of c = a.slice || (CtxF.slice.of c = 0 && (CtxF.ch.of c = 4 || CtxF.ch.of c = 7))) &&
  d.partOfFlow n = some p && (a.ctxs.filter (·.1 = n)).length = 1 &&
  (!d.keptCtx p (n, c) || (d.ctx n .dir = CtxF.dir.of c && d.ctx n .peer = CtxF.peer.of c && d.ctx n .peerFlow = CtxF.peerFlow.of c &&
    d.ctx n .ch = CtxF.ch.of c && d.ctx n .slice = CtxF.slice.of c))

/-- The checks on a route entry (R228, R248). -/
def routeEntryOk (p : Nat) (a : Plan) (e : List Nat) : Bool :=
  let v := (e[1]?).getD 0
  e.headD 0 / 2 ^ 9 = 0 && bits v 57 7 = 0 && bits v 0 2 = 1 && bits v 2 2 = p && bits v 4 16 = a.slice &&
  (a.routes.filter (·.1 = e.headD 0)).length = 1

/-- The checks on a permutation entry (R220, R248). -/
def permEntryOk (d : Dev) (p : Nat) (e : List Nat) : Bool :=
  let v := e.headD 0
  v / 2 ^ 38 = 0 && decide (bits v 3 5 ≤ 17) && isPerm (bits v 14 24) && d.slotCode (bits v 0 3) (bits v 3 5) (bits v 8 6) = p

/-- The parts to which a plan lets a destination be reached: itself, and the relays that its route entry enables (R228). -/
def planReach (d : Dev) (a : Plan) (dst : Nat) : List Nat :=
  dst :: match a.routes.find? (·.1 = d.routeIndex dst) with
    | some (_, v) => (List.range 4).filterMap fun r =>
        if (bits v 21 4).testBit r then some (d.fabId / 256 * 256 + bits v (25 + 8 * r) 8) else none
    | none => []

/-- The checks on an allowance entry (R239, R248). -/
def allowEntryOk (d : Dev) (p : Nat) (a : Plan) (e : List Nat) : Bool :=
  let v := e.headD 0
  let eng := bits v 0 3
  let f := bits v 3 5
  let s := bits v 8 6
  v / 2 ^ 42 = 0 && decide (f ≤ 17) && bits v 29 13 ≠ 0 && d.slotCode eng f s = p &&
  match planCtx a (bits v 17 12), a.perms.find ((18 * eng + f) * 64 + s) with
  | some c, perm =>
    CtxF.valid.of c = 1 && (CtxF.dir.of c = 0 || CtxF.dir.of c = 2) &&
    (match perm with
      | none => true
      | some perm => match d.reaches eng f (permLine perm (bits v 14 3)) with
        | none => false
        | some dest =>
          if CtxF.dir.of c = 2 then dest = CtxF.peer.of c
          else if CtxF.peer.of c = 0xFFFF then dest = a.rowNext || dest = a.colNext
          else dest ∈ d.planReach a (CtxF.peer.of c))
  | none, _ => false

/-- The checks on one entry of a section. -/
def entryOk (d : Dev) (p : Nat) (a : Plan) (kind : Nat) (e : List Nat) : Bool :=
  match kind with
  | 1 => d.ctxEntryOk p a e
  | 2 => routeEntryOk p a e
  | 3 => d.permEntryOk p e
  | 4 => d.allowEntryOk p a e
  | _ => d.plyEntryOk p a e

/-- The first section and entry at fault, in image order (R248 step 2). -/
def sectionFault (d : Dev) (p : Nat) (a : Plan) (l : List ImgSection) : Option (Nat × Nat) :=
  l.zipIdx.findSome? fun x =>
    if !x.1.ok then some (x.2, 0)
    else (x.1.entries.zipIdx.find? fun e => !d.entryOk p a x.1.kind e.1).map fun e => (x.2, e.2)

/-- Section and entry of the `i`-th entry of a kind. -/
def placeOf (l : List ImgSection) (kind i : Nat) : Nat × Nat :=
  let all := l.zipIdx.flatMap fun x => if x.1.kind = kind then (List.range x.1.entries.length).map fun j => (x.2, j) else []
  (all[i]?).getD (0xF, 0xFFFFFF)

/-- Where a fibre-slot without a permutation is reported, a fault in which no entry takes part (R248): one past the last entry of the last permutation
section, or no section and no entry without one. Log entry notes/assumptions/24.md (DESIGN CHOICE: no entry takes part). -/
def permEnd (l : List ImgSection) : Nat × Nat :=
  match (l.zipIdx.filter (·.1.kind = 3)).getLast? with
  | some x => (x.2, x.1.entries.length)
  | none => (0xF, 0xFFFFFF)

/-- The blocks of a lane in slot `s` under a plan (R239). -/
def laneBlocks (d : Dev) (a : Plan) (s : Nat) : Nat := blocksIn (d.slotLen s - a.guard) - a.ackRes - (if s = 0 then 2 else 0)

/-- The whole-plan checks in order (R248 step 3, R316, R323): the place of the first entry that takes part in the fault. -/
def planFault (d : Dev) (p : Nat) (a : Plan) (l : List ImgSection) : Option (Nat × Nat) :=
  let perms := (l.filter (·.kind = 3)).flatMap (·.entries)
  let twice := (perms.zipIdx.find? fun e => perms.zipIdx.any fun x => decide (x.2 ≠ e.2) && permKey x.1 = permKey e.1).map fun e => placeOf l 3 e.2
  let missing := if (List.range 576).any (fun k =>
      let codes := (d.word .FAB_FSLOT k).toNat
      (List.range 16).any fun s => bits codes (4 * s) 4 = p && (a.perms.find (16 * k + s)).isNone) then some (permEnd l) else none
  let cost (x : Allow) : Nat :=
    let pk := match planCtx a x.flow with
      | some c => CtxF.pktu.of c + 1
      | none => 1
    16 * x.units + 4 * ceilDiv x.units pk
  let overrun := (a.allows.zipIdx.find? fun x =>
    decide (d.laneBlocks a x.1.slot < ((a.allows.filter fun y => y.e = x.1.e && y.f = x.1.f && y.slot = x.1.slot && y.lane = x.1.lane).map cost).sum)).map
      fun x => placeOf l 4 x.2
  let table := (d.plyTableFault a).map fun i => placeOf l 5 i
  let tags := (a.ctxs.zipIdx.find? fun x => CtxF.tagMode.of x.1.2 = 2 &&
    !(match if x.1.1 = 0 then none else planCtx a (x.1.1 - 1) with
      | some c => CtxF.tagMode.of c = 1 && CtxF.peer.of c = CtxF.peer.of x.1.2 && CtxF.ch.of c = CtxF.ch.of x.1.2 &&
          CtxF.slice.of c = CtxF.slice.of x.1.2
      | none => false)).map fun x => placeOf l 1 x.2
  twice.or (missing.or (overrun.or (table.or tags)))

/-- The slice tag of a plan is free (R231) and is the tag of the partition's key. -/
def sliceOk (d : Dev) (p tag : Nat) : Bool :=
  tag ≠ 0 && (d.fab.keys.get {} p).tag = tag &&
  ((List.range 4).all fun q => q = p || !d.holdsTag q tag) &&
  (List.range 64).all fun j => !(d.isSet F.FAB_TRN_VALID j && d.get F.FAB_TRN_SLICE j = tag)

/-- The checks on a whole image (R248): the plan, or the status with the section and entry at fault. Log entry notes/assumptions/24.md (DEDUCED). -/
def checkImage (d : Dev) (p : Nat) (bs : List Byte) : Except (Nat × Nat) Plan :=
  let ws := (List.range (bs.length / 8)).map fun i => leNat ((bs.drop (8 * i)).take 8)
  let f (w lo n : Nat) : Nat := bits ((ws[w]?).getD 0) lo n
  let head := f 0 0 32 = 0x4E414C50 && f 0 32 16 = 0x0100 && f 2 0 32 = bs.length && f 2 32 32 = crc32 (bs.drop 64) &&
    f 1 0 14 = d.tw.period && decide (2 ≤ f 1 14 10) && f 1 48 16 = 0 && f 4 0 64 = 0 && f 5 0 64 = 0 && f 6 0 64 = 0 && f 7 0 64 = 0 &&
    bs.length % 8 = 0
  match if head then readSections (f 1 32 16) (ws.drop 8) else none with
  | none => .error (0xF, 0xFFFFFF)
  | some l =>
    let a := planOf ws l
    if !d.sliceOk p a.slice then .error (0xF, 0xFFFFFF)
    else match (d.sectionFault p a l).or (d.planFault p a l) with
      | some x => .error x
      | none => .ok a

/-- The distaff that serves a group of an engine, its own unless the spare does. -/
def servingDistaff (d : Dev) (e g : Nat) : Nat :=
  if d.get F.OPT_DSTAT_STATE (3 * e + 2) = 3 && d.get F.OPT_DSTAT_SERVES (3 * e + 2) = g then 2 else g

/-! ### Prepare -/

/-- A write of FAB_PLAN_CTL_p (R248, R249, R251, R252). -/
def writePlanCtl (d : Dev) (r : Requester) (p v : Nat) : Dev :=
  let c := v % 16
  let bar := bits v 4 12
  let staged := d.get F.FAB_PLAN_STAT_STAGED p
  if !ownPart r p then d.answer .partitionDenied
  else if c ≠ 0 && c ≠ 1 && c ≠ 2 && c ≠ 4 && c ≠ 8 then d.answer .formatFault
  else if (c = 1 && staged ≠ 0) || (c = 2 && staged ≠ 3) || (c = 8 && staged = 4) then d.answer .formatFault
  else if c = 2 && (d.partOfSync (61440 + bar) ≠ some p || !d.isSet F.SYNC_BAR_ENABLE bar) then d.answer .formatFault
  else
    let d := d.put F.FAB_PLAN_CTL_BAR p bar
    let d := match c with
      | 1 => if (d.fab.keys.get {} p).live then d.put F.FAB_PLAN_STAT_STAGED p 1 else d.failPrepare p .keyRevoked 0xF 0xFFFFFF
      | 2 => (d.put F.FAB_PLAN_STAT_STAGED p 4).setBank p { d.bank p with arrived := false, switchAt := none }
      | 4 => if d.hasPlan p then d.setBank p { d.bank p with stopping := true } else d
      | 8 => d.emptyStaged p
      | _ => d
    d.answer .ok

/-- The checked plan is prepared (R248, R268): its rings' locks are requested and its primes sent. -/
def beginPrepare (d : Dev) (p : Nat) (a : Plan) : Dev :=
  match d.unlockable a with
  | some k => let (s, e) := a.places.get (0xF, 0xFFFFFF) k; d.failPrepare p .notLocked s e
  | none =>
    let sends := (a.ctxs.filter fun c => CtxF.valid.of c.2 = 1 && CtxF.dir.of c.2 = 0 && !d.keptCtx p c && CtxF.peer.of c.2 ≠ d.fabId &&
      CtxF.peer.of c.2 ≠ 0xFFFF)
    let d := d.putAll p [(F.FAB_PLAN_STAT_STATUS, 0), (F.FAB_PLAN_STAT_SECTION, 0), (F.FAB_PLAN_STAT_ENTRY, 0), (F.FAB_PLAN_STAT_STAGED, 2)]
    let d := d.setBank p { d.bank p with staged := some a, unprimed := sends.map (·.1), arrived := false, switchAt := none }
    let d := (planRings a).foldl (fun (d : Dev) x =>
      if d.ringState x.1 x.2 = 0 then d.startLock x.1 x.2 (d.servingDistaff x.1 (x.2 / 64 % 2)) else d) d
    if d.fabId = 0xFFFF then d
    else sends.foldl (fun (d : Dev) c =>
      let u : PrimeUnit := { src := d.fabId, dst := CtxF.peer.of c.2, sflow := c.1, rflow := CtxF.peerFlow.of c.2, slice := CtxF.slice.of c.2, answer := false }
      d.postControl .prime (some p) u.dst u.unit) d

end Dev

/-- Load and check the image (R248). -/
def Work.loadPlan (w : Work) (p : Nat) : Work :=
  let d := w.dev
  let a := d.get F.FAB_PLAN_SRC_ADDR p
  let head := (0xF, 0xFFFFFF)
  let fail (w : Work) (st : Status) (x : Nat × Nat) : Work := w.on fun d => d.failPrepare p st x.1 x.2
  if d.get F.FAB_PLAN_STAT_STAGED p ≠ 1 then w
  else if a % 64 ≠ 0 then fail w .formatFault head
  else if !d.inRange p a 64 then fail w .partitionDenied head
  else match w.load (some p) 0x800 a 64 with
    | (w, .ok, _, h) =>
      let n := Nat.max 64 (leNat ((h.drop 16).take 4))
      if !w.dev.inRange p a n then fail w .partitionDenied head
      else match w.load (some p) 0x800 a n with
        | (w, .ok, _, bs) =>
          match w.dev.checkImage p bs with
          | .error x => fail w .formatFault (Nat.min x.1 15, x.2)
          | .ok plan => w.on fun d => d.beginPrepare p plan
        | (w, st, _, _) => fail w st head
    | (w, st, _, _) => fail w st head

/-- PLAN_PREPARE (R248). Log entry notes/assumptions/24.md (DEDUCED). -/
def execPlanPrepare (r : Requester) (p : Fin 4) (s : State) : Host.Outcome State Fault Refusal :=
  runDev 4 (Dev.ask r fun d => d.writePlanCtl r p (1 + 16 * d.get F.FAB_PLAN_CTL_BAR p)) s

/-- PLAN_LOAD_COMPLETE (R248, R268). -/
def execPlanLoadComplete (p : Fin 4) (s : State) : Host.Outcome State Fault Refusal :=
  runWork 4 (fun w => w.loadPlan p) s

/-- PLAN_READY (R248): every ring of the plan is verified and every prime answered. -/
def execPlanReady (p : Fin 4) (s : State) : Host.Outcome State Fault Refusal :=
  runDev 4 (fun d =>
    let b := d.bank p
    match b.staged with
    | some a =>
      if d.get F.FAB_PLAN_STAT_STAGED p = 2 && b.unprimed.isEmpty && (Dev.planRings a).all fun x => d.ringState x.1 x.2 = 4 then
        d.put F.FAB_PLAN_STAT_STAGED p 3
      else d
    | none => d) s

/-- PLAN_ARM (R249): the barrier is `bar`. Log entry notes/assumptions/24.md (DEDUCED). -/
def execPlanArm (r : Requester) (p : Fin 4) (bar : Fin 4096) (s : State) : Host.Outcome State Fault Refusal :=
  runDev 4 (Dev.ask r fun d => d.writePlanCtl r p (2 + 16 * bar)) s

/-- PLAN_STOP (R251). Log entry notes/assumptions/24.md (DEDUCED). -/
def execPlanStop (r : Requester) (p : Fin 4) (s : State) : Host.Outcome State Fault Refusal :=
  runDev 4 (Dev.ask r fun d => d.writePlanCtl r p (4 + 16 * d.get F.FAB_PLAN_CTL_BAR p)) s

/-- PLAN_DISCARD (R251). -/
def execPlanDiscard (r : Requester) (p : Fin 4) (s : State) : Host.Outcome State Fault Refusal :=
  runDev 4 (Dev.ask r fun d => d.writePlanCtl r p (8 + 16 * d.get F.FAB_PLAN_CTL_BAR p)) s

/-- PLAN_SWITCH_ARRIVAL (R249 step 2): the part arrives once every active context that the new plan does not keep is drained. -/
def execPlanSwitchArrival (p : Fin 4) (s : State) : Host.Outcome State Fault Refusal :=
  runDev 4 (fun d =>
    let b := d.bank p
    match b.staged with
    | some a =>
      let kept (n : Nat) : Bool := a.ctxs.any fun c => c.1 = n && d.keptCtx p c
      let drained := (d.fab.skeins.all fun x => x.part ≠ p || kept x.flow) &&
        d.fab.flights.all fun x => d.ctx x.flow .part ≠ p || kept x.flow
      if d.get F.FAB_PLAN_STAT_STAGED p ≠ 4 || b.arrived || !drained then d
      else (d.setBank p { b with arrived := true }).postSignal (.arrive (61440 + d.get F.FAB_PLAN_CTL_BAR p) p (.plan p))
    | none => d) s

namespace Dev

/-- The twist that a switch of partition `p` counts: the plan twist, or the twist counter without a plan (R249). -/
def switchTwist (d : Dev) (p : Nat) : Int := if d.hasPlan p then d.planTwist p else d.get F.TWIST_CNT_CNT

/-- The release of a switch barrier reaches partition `p` (R249 steps 4 to 7). -/
def planReleased (d : Dev) (p : Nat) (st : Status) (sw : Nat) : Dev :=
  if d.get F.FAB_PLAN_STAT_STAGED p ≠ 4 then d
  else
    let ready := (d.setBank p { d.bank p with arrived := false, switchAt := none }).put F.FAB_PLAN_STAT_STAGED p 3
    if st ≠ .ok then ready.raise .switchBarrierTimeout p 0x800 (d.get F.FAB_PLAN_CTL_BAR p)
    else if (sw : Int) ≤ d.switchTwist p then ready.raise .switchReleaseLate p 0x800 sw
    else d.setBank p { d.bank p with switchAt := some sw }

/-! ### The switch -/

/-- The layer's fields that must stand for it to go on over a switch (R314). -/
def sameLayer (o n : List Nat) : Bool :=
  ent o 0 8 3 = ent n 0 8 3 && ent o 0 11 2 = ent n 0 11 2 && ent o 0 48 16 = ent n 0 48 16 && ent o 3 0 32 = ent n 3 0 32 &&
  ent o 1 0 48 = ent n 1 0 48 && ent o 2 0 48 = ent n 2 0 48 && ent o 4 0 48 = ent n 4 0 48 && ent o 5 0 48 = ent n 5 0 48 &&
  ent o 6 0 48 = ent n 6 0 48

/-- A layer is open: its step is open and it has not finished, or blocks have been added to a bin of it (R314). -/
def layerOpen (d : Dev) (p layer : Nat) : Bool :=
  (d.get F.PLY_STEP_STATE p = 1 && !(d.runOf p layer false).done) ||
  d.ply.bins.any fun b => b.part = p && b.layer = layer && !b.old && !b.added.isEmpty

/-- Drop the bins and queued packets of a layer. -/
def dropLayer (d : Dev) (p layer : Nat) : Dev :=
  { d with
    ply := { d.ply with
      bins := d.ply.bins.filter fun b => !(b.part = p && b.layer = layer && !b.old)
      marks := d.ply.marks.filter fun m => !(m.1 = p && m.2.1 = layer && !m.2.2.1) }
    fab := { d.fab with plyIn := d.fab.plyIn.filter fun q => !(d.ctx q.2.1 .part = p && match d.plyReceive q.2.1 with
      | some r => ent r 0 12 1 = 0 && ent r 0 32 16 = layer
      | none => false) } }

/-- The open tiles of a layer become its retained accumulator, with its run and its due mark (R314). A tile that has finished in the step and was bound
again for the next one is no open tile of it: its bin and its mark are freed, for the new entry binds it anew. Log entry notes/assumptions/72.md (DEDUCED). -/
def retain (d : Dev) (p l : Nat) : Dev :=
  let run := d.runOf p l false
  let open_ (b : Bin) : Bool := run.done || decide (run.finished ≤ b.tile)
  let mine (m : Nat × Nat × Bool × Int) : Bool := m.1 = p && m.2.1 = l && !m.2.2.1
  let mark := (d.ply.marks.find? mine).toList.map fun m => (m.1, m.2.1, true, m.2.2.2)
  { d with ply := { d.ply with
    bins := (d.ply.bins.filter fun b => !(b.part = p && b.layer = l) || open_ b).map fun b => if b.part = p && b.layer = l then { b with old := true } else b
    runs := d.ply.runs.map fun r => if r.part = p && r.layer = l && !r.done then { r with old := true } else r
    marks := (d.ply.marks.filter fun m => !mine m) ++ mark } }

/-- What becomes of one layer of the old plan at a switch (R314). -/
def layerFate (d : Dev) (p : Nat) (new : Plan) (o : List Nat) : Dev :=
  let l := ent o 0 32 16
  let n := new.ply.find? fun e => ent e 0 0 8 = 1 && ent e 0 32 16 = l
  match n with
  | some x =>
    if sameLayer o x then d
    else if ent x 0 48 16 = (ent o 0 48 16 + 1) % 65536 then
      if !d.layerOpen p l then d.dropLayer p l
      else
        let second := d.ply.old.any fun y => y.1 = p && ent y.2 0 32 16 = l
        let keys := d.contributors p l
        let bound := (d.layerContexts p l).filter fun n => new.ply.any fun e => ent e 0 0 8 = 3 && ent e 0 16 12 = n && ent e 0 32 16 = l
        let d := if second then
            { d with ply := { d.ply with
              old := d.ply.old.filter fun y => !(y.1 = p && ent y.2 0 32 16 = l)
              bins := d.ply.bins.filter fun b => !(b.part = p && b.layer = l && b.old)
              marks := d.ply.marks.filter fun m => !(m.1 = p && m.2.1 = l && m.2.2.1)
              runs := d.ply.runs.filter fun r => !(r.part = p && r.layer = l && r.old) } }
          else d
        let d := d.retain p l
        let d := { d with
          ply := { d.ply with old := d.ply.old ++ [(p, o.take 8 ++ keys)] }
          fab := { d.fab with retained := d.fab.retained ++ bound } }
        let d := if tileCount o ≤ (d.runOf p l true).finished then d.drain p (o.take 8 ++ keys) else d
        if second then d.failStep p (ent o 0 8 3) l else d
    else if d.layerOpen p l then (d.dropLayer p l).failStep p (ent o 0 8 3) l else d.dropLayer p l
  | none => if d.layerOpen p l then (d.dropLayer p l).failStep p (ent o 0 8 3) l else d.dropLayer p l

/-- Clear what the fabric holds for contexts of a partition that do not go on. -/
def dropFlows (d : Dev) (p : Nat) (kept : Nat → Bool) : Dev :=
  let mine (n : Nat) : Bool := d.ctx n .part = p && d.ctx n .valid = 1 && !kept n
  { d with fab := { d.fab with
    flights := d.fab.flights.filter fun x => !mine x.flow
    rem := d.fab.rem.filter fun x => match x.flow with
      | some n => !mine n
      | none => true
    fwd := d.fab.fwd.filter fun x => !mine x.flow
    rx := d.fab.rx.filter fun n _ => !mine n
    head := d.fab.head.filter fun n _ => !mine n } }

/-- Contexts of partition `p` in its flow blocks. -/
def flowsOf (d : Dev) (p : Nat) : List Nat :=
  (List.range 4096).filter fun n => d.ctx n .valid = 1 && d.ctx n .part = p

/-- The running state that a KEEP context keeps over a switch (R232, R250, R323): its sequence numbers and status, the tag that it has recorded, and what it shows of its open
skein. Every other context starts with zeros there: SEQ 0, OK, and no tag recorded. -/
def runFields : List CtxF := [.nextSeq, .baseSeq, .status, .tagStep, .tagDigest, .tagEpoch, .due, .dueValid, .late, .sent]

/-- Load a plan's contexts (R250). -/
def loadContexts (d : Dev) (p : Nat) (a : Plan) : Dev :=
  let kept := a.ctxs.filter fun c => d.keptCtx p c
  let isKept (n : Nat) : Bool := kept.any (·.1 = n)
  let held := kept.map fun c => (c.1, runFields.map (d.ctx c.1))
  let d := d.dropFlows p isKept
  let d := (d.flowsOf p).foldl (fun (d : Dev) n => d.loadCtx n []) d
  a.ctxs.foldl (fun (d : Dev) c =>
    let vals := ((held.find? (·.1 = c.1)).map (·.2)).getD (runFields.map fun _ => 0)
    (runFields.zip vals).foldl (fun (d : Dev) x => d.setCtx c.1 x.1 x.2) (d.loadCtx c.1 c.2)) d

/-- Load a plan's routing table (R228, R250). -/
def loadRoutes (d : Dev) (p : Nat) (l : List (Nat × Nat)) : Dev :=
  let d := (List.range 512).foldl (fun (d : Dev) i => d.resetReg .FAB_RT (512 * p + i)) d
  l.foldl (fun (d : Dev) x => d.setWord .FAB_RT (512 * p + x.1) (BitVec.ofNat 64 x.2)) d

/-- The place in the new tile sequence from which binding goes on: after the tiles that are bound or finished. -/
def resumeCursor (d : Dev) (e p : Nat) : Nat :=
  ((d.tileSeq e p).takeWhile fun x =>
    let r := d.runOf p (ent x.1 0 32 16) false
    r.done || decide (x.2 < r.finished) || (d.binOf p (ent x.1 0 32 16) false x.2).isSome).length

end Dev

/-- The plan switch of partition `p` at a boundary (R249, R250, R313, R314). -/
def Work.switchPlan (w : Work) (p : Nat) (a : Plan) (sw : Nat) : Work :=
  let d := w.dev
  let shift := d.planTwist p
  let kept (n : Nat) : Bool := a.ctxs.any fun c => c.1 = n && d.keptCtx p c
  let old := d.layers p
  let w := w.finishSkeins (fun x => x.part = p && !kept x.flow) .deadlineMissed
  w.on fun d =>
    let d := old.foldl (fun (d : Dev) o => d.layerFate p a o) d
    let d := d.loadContexts p a
    let d := d.loadRoutes p a.routes
    let d := d.setBank p { active := some a, before := (d.bank p).before }
    let d := (a.ply.filter fun e => ent e 0 0 8 = 3 && ent e 0 12 1 = 0).foldl (fun (d : Dev) e =>
      match d.layerOf p (ent e 0 32 16) false with
      | some l => d.setCtx (ent e 0 16 12) .epoch (ent l 0 48 16)
      | none => d) d
    let at_ := d.get F.FAB_PLAN_AT_AT p
    let defer := sw - at_
    let d := d.putAll p [(F.FAB_PLAN_STAT_STAGED, 0), (F.FAB_PLAN_STAT_ACTIVE, 1), (F.FAB_PLAN_STAT_DEFER, Nat.min 255 defer)]
    let d := if defer = 0 then d else d.raise .lateSwitch p 0x800 defer
    let d := (d.setWord .TWIST_START p (BitVec.ofNat 64 (d.get F.TWIST_CNT_CNT))).zeroCount .TWIST_SLIPS p
    let d := { d with
      tw := { d.tw with slips := d.tw.slips.filter (·.part ≠ p), rerun := d.tw.rerun.filter (· ≠ p) }
      cores := d.cores.mapValues fun c k => if d.partOfCore c = some p then { k with due := k.due.map (· - shift) } else k
      ply := { d.ply with marks := d.ply.marks.map fun m => if m.1 = p then (m.1, m.2.1, m.2.2.1, m.2.2.2 - shift) else m } }
    (List.range 8).foldl (fun (d : Dev) e =>
      { d with ply := { d.ply with cursor := d.ply.cursor.set (4 * e + p) (d.resumeCursor e p) } }) d

/-- The active plan of partition `p` ends at a boundary (R251): open skeins complete with DEADLINE_MISSED and its contexts become invalid. -/
def Work.stopPlan (w : Work) (p : Nat) : Work :=
  let w := w.finishSkeins (fun x => x.part = p) .deadlineMissed
  w.on fun d =>
    let d := d.dropFlows p fun _ => false
    let d := (d.flowsOf p).foldl (fun (d : Dev) n => d.setCtx n .valid 0) d
    let d := d.loadRoutes p []
    (d.setBank p { d.bank p with active := none, stopping := false }).put F.FAB_PLAN_STAT_ACTIVE p 0

/-- Unscheduled traffic on channels 4, 6 and 7 goes on when its plan has halted (R190). -/
def Dev.outlives (d : Dev) (n : Nat) : Bool := (d.ctx n .ch = 4 || d.ctx n .ch = 6 || d.ctx n .ch = 7) && !d.scheduled n

/-- The active plan of partition `p` stops at once (R190): its open skeins complete with DEADLINE_MISSED and its flows fail with that status, and what waits under its allowances or on
another channel goes. Unscheduled traffic on channels 4, 6 and 7 goes on by the permutations of the halted plan. The contexts stay until the next switch. Log entry
notes/assumptions/24.md (DEDUCED). -/
def Work.haltPlan (w : Work) (p : Nat) : Work :=
  let ends := (w.dev.flowsOf p).filter fun n => w.dev.ctx n .dir = 0 && !w.dev.outlives n
  let w := w.finishSkeins (fun x => x.part = p && ends.contains x.flow) .deadlineMissed
  w.on fun d =>
    let d := ends.foldl (fun (d : Dev) n => d.failFlow n .deadlineMissed) d
    let d := { d with fab := { d.fab with
      fwd := d.fab.fwd.filter fun x => d.ctx x.flow .part ≠ p
      rem := d.fab.rem.filter fun r => r.who ≠ p || r.ch = 4 || r.ch = 6 || r.ch = 7 } }
    let b := d.bank p
    (d.setBank p { b with active := none, stopping := false, halted := b.active }).put F.FAB_PLAN_STAT_ACTIVE p 0

/-- Every active plan stops at once (R190), and its partition gets a fatal event. -/
def Work.haltPlans (w : Work) (reason : Nat) : Work :=
  let ps := (List.range 4).filter fun p => w.dev.hasPlan p
  (ps.foldl Work.haltPlan w).on fun d => (ps ++ [7]).foldl (fun (d : Dev) p => d.raise .unaligned p 0x800 reason) d

end Sys2Proof.Machine
end

