-- ==== Sys2Proof/Machine/SyncPort.lean ====
section
/-!
DEFINITION. Class Y and class T but TSKEIN: YSIG, YWAIT, YBAR, YREAD (R140 to R144), TREAD, TWAIT, TDUE, TDONE and TPHASE (R145, R146,
R148).
-/

namespace Sys2Proof.Machine

namespace Dev

/-- What a class Y instruction's object is refused with at issue: the lower code of a bad kind of object and a foreign partition
(R12, R140, R143, R198). -/
def yRefusal (d : Dev) (c : Nat) (kind : YKind) (id : Nat) : Option Status :=
  if 65536 ≤ id then some .formatFault
  else if d.partOfSync id ≠ d.partOfCore c then some .partitionDenied
  else if (kind = .sig ∧ 61440 ≤ id) ∨ (kind = .bar ∧ id < 61440) then some .formatFault
  else none

/-- Put a class Y instruction into core `c`'s sync port, which keeps 16 in flight (R118); `stall` is what issue then waits for, by object.
Without a stall the core goes on to the next index. -/
def issueY (d : Dev) (c : Nat) (w : Word) (top : Nat) (kind : YKind) (x mask : Nat) (stall : Option (Nat → Stall)) : Dev :=
  d.issue c w top fun k d =>
    if 16 ≤ k.yq.length then d
    else
      let id := k.objectId w
      let op : YOp :=
        { seq := k.seq, kind, id, x, rd := Op.rd w, mask, eq := decide (Op.fn w = 1), timeout := Op.timeout w
          refused := d.yRefusal c kind id }
      let k := { (k.await (Op.rd w)).bumpSeq with yq := k.yq ++ [op] }
      let k := match stall with
        | some f => { k with stall := f id, run := if kind = .wait then .wait else k.run }
        | none => k.advance
      (d.setCore c k).pump c

end Dev

/-- YSIG (R140, R141): a signal that adds x to an object of the part leaves the core once the earlier scalar stores and the units
in FN have completed; its status comes to RD. -/
def execYsig (c : Fin 1024) (w : Word) (s : State) : Host.Outcome State Fault Refusal :=
  runDev (coreDom c) (fun d => d.issueY c w 0x80 .sig ((d.core c).yValue w) (Op.fn w) none) s

/-- YWAIT (R142): issue stalls until the object's value meets FN against x, or the timeout TO passes. -/
def execYwait (c : Fin 1024) (w : Word) (s : State) : Host.Outcome State Fault Refusal :=
  runDev (coreDom c) (fun d => d.issueY c w 0x81 .wait ((d.core c).yValue w) 0 (some .sync)) s

/-- The timeout of core `c`'s YWAIT has run out: it gives up with DEADLINE_MISSED and leaves the object's WAITERS (R142). -/
def execYwaitTimeout (c : Fin 1024) (s : State) : Host.Outcome State Fault Refusal :=
  runDev (coreDom c) (fun d =>
    match d.sync.waiters.find? fun x => match x.reply with
      | .core c' _ seq => decide (c' = c.val ∧ x.left = some 0) && d.awaits c seq
      | _ => false with
    | some x => ((d.dropWaiter x).yStatus c .deadlineMissed).pump c
    | none => d) s

/-- YBAR (R143): the core arrives at a barrier counter once the earlier scalar stores and the units in FN have completed, and issue
stalls until the release. -/
def execYbar (c : Fin 1024) (w : Word) (s : State) : Host.Outcome State Fault Refusal :=
  runDev (coreDom c) (fun d => d.issueY c w 0x82 .bar 0 (Op.fn w) (some .barrier)) s

/-- YREAD (R144): the object's value and status come to RD without waiting. -/
def execYread (c : Fin 1024) (w : Word) (s : State) : Host.Outcome State Fault Refusal :=
  runDev (coreDom c) (fun d => d.issueY c w 0x83 .read 0 0 none) s

/-- Slips applied to partition `p` (R192). -/
def Dev.slips (d : Dev) (p : Nat) : Nat := bits (d.word .TWIST_SLIPS p).toNat 0 48

/-- The plan twist number that a core sees; zero in no partition (R192). -/
def Dev.corePlanTwist (d : Dev) (c : Nat) : Int :=
  match d.partOfCore c with
  | some p => d.planTwist p
  | none => 0

/-- TREAD (R145): the twist counter, the plan twist number, the slips of the slice or the current plan slot. -/
def execTread (c : Fin 1024) (w : Word) (s : State) : Host.Outcome State Fault Refusal :=
  runDev (coreDom c) (fun d => d.issueCore c w 0xA0 fun k =>
    let v : Int := match Op.fn w with
      | 0 => d.get F.TWIST_CNT_CNT
      | 1 => d.corePlanTwist c
      | 2 => match d.partOfCore c with
        | some p => (d.slips p : Nat)
        | none => 0
      | _ => (d.tw.slot : Nat)
    (k.setReg (Op.rd w) (BitVec.ofInt 64 v)).advance) s

/-- TWAIT (R145): issue stalls until the plan twist number is at least s[RA] + IMM. -/
def execTwait (c : Fin 1024) (w : Word) (s : State) : Host.Outcome State Fault Refusal :=
  runDev (coreDom c) (fun d => d.issueCore c w 0xA1 fun k =>
    if k.twistArg w ≤ d.corePlanTwist c then k.advance else { k with stall := .twist (k.twistArg w) }) s

/-- TDUE (R146): the core's work is due by the end of plan twist s[RA] + IMM; an earlier declaration is replaced. -/
def execTdue (c : Fin 1024) (w : Word) (s : State) : Host.Outcome State Fault Refusal :=
  runDev (coreDom c) (fun d => d.issueCore c w 0xA2 fun k => { k.advance with due := some (k.twistArg w) }) s

/-- TDONE (R146): the declaration is cleared. -/
def execTdone (c : Fin 1024) (w : Word) (s : State) : Host.Outcome State Fault Refusal :=
  runDev (coreDom c) (fun d => d.issueCore c w 0xA3 fun k => { k.advance with due := none }) s

/-- TPHASE (R148): the core reports that it enters phase FN. -/
def execTphase (c : Fin 1024) (w : Word) (s : State) : Host.Outcome State Fault Refusal :=
  runDev (coreDom c) (fun d => d.issueCore c w 0xA5 fun k => { k.advance with phase := some (Op.fn w) }) s

end Sys2Proof.Machine
end

