-- ==== Sys2Proof/Machine/SyncStore.lean ====
section
/-!
DEFINITION. The sync object store: operations of its banks (R199 to R201), zeroing (R202), the clearing of a die's objects (R203), debug modes and
repair writes (R213, R214), host notification (R206), and the return of statuses (R200).
-/

namespace Sys2Proof.Machine

namespace Dev

/-- The partition whose right an operation uses; 4 stands for the management processor and the owner port (R448). -/
def whoOf (part : Nat) : Option Nat := if part < 4 then some part else none

/-- A signal of a queue entry of port `p` has come back: the entry completes with its own status first (R113, R356). -/
def entryReply (d : Dev) (p id : Nat) (s : Status) : Dev :=
  let x := d.zport p
  d.setZport p { x with entries := x.entries.map fun e =>
    if e.id = id && e.done.isNone then
      { e with done := some (match e.moved with
        | some (st, bytes) => (st.orElse s, bytes)
        | none => (s, 0)) }
    else e }

/-- Return the status of an operation of a bank to whoever asked, with the object's value and, for a barrier, the switch twist (R142, R143, R200,
R249, R352). -/
def replyTo (d : Dev) (r : Reply) (s : Status) (v : Nat) (sw : Nat := 0) : Dev :=
  match r with
  | .none => d
  | .core c _ seq => if d.awaits c seq then (d.yStatus c s).pump c else d
  | .dma c seq => d.retireDma c seq s
  | .flow n seq => d.signalAnswered n seq s
  | .port p tag => d.sendDone p tag s v
  | .plan p => d.planReleased p s sw
  | .entry p id => d.entryReply p id s

/-- Release a waiter with a status: it leaves WAITERS (R197). -/
def releaseWaiter (d : Dev) (x : Waiter) (s : Status) (sw : Nat := 0) : Dev :=
  (d.dropWaiter x).replyTo x.reply s (d.objValue x.id) sw

/-- After each operation the bank evaluates every waiter of the object: those whose condition VALUE meets are released (R199, R201). -/
def evaluate (d : Dev) (id : Nat) : Dev :=
  (d.sync.waiters.filter fun x => x.id = id && !x.barrier && waitCond x.eq (d.objValue id) x.x).foldl (fun (d : Dev) x => d.releaseWaiter x .ok) d

/-- Write the LAST fields of an object (R197, R199). -/
def setLast (d : Dev) (id part src ch : Nat) : Dev :=
  d.putAll id [(F.SYNC_OBJ_HI_LAST_PART, part), (F.SYNC_OBJ_HI_LAST_SRC, src), (F.SYNC_OBJ_HI_LAST_CH, ch)]

/-- Apply a signal of `x` (R199, R200): refused on a frozen or failed object or a barrier counter, else VALUE rises, saturating; the
LAST fields are set, waiters are evaluated and a host object's port notifies (R206, R357). -/
def applySignal (d : Dev) (id x part src ch fab : Nat) : Dev × Status :=
  let st := d.objStatus (whoOf part) id
  if st ≠ .ok then (d, st)
  else if 61440 ≤ id then (d, .formatFault)
  else
    let v := d.objValue id + x
    let st := if 2 ^ 32 ≤ v then Status.saturated else Status.ok
    let v := Nat.min v (2 ^ 32 - 1)
    let d := ((d.put F.SYNC_OBJ_LO_VALUE id v).setLast id fab src ch).put F.SYNC_OBJ_HI_LAST_TWIST id (d.get F.TWIST_CNT_CNT)
    let d := d.evaluate id
    let d := if 57344 ≤ id ∧ (d.partOfSync id).isSome then d.notify ((id - 57344) / 1024) id v fab else d
    (d, st)

/-- Start a wait (R199, R201): refused, or counted as a waiter and evaluated. -/
def startWait (d : Dev) (id x : Nat) (eq : Bool) (part : Nat) (timeout : Option Nat) (r : Reply) : Dev :=
  let st := d.objStatus (whoOf part) id
  if st ≠ .ok then d.replyTo r st 0
  else (d.addWaiter { id, barrier := false, eq, x, left := timeout, reply := r }).evaluate id

/-- The object that an operation names. -/
def opId : SyncOp → Nat
  | .signal id _ _ _ _ _ _ => id
  | .wait id _ _ _ _ _ => id
  | .arrive id _ _ => id

/-- The operation that a bank applies next, the oldest that has reached it (R199), with those of the other banks left. -/
def nextOp (d : Dev) (bank : Nat) : Option (SyncOp × Dev) :=
  match d.sync.arrivals.find? fun o => opId o % 64 = bank with
  | some o => some (o, { d with sync := { d.sync with arrivals := d.sync.arrivals.erase o } })
  | none => none

/-- Zero an object's value and LAST fields (R202). -/
def zeroObject (d : Dev) (id : Nat) : Dev := (d.put F.SYNC_OBJ_LO_VALUE id 0).setWord .SYNC_OBJ_HI id 0

/-- An object that stops a zeroing run (R202). -/
def objectInUse (d : Dev) (id : Nat) : Bool := d.get F.SYNC_OBJ_LO_WAITERS id ≠ 0 || d.objState id ≠ 0

/-- Zero `n` objects in ascending order; the run stops before the first object in use (R202). -/
def zeroRun : Nat → Nat → Dev → Dev × Status
  | 0, _, d => (d, .ok)
  | n + 1, id, d => if d.objectInUse id then (d, .writeRefused) else zeroRun n (id + 1) (d.zeroObject id)

/-- The ids that a write of SYNC_ZERO concerns lie in the writer's partition, or in none for the management processor and the owner port (R202, R215): FIRST and
the objects of the run. Log entry notes/assumptions/62.md (DEDUCED). -/
def mayZero (d : Dev) (r : Requester) (first count : Nat) : Bool :=
  (first :: (List.range count).map (first + ·)).all fun id => decide (65536 ≤ id) || d.partOfSync id = partOfReq r

/-- A write of SYNC_ZERO (R7, R202, R215): the access rule first, then START checks the run and begins it. -/
def writeZero (d : Dev) (r : Requester) (v : Nat) : Dev :=
  let first := bits v 0 16
  let count := bits v 16 17
  let d' := d.putAll 0 [(F.SYNC_ZERO_FIRST, first), (F.SYNC_ZERO_COUNT, count)]
  if !d.mayZero r first count then d.answer .partitionDenied
  else if !v.testBit 33 then d'.answer .ok
  else if d.isSet F.SYNC_ZERO_BUSY || count = 0 || decide (65536 < first + count) then d.answer .formatFault
  else
    let d := d'.put F.SYNC_ZERO_BUSY 0 1
    { d with sync := { d.sync with zeroRun := some (first, count) } }.answer .ok

/-- A write of SYNC_DIE_CTL (R203, R215): the objects of the cores of each die whose bit is set become zero and LIVE. -/
def clearDie (d : Dev) (die : Nat) : Dev :=
  (List.range 24576).foldl (fun (d : Dev) i =>
    let id := 24576 * die + i
    let d := (d.zeroObject id).put F.SYNC_OBJ_LO_WAITERS id 0
    if d.objState id = 1 then d.put F.SYNC_OBJ_LO_STATE id 0 else d) d

/-- SYNC_DIE_CTL (R203, R215). -/
def writeDieCtl (d : Dev) (r : Requester) (v : Nat) : Dev :=
  let dies := (List.range 2).filter fun i => v.testBit i
  if r ≠ .mgmt then d.answer .partitionDenied
  else if dies.any fun i => !d.isSet F.LBI_DIE_STAT_WRAP_CLOSED i then d.answer .writeRefused
  else (dies.foldl clearDie d).answer .ok

/-- A write of SYNC_DBG_p (R213, R215). -/
def writeDbg (d : Dev) (r : Requester) (p v : Nat) : Dev :=
  let mode := bits v 0 2
  if partOfReq r ≠ some p then d.answer .partitionDenied
  else if mode = 3 then d.answer .formatFault
  else if mode = 2 && !d.isSet F.DBG_UNLOCK_HELD p then d.answer .partitionDenied
  else (d.put F.SYNC_DBG_MODE p mode).answer .ok

/-- Who may reach the SYNC_OBJ registers of an object: its partition and the monitor under the debug mode (1 to read, 2 to write), and for
an object of no partition the management processor and the owner port (R213, R215, R417). -/
def mayReachObj (d : Dev) (r : Requester) (id mode : Nat) : Bool :=
  match d.partOfSync id, r with
  | none, .part _ => false
  | none, _ => true
  | some _, .owner => false
  | some p, .mgmt => decide (mode ≤ d.get F.SYNC_DBG_MODE p)
  | some p, .part q => p = q.val && decide (mode ≤ d.get F.SYNC_DBG_MODE p)

/-- A write of SYNC_OBJ_LO_id, a repair write (R214, R215). Log entry notes/assumptions/62.md (DEDUCED). -/
def writeObject (d : Dev) (r : Requester) (id v : Nat) : Dev :=
  if !d.mayReachObj r id 2 then d.answer .partitionDenied
  else if d.objState id ≠ 0 || decide (61440 ≤ id) then d.answer .writeRefused
  else
    let new := bits v 0 32
    let old := d.objValue id
    let d := (d.put F.SYNC_OBJ_LO_VALUE id new).setLast id (d.get F.FAB_ID_ID) 0xFFF 0xF
    let d := d.raise .repairWrite (evPart (d.partOfSync id)) id (old + new * 2 ^ 32)
    (d.evaluate id).answer .ok

end Dev

/-- A signal that has reached its bank is applied, and its status returns to the signaller (R199, R200). -/
def execSyncSignalApply (bank : Fin 64) (s : State) : Host.Outcome State Fault Refusal :=
  runDev 2 (fun d =>
    match d.nextOp bank with
    | some (.signal id x part src ch fab r, d') =>
      let (d, st) := d'.applySignal id x part src ch fab
      d.replyTo r st 0
    | _ => d) s

/-- A wait that has reached its bank starts (R199, R201). -/
def execSyncWaitStart (bank : Fin 64) (s : State) : Host.Outcome State Fault Refusal :=
  runDev 2 (fun d =>
    match d.nextOp bank with
    | some (.wait id x eq part timeout r, d') => d'.startWait id x eq part timeout r
    | _ => d) s

/-- SYNC_ZERO_START (R202). -/
def execSyncZeroStart (r : Requester) (first : Fin 65536) (count : Fin 131072) (s : State) : Host.Outcome State Fault Refusal :=
  runDev 2 (Dev.ask r fun d => d.writeZero r (first + count * 2 ^ 16 + 2 ^ 33)) s

/-- The zeroing run ends: BUSY falls and STATUS tells how (R202). -/
def execSyncZeroEnd (s : State) : Host.Outcome State Fault Refusal :=
  runDev 2 (fun d =>
    match d.sync.zeroRun with
    | none => d
    | some (first, count) =>
      let (d, st) := Dev.zeroRun count first d
      let d := d.putAll 0 [(F.SYNC_ZERO_BUSY, 0), (F.SYNC_ZERO_STATUS, st.code)]
      { d with sync := { d.sync with zeroRun := none } }) s

/-- SYNC_DIE_CLEAR (R203). -/
def execSyncDieClear (r : Requester) (mask : Fin 4) (s : State) : Host.Outcome State Fault Refusal :=
  runDev 2 (Dev.ask r fun d => d.writeDieCtl r mask) s

/-- SYNC_DBG_WRITE (R213). -/
def execSyncDbgWrite (r : Requester) (p : Fin 4) (v : Word) (s : State) : Host.Outcome State Fault Refusal :=
  runDev 2 (Dev.ask r fun d => d.writeDbg r p v.toNat) s

/-- REPAIR_WRITE (R214). -/
def execRepairWrite (r : Requester) (id : Fin 65536) (v : Word) (s : State) : Host.Outcome State Fault Refusal :=
  runDev 2 (Dev.ask r fun d => d.writeObject r id v.toNat) s

end Sys2Proof.Machine
end

