-- ==== Sys2Proof/Machine/Barrier.lean ====
section
/-!
DEFINITION. Barriers: local arrivals, the home's counting and deadline, releases, local timeouts, aborts and heat grace (R207 to R212), with the
channel-2 messages of R245 and the switch twist of R249.
-/

namespace Sys2Proof.Machine

namespace Dev

/-- The hidden state of barrier `b`. -/
def bar (d : Dev) (b : Nat) : Barrier := d.sync.bars.get {} b

/-- Put the hidden state of barrier `b`. -/
def setBar (d : Dev) (b : Nat) (x : Barrier) : Dev := { d with sync := { d.sync with bars := d.sync.bars.set b x } }

/-- The counter id of barrier `b` (R198). -/
def barId (b : Nat) : Nat := 61440 + b

/-- The current generation of barrier `b`: VALUE mod 2^16 (R208). -/
def generation (d : Dev) (b : Nat) : Nat := d.objValue (barId b) % 65536

/-- This part is the home of barrier `b` (R207). -/
def isHome (d : Dev) (b : Nat) : Bool := d.get F.SYNC_BAR_HOME b = d.get F.FAB_ID_ID

/-- The twists that barrier `b` allows: TIMEOUT, or GRACE when `grace` (the fields hold one less). -/
def barTwists (d : Dev) (b : Nat) (grace : Bool) : Nat := (if grace then d.get F.SYNC_BAR_GRACE b else d.get F.SYNC_BAR_TIMEOUT b) + 1

/-- The partition number that a barrier's events carry. -/
def barPart (d : Dev) (b : Nat) : Nat := evPart (d.partOfSync (barId b))

/-- The bytes that the barrier messages share (R245): byte 0, the barrier's id and the generation. -/
def barBytes (kind b g : Nat) : List Byte := leBytes 1 kind ++ leBytes 2 (barId b) ++ leBytes 2 g

/-- A barrier release's bytes (R245, R249). -/
def releaseBytes (b g : Nat) (s : Status) (sw : Nat) : List Byte := barBytes 0x22 b g ++ leBytes 1 s.code ++ leBytes 8 sw

/-- Send a barrier message of barrier `b`'s slice; a barrier of no partition has no slice and sends none. -/
def barSend (d : Dev) (b dst : Nat) (l : List Byte) : Dev :=
  match d.partOfSync (barId b) with
  | some p => d.sendMsg p dst l
  | none => d

/-- The local deadline runs with grace: a grace notice is held, or a heat notice has been sent (R212). -/
def hasGrace (d : Dev) (b : Nat) : Bool := (d.bar b).grace || d.isSet F.SYNC_BAR_STAT_HEAT_SENT b

/-- Set the local deadline from the twist in which the local count was complete (R210, R212). -/
def setLocalDue (d : Dev) (b : Nat) : Dev :=
  let x := d.bar b
  d.setBar b { x with localDue := x.localAt.map fun a => a + d.barTwists b (d.hasGrace b) + 2 }

/-- Remember how a generation ended, for the last 256 of them (R209). -/
def remember (d : Dev) (b g : Nat) (s : Status) (sw : Nat) : Dev :=
  let x := d.bar b
  d.setBar b { x with history := ((g, s, sw) :: x.history.filter (·.1 ≠ g)).take 256 }

/-- End the current generation of barrier `b` on this part (R208 step 6, R210, R211): VALUE rises by one, the counts are zeroed, and every
local waiter is released with the status. -/
def endGeneration (d : Dev) (b : Nat) (s : Status) (sw : Nat) : Dev :=
  let id := barId b
  let d := d.put F.SYNC_OBJ_LO_VALUE id ((d.objValue id + 1) % 2 ^ 32)
  let d := d.putAll b [(F.SYNC_BAR_STAT_LOCAL_COUNT, 0), (F.SYNC_BAR_STAT_PARTS_COUNT, 0), (F.SYNC_BAR_STAT_GRACE_ON, 0),
    (F.SYNC_BAR_STAT_HEAT_SENT, 0)]
  let d := d.setBar b { history := (d.bar b).history }
  let d := (d.sync.waiters.filter fun x => x.id = id && x.barrier).foldl (fun (d : Dev) x => d.releaseWaiter x s sw) d
  d.evaluate id

/-- A release reaches this part (R208 step 6, R210): for the current generation it ends it; for one that has ended here it only writes
LAST_STATUS and LAST_GEN. -/
def applyRelease (d : Dev) (b g : Nat) (s : Status) (sw : Nat) : Dev :=
  let last (d : Dev) : Dev := d.putAll b [(F.SYNC_BAR_STAT_LAST_STATUS, s.code), (F.SYNC_BAR_STAT_LAST_GEN, g)]
  if g = d.generation b then (last d).endGeneration b s sw
  else if (d.generation b + 65536 - g) % 65536 < 32768 then last d
  else d

/-- The switch twist that a release of barrier `b` carries when its partition is ARMED on it (R249 step 3); zero otherwise. -/
def releaseTwist (d : Dev) (b : Nat) (s : Status) : Nat :=
  match d.partOfSync (barId b) with
  | some p =>
    if s = .ok ∧ d.get F.FAB_PLAN_STAT_STAGED p = 4 ∧ d.get F.FAB_PLAN_CTL_BAR p = b then
      Nat.max (d.get F.FAB_PLAN_AT_AT p) (d.switchTwist p + 2).toNat
    else 0
  | none => 0

/-- The home releases the current generation of barrier `b` (R208 steps 4 to 6). -/
def homeRelease (d : Dev) (b : Nat) (s : Status) : Dev :=
  let g := d.generation b
  let sw := d.releaseTwist b s
  ((d.remember b g s sw).barSend b 0xFFFF (releaseBytes b g s sw)).applyRelease b g s sw

/-- The home's deadline of the current generation, once its first arrival has come (R208 step 3, R212). -/
def setDeadline (d : Dev) (b : Nat) : Dev :=
  let x := d.bar b
  d.setBar b { x with deadline := x.first.map fun u => u + d.barTwists b (d.isSet F.SYNC_BAR_STAT_GRACE_ON b) }

/-- A barrier message that no rule admits is discarded and logged (R209). -/
def discardBar (d : Dev) (id sender g byte0 : Nat) : Dev :=
  d.raise .barrierMessage (if 61440 ≤ id then evPart (d.partOfSync id) else 7) id (sender + g * 2 ^ 16 + byte0 * 2 ^ 32)

/-- An arrival or a heat notice reaches the home (R208, R209, R212). -/
def homeArrival (d : Dev) (b sender g : Nat) (heat notice : Bool) : Dev :=
  if g ≠ d.generation b then
    match (d.bar b).history.find? (·.1 = g) with
    | some (_, s, sw) =>
      if (d.generation b + 65536 - g) % 65536 ≤ 256 then d.barSend b sender (releaseBytes b g s sw)
      else d.discardBar (barId b) sender g (if notice then 0x21 else 0x20)
    | none => d.discardBar (barId b) sender g (if notice then 0x21 else 0x20)
  else
    let u := d.get F.TWIST_CNT_CNT
    let d := if notice then d else
      let x := d.bar b
      let d := if x.first.isNone then (d.setBar b { x with first := some u }).setDeadline b else d
      d.put F.SYNC_BAR_STAT_PARTS_COUNT b (d.get F.SYNC_BAR_STAT_PARTS_COUNT b + 1)
    let d := if (heat || notice) && !d.isSet F.SYNC_BAR_STAT_GRACE_ON b then
        let d := (d.put F.SYNC_BAR_STAT_GRACE_ON b 1).setDeadline b
        let d := (d.setBar b { d.bar b with grace := true }).setLocalDue b
        d.barSend b 0xFFFF (barBytes 0x23 b g)
      else d
    if !notice && d.get F.SYNC_BAR_STAT_PARTS_COUNT b = d.get F.SYNC_BAR_PARTS_N b then d.homeRelease b .ok else d

/-- Send an arrival or a heat notice of this part to the home, or count it here at the home (R208 step 2, R212). -/
def arriveHome (d : Dev) (b : Nat) (notice : Bool) : Dev :=
  let heat := d.isSet F.HBM_THERM_SUM_HEAT
  let g := d.generation b
  if d.isHome b then d.homeArrival b (d.get F.FAB_ID_ID) g heat notice
  else d.barSend b (d.get F.SYNC_BAR_HOME b) (barBytes (if notice then 0x21 else 0x20) b g ++ leBytes 1 (flag (heat || notice)))

/-- A local arrival at barrier `b` (R208 steps 1 and 2). -/
def localArrival (d : Dev) (b part : Nat) (r : Reply) : Dev :=
  let st := d.objStatus (whoOf part) (barId b)
  if st ≠ .ok then d.replyTo r st 0
  else if !d.isSet F.SYNC_BAR_ENABLE b then d.replyTo r .formatFault 0
  else
    let d := d.addWaiter { id := barId b, barrier := true, eq := false, x := 0, left := none, reply := r }
    let n := d.get F.SYNC_BAR_STAT_LOCAL_COUNT b + 1
    let d := d.put F.SYNC_BAR_STAT_LOCAL_COUNT b n
    if n = d.get F.SYNC_BAR_LOCAL_N b then
      ((d.setBar b { d.bar b with localAt := some (d.get F.TWIST_CNT_CNT) }).setLocalDue b).arriveHome b false
    else d

/-- A channel-2 barrier message for id `id` that R209 discards: the id lies in no partition's barrier blocks, or the barrier is not
enabled. -/
def barRefused (d : Dev) (id : Nat) : Bool :=
  decide (id < 61440) || (d.partOfSync id).isNone || !d.isSet F.SYNC_BAR_ENABLE (id - 61440)

/-- An arrival or heat notice from another part. -/
def arrivalMessage (d : Dev) (sender id g : Nat) (heat notice : Bool) : Dev :=
  if d.barRefused id then d.discardBar id sender g (if notice then 0x21 else 0x20)
  else if d.isHome (id - 61440) then d.homeArrival (id - 61440) sender g heat notice
  else d

/-- A release from another part (R208 steps 5 and 6, R209). -/
def releaseMessage (d : Dev) (sender id g : Nat) (s : Status) (sw : Nat) : Dev :=
  if d.barRefused id then d.discardBar id sender g 0x22 else d.applyRelease (id - 61440) g s sw

/-- A grace notice: for the current generation the part uses GRACE in place of TIMEOUT (R212). -/
def graceMessage (d : Dev) (sender id g : Nat) : Dev :=
  let b := id - 61440
  if d.barRefused id then d.discardBar id sender g 0x23
  else if g = d.generation b then ((d.setBar b { d.bar b with grace := true }).put F.SYNC_BAR_STAT_GRACE_ON b 1).setLocalDue b
  else d

/-- The part ends the current generation by itself (R210, R211); at the home a later arrival is then answered under R209. -/
def endLocally (d : Dev) (b : Nat) (k : EvKind) : Dev :=
  let g := d.generation b
  let d := if d.isHome b then d.remember b g .deadlineMissed 0 else d
  (d.endGeneration b .deadlineMissed 0).raise k (d.barPart b) (barId b) g

/-- Who may write SYNC_BAR_b and SYNC_BAR_CTL_b: the partition that holds the id, and the management processor and the owner port for an id in no
partition (R215). -/
def mayWriteBar (d : Dev) (r : Requester) (b : Nat) : Bool := d.partOfSync (barId b) = partOfReq r

/-- A write of SYNC_BAR_CTL_b (R211). -/
def writeBarCtl (d : Dev) (r : Requester) (b v : Nat) : Dev :=
  if !d.mayWriteBar r b then d.answer .partitionDenied
  else (if v.testBit 0 then d.endLocally b .barrierAborted else d).answer .ok

/-- A write of SYNC_BAR_b (R207): refused while the current generation has an arrival; GRACE must not be below TIMEOUT. -/
def writeBar (d : Dev) (r : Requester) (b v : Nat) : Dev :=
  if !d.mayWriteBar r b then d.answer .partitionDenied
  else if d.get F.SYNC_BAR_STAT_LOCAL_COUNT b ≠ 0 || (d.isHome b && d.get F.SYNC_BAR_STAT_PARTS_COUNT b ≠ 0) then d.answer .writeRefused
  else if bits v 51 6 < bits v 45 6 then d.answer .formatFault
  else (d.setWord .SYNC_BAR b (BitVec.ofNat 64 (v % 2 ^ 57))).answer .ok

/-- The heat notices of a boundary (R212): one per barrier and generation. -/
def heatNotices (d : Dev) : Dev :=
  if !d.isSet F.HBM_THERM_SUM_HEAT then d
  else (List.range 4096).foldl (fun (d : Dev) b =>
    if d.isSet F.SYNC_BAR_ENABLE b && !d.isSet F.SYNC_BAR_STAT_HEAT_SENT b && (d.bar b).localAt.isNone then
      (d.put F.SYNC_BAR_STAT_HEAT_SENT b 1).arriveHome b true
    else d) d

end Dev

/-- An arrival by a Ply engine under the active plan of the barrier's partition (R208 step 1): no reader waits for its answer. Log entry
notes/assumptions/61.md (DESIGN CHOICE): the plan's tables name no barrier, so the row itself says that an engine arrives. -/
def Dev.engineArrival (d : Dev) (b : Nat) : Dev :=
  match d.partOfSync (Dev.barId b) with
  | some p => if d.hasPlan p then d.localArrival b p .none else d
  | none => d

/-- BARRIER_LOCAL_ARRIVAL (R208 step 1): the oldest operation at barrier `b`'s bank, an arrival at it, is applied; with nothing at the bank a Ply engine
arrives. -/
def execBarrierLocalArrival (b : Fin 4096) (s : State) : Host.Outcome State Fault Refusal :=
  runDev 2 (fun d =>
    match d.nextOp (Dev.barId b % 64) with
    | some (.arrive id part r, d') => if id = Dev.barId b then d'.localArrival b part r else d
    | none => d.engineArrival b
    | _ => d) s

/-- An arrival message reaches the home (R208, R209, R245). Log entry notes/assumptions/61.md (DEDUCED). -/
def execBarrierArrival (sender id gen : Fin 65536) (heat : Bool) (s : State) : Host.Outcome State Fault Refusal :=
  runDev 2 (fun d => d.arrivalMessage sender id gen heat false) s

/-- The home's deadline passes before all parts have arrived: it releases with DEADLINE_MISSED (R208 step 4). -/
def execBarrierDeadline (b : Fin 4096) (s : State) : Host.Outcome State Fault Refusal :=
  runDev 2 (fun d =>
    match (d.bar b).deadline with
    | some t => if d.isHome b && decide (t ≤ d.get F.TWIST_CNT_CNT) then d.homeRelease b .deadlineMissed else d
    | none => d) s

/-- A release arrives (R208 steps 5 and 6, R209, R245). -/
def execBarrierRelease (sender id gen : Fin 65536) (status : Fin 256) (sw : Word) (s : State) : Host.Outcome State Fault Refusal :=
  runDev 2 (fun d => d.releaseMessage sender id gen (Status.ofCode status) sw.toNat) s

/-- The local deadline passes without a release: the part ends the generation as an abort does (R210). -/
def execBarrierLocalTimeout (b : Fin 4096) (s : State) : Host.Outcome State Fault Refusal :=
  runDev 2 (fun d =>
    match (d.bar b).localDue with
    | some t => if t ≤ d.get F.TWIST_CNT_CNT then d.endLocally b .barrierTimeout else d
    | none => d) s

/-- BARRIER_ABORT (R211). -/
def execBarrierAbort (r : Requester) (b : Fin 4096) (s : State) : Host.Outcome State Fault Refusal :=
  runDev 2 (Dev.ask r fun d => d.writeBarCtl r b 1) s

/-- A heat notice reaches the home (R212). -/
def execHeatNoticeReceive (sender id gen : Fin 65536) (s : State) : Host.Outcome State Fault Refusal :=
  runDev 2 (fun d => d.arrivalMessage sender id gen true true) s

/-- A grace notice arrives: for the current generation the part uses GRACE in place of TIMEOUT (R212). -/
def execGraceNotice (sender id gen : Fin 65536) (s : State) : Host.Outcome State Fault Refusal :=
  runDev 2 (fun d => d.graceMessage sender id gen) s

/-- SYNC_BAR_WRITE (R207). -/
def execSyncBarWrite (r : Requester) (b : Fin 4096) (v : Word) (s : State) : Host.Outcome State Fault Refusal :=
  runDev 2 (Dev.ask r fun d => d.writeBar r b v.toNat) s

end Sys2Proof.Machine
end

