-- ==== Sys2Proof/Machine/Bond.lean ====
section
/-!
DEFINITION. The bond: flits, replay and credits (R28 to R30), network messages (R31, R32), capability blocks (R33 to R37), training and width beacons
(R38 to R41), margining (R42) and the port registers (R43); with the loss of a compute die (R44 to R47).
-/

namespace Sys2Proof.Machine

/-- A direction of a bond port (R27): `up` runs from the compute die to the base die. -/
def portDir (p : BondPort) (up : Bool) : BondDir := if up then p.up else p.down

/-- Change a direction of a bond port. -/
def modDir (p : BondPort) (up : Bool) (f : BondDir → BondDir) : BondPort := if up then { p with up := f p.up } else { p with down := f p.down }

/-- A direction of a port that has just become ACTIVE: 64 credits per virtual network (R30). -/
def freshDir : BondDir := { credits := ⟨[(0, 64), (1, 64)]⟩ }

/-- The capability block of the base die of KVGT1-512 (R35), with the CRC of R33. -/
def baseCap : List Nat :=
  let l : List Nat := [0x0B104B5600011001, 0x0004401001200200, 0x7F]
  l ++ [crc32 (l.flatMap (leBytes 8))]

/-- The capability block of CD0 and of CD1 of KVGT1-512 (R35), with the CRC of R33. -/
def computeCap : List Nat :=
  let l : List Nat := [0x0C104B5600021001, 0x0004401001200200, 0x3F]
  l ++ [crc32 (l.flatMap (leBytes 8))]

/-- A network message (R31): its header's fields and its payload. Log entry notes/assumptions/31.md (DEDUCED). -/
structure NetMsg where
  addr : Nat
  op : Nat
  len : Nat
  src : Nat
  part : Nat
  tag : Nat
  sync : Nat
  status : Nat
  sig : Bool
  payload : List Byte
  deriving DecidableEq, Repr

/-- Read a message's flits (R31). -/
def NetMsg.of (l : List (List Nat)) : NetMsg :=
  let h (i : Nat) : Nat := ((l.headD [])[i]?).getD 0
  { addr := h 0 + bits (h 1) 0 16 * 2 ^ 32, op := bits (h 1) 16 8, len := bits (h 1) 24 8, src := bits (h 2) 0 12, part := bits (h 2) 12 2
    tag := bits (h 2) 16 16, sync := bits (h 3) 0 16, status := bits (h 3) 16 8, sig := (h 3).testBit 24
    payload := (((l.headD []).drop 4) ++ (l.drop 1).flatten).flatMap (leBytes 4) }

/-- The flits of a message (R31). -/
def NetMsg.flits (m : NetMsg) : List (List Nat) :=
  let ws := (List.range (12 + 16 * m.len)).map fun i => leNat ((m.payload.drop (4 * i)).take 4)
  let head := [bits m.addr 0 32, bits m.addr 32 16 + m.op * 2 ^ 16 + m.len * 2 ^ 24, m.src + m.part * 2 ^ 12 + m.tag * 2 ^ 16,
    m.sync + m.status * 2 ^ 16 + flag m.sig * 2 ^ 24]
  (head ++ ws.take 12) :: (List.range m.len).map fun i => (ws.drop (12 + 16 * i)).take 16

/-- How many flits the message takes whose first flit heads the list (R31). -/
def messageLen (l : List (List Nat)) : Nat := bits (((l.headD [])[1]?).getD 0) 24 8 + 1

/-- The first whole message of a list of flits, and the flits behind it (R31). -/
def wholeMessage (l : List (List Nat)) : Option (NetMsg × List (List Nat)) :=
  if l.length < messageLen l then none else some (NetMsg.of (l.take (messageLen l)), l.drop (messageLen l))

/-- The whole messages at the front of a list of flits; a message that is cut is dropped (R47). -/
def wholeFlits : Nat → List (List Nat) → List (List Nat)
  | 0, _ => []
  | k + 1, l =>
    match wholeMessage l with
    | some (_, rest) => l.take (l.length - rest.length) ++ wholeFlits k rest
    | none => []

/-- The flits that a virtual network of a direction has received and not performed: those that have left its buffers, then those in them. -/
def BondDir.received (x : BondDir) (vn : Nat) : List (List Nat) := x.taken.get [] vn ++ x.parts.get [] vn

/-- What stays of a direction of a port that leaves ACTIVE: the messages that it has received whole (R40, R47). -/
def BondDir.quit (x : BondDir) : BondDir :=
  { taken := ⟨[0, 1].map fun vn => (vn, wholeFlits (x.received vn).length (x.received vn))⟩ }

namespace Dev

def bport (d : Dev) (n : Nat) : BondPort := d.ports.get {} n

def setBport (d : Dev) (n : Nat) (x : BondPort) : Dev := { d with ports := d.ports.set n x }

def modBport (d : Dev) (n : Nat) (f : BondPort → BondPort) : Dev := d.setBport n (f (d.bport n))

/-- The state of a port: 0 DOWN, 1 CLOCK, 2 LANE_TEST, 3 CAP, 4 MAP, 5 BEACON, 6 ACTIVE, 7 ISOLATED (R43). -/
def bondState (d : Dev) (n : Nat) : Nat := d.get F.LBI_PORT_STAT_STATE n

/-- Count the ACTIVE ports of a die. -/
def countActive (d : Dev) (die : Nat) : Dev :=
  d.put F.LBI_DIE_STAT_PORTS_ACTIVE die ((List.range 64).filter fun i => d.bondState (64 * die + i) = 6).length

/-- Put a port into a state. -/
def setBond (d : Dev) (n st : Nat) : Dev := (d.put F.LBI_PORT_STAT_STATE n st).countActive (n / 64)

/-- A port leaves ACTIVE: its flits are dropped but for whole messages received, and a margin run on it ends with ISOLATED (R40, R42, R47). -/
def quitActive (d : Dev) (n : Nat) : Dev :=
  let d := d.modBport n fun x => { x with up := x.up.quit, down := x.down.quit }
  if d.bondState n = 6 && d.isSet F.LBI_MRG_CTL_BUSY && d.bondRun.1 = n then
    (d.putAll 0 [(F.LBI_MRG_CTL_BUSY, 0), (F.LBI_MRG_CTL_DONE, 1), (F.LBI_MRG_CTL_STATUS, Status.isolated.code)]).marginDone .bond
  else d

/-! ### Flits at their sender -/

/-- Send the flits that wait at a direction's sender while credits and the replay buffer of 64 flits admit them; each virtual network in order, the older
head first (R29, R30). `fuel` counts the waiting flits. -/
def flushBond (n : Nat) (up : Bool) : Nat → Dev → Dev
  | 0, d => d
  | fuel + 1, d =>
    let x := portDir (d.bport n) up
    match if x.unacked.length < 64 then x.waiting.find? (fun f => x.credits.get 0 f.vn ≠ 0) else none with
    | none => d
    | some f =>
      let d := d.modBport n fun p => modDir p up fun x =>
        { x with unacked := x.unacked ++ [(x.next, f)], next := x.next + 1, credits := x.credits.set f.vn (x.credits.get 0 f.vn - 1), waiting := x.waiting.erase f }
      flushBond n up fuel (d.send .bondFlit n ([flag up, x.next, f.vn] ++ f.words))

/-- Send as many of the waiting flits of a direction as may leave (R30). -/
def pumpBond (d : Dev) (n : Nat) (up : Bool) : Dev := flushBond n up (portDir (d.bport n) up).waiting.length d

/-- Flits queue at a direction's sender. -/
def queueFlits (d : Dev) (n : Nat) (up : Bool) (l : List Flit) : Dev :=
  (d.modBport n fun p => modDir p up fun x => { x with waiting := x.waiting ++ l }).pumpBond n up

/-- The port that carries a message which port `n` would carry: `n` while it is ACTIVE, else another ACTIVE port of its die (R40); the lowest. Log entry
notes/assumptions/30.md (DESIGN CHOICE). -/
def carrier (d : Dev) (n : Nat) : Option Nat :=
  if d.bondState n = 6 then some n else ((List.range 64).map (64 * (n / 64) + ·)).find? fun i => d.bondState i = 6

/-- The transfer with a TAG completes at its requester over the bond (R31). -/
def completeTag (d : Dev) (tag : Nat) (s : Status) (data : List Nat := []) : Dev := { d with reply := (s, tag :: data) }

/-- A message's flits queue at a direction's sender (R31). Nothing passes a closed wrapper (R46, R47); a die with no ACTIVE port takes nothing, and the
transfer completes with ISOLATED (R40). -/
def postMessage (d : Dev) (n : Nat) (up : Bool) (vn : Nat) (m : NetMsg) : Dev :=
  if d.isSet F.LBI_DIE_STAT_WRAP_CLOSED (n / 64) then d
  else match d.carrier n with
    | some i => d.queueFlits i up (m.flits.zipIdx.map fun f => ⟨vn, m.tag, f.2 = 0, f.1⟩)
    | none => d.completeTag m.tag .isolated

/-! ### Transfers that a port or a die takes with it -/

/-- The transfers whose flits a direction's sender still holds, by TAG, but for messages that wait whole (R40). -/
def cutTags (x : BondDir) : List Nat :=
  (x.unacked.map (·.2.tag) ++ ([0, 1].flatMap fun vn => ((x.waiting.filter (·.vn = vn)).takeWhile (!·.head)).map (·.tag))).eraseDups

/-- An XILD that runs stops at a word that no rule names: that one and the later ones are left with an error (R138). -/
def cutXild (c : Nat) (d : Dev) (x : Dma) : Dev :=
  match x.load with
  | none => d
  | some (start, n, _) =>
    let (m, d) := d.free 13
    d.spoilWords c (start + m % n) (n - m % n)

/-- A LOAD of core `c` under way stops before its first word, since it reads them as it completes (R138, R151). Log entry notes/assumptions/34.md (DEDUCED). -/
def cutLoad (d : Dev) (c : Nat) (s : Status) : Dev :=
  let k := d.core c
  (d.setCore c { k with run := k.beforeLoad, loadStatus := s }).spoilWords c 0 k.loadFrom.2

/-- A LOAD of core `c` is under way from an address that satisfies `p`. -/
def loadingFrom (d : Dev) (c : Nat) (p : Nat → Bool) : Bool :=
  let k := d.core c
  k.run = .loading && (p k.loadFrom.1 || p (k.loadFrom.1 + 8 * k.loadFrom.2 - 1))

/-- Accesses and transfers of core `c` on their way end with a status (R40, R45, R123): scalar accesses halt the core, descriptors take the status. Log entry
notes/assumptions/34.md (DEDUCED). -/
def failAccesses (d : Dev) (c : Nat) (sq : Remote → Bool) (xq : Dma → Bool) (s : Status) : Dev :=
  let k := d.core c
  let gone := k.sq.filter sq
  let ends (x : Dma) : Bool := x.running && !x.sent && x.status = .ok && xq x
  let d := d.setCore c { k with
    sq := k.sq.filter fun r => !sq r
    xq := k.xq.map fun x => if ends x then { x with status := s } else x
    pending := k.pending.filter fun r => !gone.any fun x => x.load && x.reg = r }
  let d := (k.xq.filter ends).foldl (cutXild c) d
  match gone with
  | r :: _ => (d.modCore c fun k => if k.run = .run ∨ k.run = .wait then { k.stop 3 s with pc := r.pc } else k).pump c
  | [] => d

/-- What an operation on its way to a bank answers to. -/
def opReply : SyncOp → Reply
  | .signal _ _ _ _ _ _ r => r
  | .wait _ _ _ _ _ r => r
  | .arrive _ _ r => r

/-- A port of `die` leaves ACTIVE: of what core `c` has on its way over the die's bonds (R80), a LOAD included, the part with unacknowledged flits on the port ends
with ISOLATED (R40, R138). No rule says which port carries what: the part is a free value. Log entry notes/assumptions/30.md (DESIGN CHOICE). -/
def portLosesCore (die : Nat) (d : Dev) (c : Nat) : Dev :=
  let k := d.core c
  if k.sq.isEmpty && k.xq.isEmpty && k.yq.isEmpty && k.tq.isEmpty && k.run ≠ .loading then d
  else
    let (m, d) := d.free (k.seq + 1)
    let d := d.failAccesses c (fun r => (bondsOf (some c) r.addr).contains die && m.testBit r.seq) (fun x => x.bonds.contains die && m.testBit x.seq) .isolated
    let d := if m.testBit k.seq && d.loadingFrom c (fun a => (bondsOf (some c) a).contains die) then d.cutLoad c .isolated else d
    if c / 512 ≠ die then d
    else
      let d := (k.tq.filter fun h => m.testBit h.seq).foldl (fun (d : Dev) h => (d.modCore c (·.record 3 .isolated)).handDone c h .isolated) d
      (d.sync.arrivals.filter fun o => match opReply o with
        | .core c' _ seq => c' = c && m.testBit seq
        | .dma c' seq => c' = c && m.testBit seq
        | _ => false).foldl (fun (d : Dev) o =>
          { d with sync := { d.sync with arrivals := d.sync.arrivals.erase o } }.replyTo (opReply o) .isolated 0) d

/-- Port `n` leaves ACTIVE while its die stays: transfers with flits unacknowledged complete with ISOLATED, and messages that wait whole take another ACTIVE
port (R40). -/
def losePort (d : Dev) (n : Nat) : Dev :=
  if d.bondState n ≠ 6 then d
  else
    let x := d.bport n
    let tags := cutTags x.up ++ cutTags x.down
    let move (up : Bool) (x : BondDir) (d : Dev) : Dev :=
      let l := x.waiting.filter fun f => !(cutTags x).contains f.tag
      if l.isEmpty then d
      else match d.carrier n with
        | some i => d.queueFlits i up l
        | none => ((l.map (·.tag)).eraseDups).foldl (fun (d : Dev) t => d.completeTag t .isolated) d
    let d := (d.quitActive n).put F.LBI_PORT_STAT_STATE n 0
    let d := tags.foldl (fun (d : Dev) t => d.completeTag t .isolated) d
    let d := move false x.down (move true x.up d)
    ((d.cores.entries.map (·.1)).filter (· < 1024)).foldl (portLosesCore (n / 64)) d

/-- A port goes down with a reason (R38 to R41). A failed training attempt counts; the sixteenth in a row raises an event. -/
def bondDown (d : Dev) (n reason : Nat) : Dev :=
  let training := decide (1 ≤ d.bondState n ∧ d.bondState n ≤ 5)
  let d := ((d.losePort n).setBond n 0).put F.LBI_PORT_STAT_REASON n reason
  let d := d.modBport n fun x => { x with locked := x.locked || decide (reason = 4) }
  if training && reason ≠ 8 then
    let d := d.modBport n fun x => { x with failures := x.failures + 1 }
    if (d.bport n).failures = 16 then d.raise .bondPortFailing 7 0x800 (n + reason * 2 ^ 7) else d
  else d

/-- The die is alive, its domain is released, and the port is not held down by CAP_MISMATCH (R36, R38, R48, R379). -/
def canTrain (d : Dev) (n : Nat) : Bool :=
  d.isSet F.LBI_DIE_STAT_ALIVE (n / 64) && d.released (5 + n / 64) && !(d.bport n).locked

/-- The port may train: it is down as well and not disabled (R41). -/
def mayTrain (d : Dev) (n : Nat) : Bool :=
  d.canTrain n && (d.bondState n = 0 || d.bondState n = 7) && !d.isSet F.LBI_PORT_CTL_DISABLE n

/-- Step 1 of an attempt: a new SEQ, and both sides start their clocks (R38, R39). -/
def startTraining (d : Dev) (n : Nat) : Dev :=
  let x := d.bport n
  let seq := (x.seq + 1) % 256
  let d := d.setBport n { x with seq, agreed := none, capRetries := 0, failedUp := [], failedDown := [], mapUp := none, mapDown := none, beacons := 0 }
  ((d.putAll n [(F.LBI_PORT_STAT_SEQ, seq), (F.LBI_PORT_STAT_CLK_ALT, 0)]).setBond n 1).count .LBI_RETRAIN n

end Dev

/-- BOND_TRAINING_START (R38, R41). Log entry notes/assumptions/30.md (DEDUCED). -/
def execBondTrainingStart (n : Fin 128) (s : State) : Host.Outcome State Fault Refusal :=
  runDev 2 (fun d => if d.mayTrain n && decide ((d.bport n).failures < 16) then d.startTraining n else d) s

/-- RETRAIN_RETRY_TIMER (R41): after 16 failed attempts, one attempt every 10 ms. -/
def execRetrainRetryTimer (n : Fin 128) (s : State) : Host.Outcome State Fault Refusal :=
  runDev 2 (fun d => if d.mayTrain n && decide (16 ≤ (d.bport n).failures) then d.startTraining n else d) s

/-- CLOCK_STEP_END (R38 step 1): the groups whose active clock has not locked take the standby; a group with neither takes the port down. -/
def execClockStepEnd (n : Fin 128) (active standby : BitVec 4) (s : State) : Host.Outcome State Fault Refusal :=
  runDev 2 (fun d =>
    if d.bondState n ≠ 1 then d
    else if active &&& standby ≠ 0 then d.bondDown n 1
    else (d.put F.LBI_PORT_STAT_CLK_ALT n active.toNat).setBond n 2) s

/-- LANE_TEST_END (R38 step 2): the failed lanes of each direction, as group and lane; then the base die sends its capability block, and the compute die
of KVGT1-512 the one of R35 (to port `n` from the die: 128 + n). -/
def execLaneTestEnd (n : Fin 128) (up down : List (Fin 4 × Fin 165)) (s : State) : Host.Outcome State Fault Refusal :=
  runDev 2 (fun d =>
    if d.bondState n ≠ 2 then d
    else
      let f (l : List (Fin 4 × Fin 165)) : List (Nat × Nat) := l.map fun x => (x.1.val, x.2.val)
      (((d.modBport n fun x => { x with failedUp := f up, failedDown := f down }).setBond n 3).send .bondCap n baseCap).send .bondCap (128 + n) computeCap) s

/-! ### Capability blocks -/

/-- A field of a capability block. -/
def capField (l : List Nat) (w lo n : Nat) : Nat := bits ((l[w]?).getD 0) lo n

/-- The CRC of a block is that of its words 0 to 2 (R33). -/
def capCrcOk (l : List Nat) : Bool := capField l 3 0 32 = crc32 ((l.take 3).flatMap (leBytes 8))

/-- What a port settles from the base die's block and another (R36), if every check passes. -/
def settleCap (l : List Nat) : Option Agreement :=
  let same (w lo n : Nat) : Bool := capField l w lo n = capField baseCap w lo n
  let feat := Nat.land (capField l 2 0 64) (capField baseCap 2 0 64)
  if capField l 0 0 8 = 1 && capField l 0 16 8 = 2 && same 0 12 4 && same 1 36 4 && same 1 0 16 && same 1 16 8 && same 1 40 8 && same 1 48 8 &&
      (Nat.land (capField l 1 24 8) (capField baseCap 1 24 8)).testBit 0 && bits feat 0 5 = 31 then
    some { lbi := capField baseCap 0 12 4 * 16 + Nat.min (capField l 0 8 4) (capField baseCap 0 8 4)
           net := capField baseCap 1 36 4 * 16 + Nat.min (capField l 1 32 4) (capField baseCap 1 32 4)
           feat, width := 512 }
  else none

/-- Ports of a die that differ from port 0 stay down (R37). -/
def Dev.dropDiffering (d : Dev) (die : Nat) : Dev :=
  let a := (d.bport (64 * die)).agreed
  (List.range 64).foldl (fun (d : Dev) i =>
    let b := (d.bport (64 * die + i)).agreed
    if a.isSome && b.isSome && decide (b ≠ a) then d.bondDown (64 * die + i) 4 else d) d

/-- CAPABILITY_BLOCK (R36, R37): the compute die's block of four words arrives. The repair map of the up direction goes to its sender as pairs of group and failed
lane, one byte each. Log entry notes/assumptions/30.md (DESIGN CHOICE: R38 gives a map no form). -/
def execCapabilityBlock (n : Fin 128) (w0 w1 w2 w3 : Word) (s : State) : Host.Outcome State Fault Refusal :=
  runDev 2 (fun d =>
    let l := [w0, w1, w2, w3].map (·.toNat)
    let die := n.val / 64
    if d.bondState n ≠ 3 then d
    else if !capCrcOk l then
      if 4 ≤ (d.bport n).capRetries then d.bondDown n 3
      else (d.modBport n fun x => { x with capRetries := x.capRetries + 1 }).send .bondCap n baseCap
    else
      let d := l.zipIdx.foldl (fun (d : Dev) x => d.setWord .LBI_CAP (4 + 4 * die + x.2) (BitVec.ofNat 64 x.1)) d
      match settleCap l with
      | none => d.bondDown n 4
      | some a =>
        let d := d.modBport n fun x => { x with agreed := some a }
        let lanes (l : List (Nat × Nat)) : List Nat := l.flatMap fun x => [x.1, x.2]
        ((d.setBond n 4).dropDiffering die).send .bondMap n (lanes (d.bport n).failedUp)) s

/-! ### Repair maps and beacons -/

/-- The failed lanes of one group. -/
def groupFailed (l : List (Nat × Nat)) (g : Nat) : List Nat := (l.filter (·.1 = g)).map (·.2)

/-- Spare lanes that a direction uses: one for each failed lane that is no spare (R38). -/
def sparesUsed (l : List (Nat × Nat)) : Nat := (l.filter fun x => x.2 < 156 || x.2 = 164).length

/-- The width beacon of the base die for a port (R39). MAPSUM covers the bytes of the two maps as they came on the sideband (DESIGN CHOICE: R39 gives a map no form).
Log entry notes/assumptions/30.md (DESIGN CHOICE). -/
def Dev.widthBeacon (d : Dev) (n : Nat) : Nat :=
  let x := d.bport n
  let a := x.agreed.getD ⟨0, 0, 0, 0⟩
  let map := (x.mapUp.getD [] ++ x.mapDown.getD []).map (BitVec.ofNat 8)
  2 * a.width + x.seq * 2 ^ 16 + a.lbi * 2 ^ 24 + a.net * 2 ^ 32 + a.feat % 256 * 2 ^ 40 + crc16 map * 2 ^ 48

/-- REPAIR_MAP (R38 step 4): the map of a direction reaches its sender. With more than 8 failed lanes in a group the port stays down without spares
(R26); with both maps exchanged the beacon step begins. -/
def execRepairMap (n : Fin 128) (up : Bool) (map : List Byte) (s : State) : Host.Outcome State Fault Refusal :=
  runDev 2 (fun d =>
    if d.bondState n ≠ 4 then d
    else
      let x := d.bport n
      let failed := if up then x.failedUp else x.failedDown
      if (List.range 4).any fun g => 8 < (groupFailed failed g).length then (d.bondDown n 2).raise .spareExhausted 7 0x800 (1 + 256 * n)
      else
        let m := some (map.map (·.toNat))
        let d := d.setBport n (if up then { x with mapUp := m } else { x with mapDown := m })
        let d := d.put (if up then F.LBI_PORT_STAT_SPARES_UP else F.LBI_PORT_STAT_SPARES_DOWN) n (sparesUsed failed)
        let x := d.bport n
        if x.mapUp.isSome && x.mapDown.isSome then
          let d := d.setBond n 5
          (List.range 3).foldl (fun (d : Dev) _ => d.send .bondBeacon n [d.widthBeacon n]) d
        else d) s

/-- WIDTH_BEACON (R39, R40): a beacon of the compute die. In step 5 the third that agrees brings the port to ACTIVE; one that differs takes it down. -/
def execWidthBeacon (n : Fin 128) (v : Word) (s : State) : Host.Outcome State Fault Refusal :=
  runDev 2 (fun d =>
    let st := d.bondState n
    if st ≠ 5 ∧ st ≠ 6 then d
    else if v.toNat ≠ d.widthBeacon n then d.bondDown n 5
    else if st = 6 then d
    else
      let d := d.modBport n fun x => { x with beacons := x.beacons + 1 }
      if (d.bport n).beacons < 3 then d
      else (d.modBport n fun x => { x with failures := 0, up := { freshDir with taken := x.up.taken }, down := { freshDir with taken := x.down.taken } }).setBond n 6) s

/-- WIDTH_BEACON_SEND (R40). -/
def execWidthBeaconSend (n : Fin 128) (s : State) : Host.Outcome State Fault Refusal :=
  runDev 2 (fun d => if d.bondState n = 6 then d.send .bondBeacon n [d.widthBeacon n] else d) s

/-! ### Flits -/

namespace Dev

/-- A NAK of a flit: three in a row take the port down with REPLAY_LIMIT (R29). Log entry notes/assumptions/30.md (DEDUCED). -/
def bondNak (d : Dev) (n : Nat) (up : Bool) (num : Nat) : Dev × Bool :=
  let x := portDir (d.bport n) up
  let run := if x.lastNak = some num then x.nakRun + 1 else 1
  let d := d.modBport n fun p => modDir p up fun x => { x with lastNak := some num, nakRun := run }
  if run = 3 then (d.bondDown n 6, true) else (d, false)

end Dev

/-- FLIT_RECEIVE (R29): a flit with its number, its virtual network, its sixteen words as corrected, how many words were corrected and whether a word
has a double-bit error. A flit for which no buffer is free was sent without a credit and is not taken (R30; notes/assumptions/30.md); one that meets closed
wrappers goes no further (R47). -/
def execFlitReceive (n : Fin 128) (up : Bool) (num : Nat) (vn : Fin 2) (words : List (BitVec 32)) (corrected : Nat) (bad : Bool) (s : State) :
    Host.Outcome State Fault Refusal :=
  runDev 2 (fun d =>
    let x := portDir (d.bport n) up
    let closed := d.isSet F.LBI_DIE_STAT_WRAP_CLOSED (n.val / 64)
    if d.bondState n ≠ 6 || num ≠ x.rxNext || decide (64 ≤ (x.parts.get [] vn).length) then d
    else if bad then
      let d := d.modBport n fun p => modDir p up fun x => { x with discarding := true }
      let (d, down) := if up then d.bondNak n up num else (d, false)
      if down then d else d.send .bondNak n [flag up, num]
    else
      let d := d.modBport n fun p => modDir p up fun x =>
        { x with rxNext := x.rxNext + 1, discarding := false, corrected := x.corrected + corrected
                 lastNak := if up then none else x.lastNak
                 parts := if closed then x.parts else x.parts.set vn (x.parts.get [] vn ++ [words.map (·.toNat)]) }
      d.send .bondAck n [flag up, num]) s

/-- BOND_NAK_RECEIVE (R29): the sender replays its unacknowledged flits in order from the named one. -/
def execBondNakReceive (n : Fin 128) (up : Bool) (num : Nat) (s : State) : Host.Outcome State Fault Refusal :=
  runDev 2 (fun d =>
    let l := (portDir (d.bport n) up).unacked
    if d.bondState n ≠ 6 || !l.any (·.1 = num) then d
    else
      let (d, down) := if up then (d, false) else d.bondNak n up num
      if down then d
      else
        ((l.dropWhile (·.1 ≠ num)).foldl (fun (d : Dev) x => d.send .bondFlit n ([flag up, x.1, x.2.vn] ++ x.2.words)) d).count .LBI_REPLAY n) s

/-- BOND_ACKNOWLEDGEMENT (R29): the flits up to the named one leave the replay buffer. -/
def execBondAcknowledgement (n : Fin 128) (up : Bool) (num : Nat) (s : State) : Host.Outcome State Fault Refusal :=
  runDev 2 (fun d =>
    if d.bondState n ≠ 6 then d
    else
      (d.modBport n fun p => modDir p up fun x =>
        { x with unacked := x.unacked.filter (num < ·.1), lastNak := if up then x.lastNak else none }).pumpBond n up) s

/-- BOND_CREDIT_RETURN (R30): the receiver returns credits; it holds 64 flits per virtual network. -/
def execBondCreditReturn (n : Fin 128) (up : Bool) (vn : Fin 2) (k : Fin 65) (s : State) : Host.Outcome State Fault Refusal :=
  runDev 2 (fun d =>
    if d.bondState n ≠ 6 then d
    else
      (d.modBport n fun p => modDir p up fun x => { x with credits := x.credits.set vn (Nat.min 64 (x.credits.get 0 vn + k)) }).pumpBond n up) s

/-! ### Network messages -/

/-- A message is answered by the response `op` (R31): with its ADDR, SRC, PART, TAG and SYNC. -/
def Dev.answerMessage (d : Dev) (n : Nat) (up : Bool) (m : NetMsg) (op st : Nat) (payload : List Byte) (len : Nat) : Dev :=
  d.postMessage n (!up) 1 { m with op, status := st, payload, len, sig := false }

/-- A message is performed at its target (R31, R32): a read returns as many bytes as the message carries, a write is followed by its signal, a signal or
wait takes its value from the payload's first word. Responses complete the request with their TAG and carry the request's ADDR, SRC, PART and SYNC; a signal and a
wait get none; a signal with SIG 0 does nothing, a wait uses SYNC whatever SIG is. Log entry notes/assumptions/31.md (DESIGN CHOICE). -/
def Work.performMessage (w : Work) (n : Nat) (up : Bool) (m : NetMsg) : Work :=
  let who := some m.part
  let answer (op st : Nat) (payload : List Byte) (len : Nat) (w : Work) : Work := w.on (·.answerMessage n up m op st payload len)
  let post (x : Nat) (op : SyncOp) (w : Work) : Work := w.on fun d => if x < 65536 then d.postSignal op else d
  let x := leNat (m.payload.take 4)
  match m.op with
  | 1 =>
    match w.load who m.src m.addr m.payload.length with
    | (w, .ok, _, bs) => answer 3 0 bs m.len w
    | (w, st, _, _) => answer 3 st.code [] 0 w
  | 2 =>
    let (w, st, _) := w.store who m.src m.addr m.payload
    let w := answer 4 st.code [] 0 w
    if m.sig && st = .ok then post m.sync (.signal m.sync 1 m.part m.src 0xF w.dev.fabId .none) w else w
  | 3 | 4 => w.on fun d => d.completeTag m.tag (Status.ofCode m.status) (m.payload.map (·.toNat))
  | 5 => if m.sig then post m.sync (.signal m.sync x m.part m.src 0xF w.dev.fabId .none) w else w
  | 6 => post m.sync (.wait m.sync x false m.part none .none) w
  | _ => w

/-- Flits leave the buffers of a virtual network: `rest` of those received stays, and an ACTIVE port returns a credit for each buffer freed (R30). A message
longer than the buffers leaves them as it comes. -/
def Dev.takeFlits (d : Dev) (n : Nat) (up : Bool) (vn : Nat) (taken parts : List (List Nat)) : Dev :=
  let k := ((portDir (d.bport n) up).parts.get [] vn).length - parts.length
  let d := d.modBport n fun p => modDir p up fun x => { x with taken := x.taken.set vn taken, parts := x.parts.set vn parts }
  if d.bondState n = 6 ∧ k ≠ 0 then d.send .bondCredit n [flag up, vn, k] else d

/-- NETWORK_MESSAGE (R30, R31, R32): the oldest whole message that a virtual network of a port has received is performed, and its flit buffers are freed; one
that is not whole leaves its buffers so far. A message whose last flit passed the wrapper before its die was lost is performed too, and its response discarded
(R47); one that reads or writes a channel under a margin run waits (R176). Log entry notes/assumptions/31.md (DEDUCED). -/
def execNetworkMessage (n : Fin 128) (up : Bool) (vn : Fin 2) (s : State) : Host.Outcome State Fault Refusal :=
  runWork 2 (fun w =>
    let x := portDir (w.dev.bport n) up
    let l := x.received vn
    match wholeMessage l with
    | none => w.on (·.takeFlits n up vn l [])
    | some (m, _) =>
      let k := messageLen l
      if m.op = 2 && w.dev.margined (some m.part) m.addr m.payload.length then w else
      (w.on (·.takeFlits n up vn ((x.taken.get [] vn).drop k) ((x.parts.get [] vn).drop (k - (x.taken.get [] vn).length)))).performMessage n up m) s

/-! ### Port commands and margin runs -/

/-- A write of LBI_PORT_CTL_n (R41, R43): DISABLE is bit 0, RETRAIN bit 1. A port that its die's loss has isolated shows STATE 7 as long as the die is not
alive, whatever is written. Log entry notes/assumptions/30.md (DESIGN CHOICE). -/
def Dev.writePortCtl (d : Dev) (r : Requester) (n v : Nat) : Dev :=
  if !Dev.whole r then d.answer .partitionDenied
  else
    (if d.bondState n = 7 && !d.isSet F.LBI_DIE_STAT_ALIVE (n / 64) then d.put F.LBI_PORT_CTL_DISABLE n (bits v 0 1)
    else if v.testBit 0 then (d.bondDown n 8).put F.LBI_PORT_CTL_DISABLE n 1
    else if v.testBit 1 && !(d.bport n).locked then
      let d' := ((d.losePort n).setBond n 0).put F.LBI_PORT_CTL_DISABLE n 0
      if d.canTrain n then d'.startTraining n else d'
    else d.put F.LBI_PORT_CTL_DISABLE n 0).answer .ok

/-- LBI_PORT_DISABLE (R41). -/
def execLbiPortDisable (r : Requester) (n : Fin 128) (s : State) : Host.Outcome State Fault Refusal :=
  runDev 2 (Dev.ask r fun d => d.writePortCtl r n 1) s

/-- LBI_PORT_RETRAIN (R38, R43). -/
def execLbiPortRetrain (r : Requester) (n : Fin 128) (s : State) : Host.Outcome State Fault Refusal :=
  runDev 2 (Dev.ask r fun d => d.writePortCtl r n 2) s

/-- A write of LBI_MRG_CTL (R42, R43). -/
def Dev.writeBondMrg (d : Dev) (r : Requester) (v : Nat) : Dev :=
  let n := bits v 0 7
  let dwell := bits v 12 8
  let start := v.testBit 9
  let agreed := match (d.bport n).agreed with
    | some a => a.feat.testBit 5
    | none => false
  if !Dev.whole r then d.answer .partitionDenied
  else if start && d.bondState n ≠ 6 then d.answer .isolated
  else if start && (d.isSet F.LBI_MRG_CTL_BUSY || dwell = 0 || !agreed) then d.answer .formatFault
  else
    let d := d.putAll 0 [(F.LBI_MRG_CTL_PORT, n), (F.LBI_MRG_CTL_DIR, bits v 7 1), (F.LBI_MRG_CTL_AXIS, bits v 8 1), (F.LBI_MRG_CTL_DWELL, dwell)]
    (if start then { d with bondRun := (n, bits v 7 1, bits v 8 1) }.putAll 0 [(F.LBI_MRG_CTL_BUSY, 1), (F.LBI_MRG_CTL_DONE, 0)] else d).answer .ok

/-- LBI_MARGIN_START (R42): START with the written PORT, DIR, AXIS and DWELL. -/
def execLbiMarginStart (r : Requester) (v : Word) (s : State) : Host.Outcome State Fault Refusal :=
  runDev 2 (Dev.ask r fun d => d.writeBondMrg r (Nat.lor v.toNat 512)) s

/-- A lane of a direction carries data or check bits after repair (R42): it has not failed, or it is a good spare that replaces such a lane. The good spares
replace the failed lanes of the group in ascending order, the sideband lane last. Log entry notes/assumptions/30.md (DESIGN CHOICE). -/
def laneInUse (failed : List Nat) (l : Nat) : Bool :=
  let need := (failed.filter (· < 156)).length
  if l < 156 then !failed.contains l
  else !failed.contains l && decide (((List.range (l - 156)).filter fun j => !failed.contains (156 + j)).length < need)

/-- A bond margin run ends with the steps to the edges of each of its 656 lanes (R42). -/
def Dev.endBondMargin (d : Dev) (edges : List (Fin 32 × Fin 32)) : Dev :=
  if !d.isSet F.LBI_MRG_CTL_BUSY then d
  else
    let (n, dir, axis) := d.bondRun
    let x := d.bport n
    let failed := if dir = 1 then x.failedDown else x.failedUp
    let limit := if axis = 1 then 10 else 12
    let d := (List.range 656).foldl (fun (d : Dev) k =>
      let (low, high) : Fin 32 × Fin 32 := (edges[k]?).getD (0, 0)
      d.putAll k [(F.LBI_MRG_RES_LOW, low), (F.LBI_MRG_RES_HIGH, high),
        (F.LBI_MRG_RES_PASS, flag (decide (limit ≤ low.val) && decide (limit ≤ high.val))),
        (F.LBI_MRG_RES_IN_USE, flag (laneInUse (groupFailed failed (k / 164)) (k % 164)))]) d
    (d.putAll 0 [(F.LBI_MRG_CTL_BUSY, 0), (F.LBI_MRG_CTL_DONE, 1), (F.LBI_MRG_CTL_STATUS, 0)]).marginDone .bond

/-! ### The loss of a compute die -/

namespace Dev

/-- An address that lies in a bobbin of the die; its cores' under-core stores lie on the base die (R45, R80). -/
def inDie (die a : Nat) : Bool :=
  match Region.of a with
  | .bobbin c _ => c / 512 = die
  | _ => false

/-- A register of compute die `die`: a core's register of windows 4 to 6 (R410). -/
def ofDie (die addr : Nat) : Bool :=
  let o := addr - 0x1C000000000
  let win := o / 0x1000000
  let off := o % 0x1000000
  decide (4 ≤ win ∧ win ≤ 6) && decide (off < (if win = 6 then 0xC000 else 0x8000)) && off % 0x2000 / 8 / 512 = die

/-- A core of a die that is lost without a reset of its domain runs no more: its requests are discarded (R47), and what it and its registers hold stays (R78,
R376). Log entry notes/assumptions/34.md (DEDUCED). -/
def quitCore (d : Dev) (c : Nat) : Dev :=
  if (d.cores.find c).isNone then d
  else d.modCore c fun k => { k with run := .idle, stall := .none, due := none, pending := [], mq := [], vq := [], xq := [], tq := [], sq := [], yq := [] }

/-- The flits of the messages at the front of a list, each message's together, a cut one last (R31). -/
def splitFlits : Nat → List (List Nat) → List (List (List Nat))
  | 0, _ => []
  | _, [] => []
  | k + 1, l => l.take (messageLen l) :: splitFlits k (l.drop (messageLen l))

/-- A whole message that reads or writes a bobbin of the die. -/
def targetsDie (die : Nat) (l : List (List Nat)) : Option NetMsg :=
  match wholeMessage l with
  | some (m, _) => if (m.op = 1 ∨ m.op = 2) ∧ inDie die m.addr then some m else none
  | none => none

/-- Messages of the other die that stand in the base side of port `n` and read or write a bobbin of the lost die complete with DIE_LOST (R45 step 3). -/
def endBuffered (die n vn : Nat) (d : Dev) : Dev :=
  let x := (d.bport n).up
  let t := (x.taken.get [] vn).length
  let l := splitFlits (x.received vn).length (x.received vn)
  let gone := l.filterMap (targetsDie die)
  if gone.isEmpty then d
  else
    let stay := l.foldl (fun (r : Nat × List (List Nat) × List (List Nat)) g =>
      if (targetsDie die g).isSome then (r.1 + g.length, r.2) else (r.1 + g.length, r.2.1 ++ g.take (t - r.1), r.2.2 ++ g.drop (t - r.1))) (0, [], [])
    gone.foldl (fun (d : Dev) m => d.answerMessage n true m (m.op + 2) Status.dieLost.code [] 0) (d.takeFlits n true vn stay.2.1 stay.2.2)

/-- A core whose die is reset comes back to its start with its registers (R151, R374). -/
def resetCore (d : Dev) (c : Nat) : Dev :=
  let d := if (d.cores.find c).isSome then d.setCore c {} else d
  ([.CORE_CTL, .CORE_ILD, .MTX_STAT, .MTX_FAULT, .STR_STAT, .STR_CE, .STR_UE, .STR_PROMO, .STR_DMA_STAT] : List Reg).foldl (fun (d : Dev) r => d.resetReg r c) d

/-- A core of the other die had accesses, transfers or a LOAD on their way to or from the lost die: they complete with DIE_LOST (R45 step 3). -/
def failTransfers (d : Dev) (die c : Nat) : Dev :=
  let d := d.failAccesses c (fun r => inDie die r.addr) (fun x => x.bonds.contains die) .dieLost
  if d.loadingFrom c (inDie die) then d.cutLoad c .dieLost else d

/-- The flows whose open skeins read a store of the lost die fail with DIE_LOST (R45 step 3). -/
def failReaders (d : Dev) (die : Nat) : Dev :=
  (d.fab.skeins.filter fun x => x.failed.isNone && decide (x.bytes ≠ 0) && (inDie die x.src || inDie die (x.src + x.bytes - 1))).foldl
    (fun (d : Dev) x => d.failFlow x.flow .dieLost) d

/-- The ports of a lost die (R45 steps 1 and 3): the transfers that a port still carries complete with DIE_LOST. Whole messages that have passed the wrapper stay
to be performed (R47). Log entry notes/assumptions/34.md (DEDUCED). -/
def isolatePort (d : Dev) (n : Nat) : Dev :=
  let x := d.bport n
  let d := (x.up.unacked.map (·.2) ++ x.up.waiting ++ x.down.unacked.map (·.2) ++ x.down.waiting).foldl (fun (d : Dev) f => d.completeTag f.tag .dieLost) d
  let d := [0, 1].foldl (fun (d : Dev) vn => (splitFlits (x.down.received vn).length (x.down.received vn)).foldl (fun (d : Dev) g =>
    d.completeTag (NetMsg.of g).tag .dieLost) d) d
  let d := d.quitActive n
  let d := d.modBport n fun x => { x with agreed := none, failures := 0, locked := false, down := {} }
  d.putAll n [(F.LBI_PORT_STAT_STATE, 7), (F.LBI_PORT_STAT_REASON, 7)]

/-- The partitions that hold a core group on a die. -/
def partsOnDie (d : Dev) (die : Nat) : List Nat :=
  (List.range 4).filter fun p => d.live p && decide (bits (d.get F.ZQL_PGRP_GROUPS p) (8 * die) 8 ≠ 0)

/-- A compute die is declared lost (R44 to R47), with a cause: 1 DIE_ALIVE fell, which resets its domain (R374), 2 clocks lost, which does not (R376). An object that
has failed its test stays FAILED. Log entry notes/assumptions/34.md (DEDUCED). -/
def declareLost (d : Dev) (die cause : Nat) : Dev :=
  let d := (List.range 64).foldl (fun (d : Dev) i => d.isolatePort (64 * die + i)) d
  let d := d.putAll die [(F.LBI_DIE_STAT_WRAP_CLOSED, 1), (F.LBI_DIE_STAT_LOST, 1), (F.LBI_DIE_STAT_CAUSE, cause), (F.LBI_DIE_STAT_PORTS_ACTIVE, 0)]
  let d := (List.range 24576).foldl (fun (d : Dev) i =>
    let id := 24576 * die + i
    if d.objState id = 2 then d else d.put F.SYNC_OBJ_LO_STATE id 1) d
  let d := (List.range 512).foldl (fun (d : Dev) i => if cause = 1 then d.resetCore (512 * die + i) else d.quitCore (512 * die + i)) d
  let d := [0, 1].foldl (fun (d : Dev) vn => (List.range 64).foldl (fun (d : Dev) i => d.endBuffered die (64 * (1 - die) + i) vn) d) d
  let d := if d.testCore.any (· / 512 = die) then { d with testCore := none }.put F.MTX_TEST_CTL_BUSY 0 0 else d
  let d := (List.range 512).foldl (fun (d : Dev) i => d.failTransfers die (512 * (1 - die) + i)) d
  let d := d.failReaders die
  let d := (d.sync.waiters.filter fun x => x.id < 49152 && decide (x.id / 24576 = die)).foldl (fun (d : Dev) x => d.releaseWaiter x .dieLost) d
  let ps := d.partsOnDie die
  let d := { d with dead := d.dead ++ ps.filter fun p => !d.dead.contains p, boot := { d.boot with rejoin := d.boot.rejoin.filter (· ≠ die), tested := d.boot.tested.filter (· ≠ die) } }
  (ps ++ [7]).foldl (fun (d : Dev) p => d.raise .dieLost p 0x800 (die + 2 * cause) .dieLost) d

/-- The clock of a compute die is good or lost (R375, R396), as RST_CLK_STAT shows from the release of base control on (R379). -/
def setDieClock (d : Dev) (die : Nat) (v : Nat) : Dev :=
  if d.released 1 then d.put (if die = 0 then F.RST_CLK_STAT_CD0_CLK else F.RST_CLK_STAT_CD1_CLK) 0 v else d

/-- DIE_ALIVE of a compute die falls (R44, R374). From the release of the base network on the base die samples it (R379): the die is lost, its domain is reset, and
with it the snapshots of its registers (R409). Log entry notes/assumptions/34.md (DEDUCED). -/
def aliveFalls (d : Dev) (die : Nat) : Dev :=
  let d := { d with boot := { d.boot with alive := d.boot.alive.filter (· ≠ die) } }.setDieClock die 0
  if !d.isSet F.LBI_DIE_STAT_ALIVE die then d
  else
    let d := d.put F.LBI_DIE_STAT_ALIVE die 0
    let d := (d.put F.RST_STAT_DOMAINS 0 (putBits (d.get F.RST_STAT_DOMAINS) (4 + die) 1 0)).declareLost die 1
    { d with snaps := d.snaps.filter fun a _ => !ofDie die a }

end Dev

/-- DIE_ALIVE_FALL (R44, R45). -/
def execDieAliveFall (die : Fin 2) (s : State) : Host.Outcome State Fault Refusal :=
  runDev 0 (fun d => d.aliveFalls die) s

/-- FORWARDED_CLOCK_LOSS (R44): the forwarded clocks of the listed ports of a die have stopped within 256 bond cycles. A die that is lost already only has
the ports that train again go down. -/
def execForwardedClockLoss (die : Fin 2) (ports : BitVec 64) (s : State) : Host.Outcome State Fault Refusal :=
  runDev 2 (fun d =>
    let l := (List.range 64).filter fun i => ports.getLsbD i
    if !d.isSet F.LBI_DIE_STAT_ALIVE die then d
    else if !d.isSet F.LBI_DIE_STAT_LOST die && decide (8 ≤ l.length) then d.declareLost die 2
    else l.foldl (fun (d : Dev) i =>
      if d.bondState (64 * die.val + i) = 0 ∨ d.bondState (64 * die.val + i) = 7 then d else d.bondDown (64 * die + i) 1) d) s

end Sys2Proof.Machine
end

