-- ==== Sys2Proof/Machine/CoreCtl.lean ====
section
/-!
DEFINITION. Running, stopping and loading a core through `CORE_CTL_n` (R150, R151, R211), and the access rule of the CORE registers.
-/

namespace Sys2Proof.Machine

namespace Dev

/-- A requester may write the CORE registers of core `c`: its own partition's, and for the management processor and the owner port those of a
core in no partition (R150). -/
def mayWriteCore (d : Dev) (r : Requester) (c : Nat) : Bool :=
  match r with
  | .part p => d.partOfCore c = some p.val
  | _ => (d.partOfCore c).isNone

/-- The stalled instruction of core `c` is released without being executed: a waiter leaves its object at once, and an arrival that has been
made stays counted (R151, R211). -/
def releaseStall (d : Dev) (c : Nat) : Dev :=
  match (d.core c).yq.find? fun y => y.kind = .wait || y.kind = .bar with
  | none => d
  | some y =>
    let mine : Reply → Bool
      | .core c' _ seq => decide (c' = c ∧ seq = y.seq)
      | _ => false
    let d := match d.sync.waiters.find? fun x => mine x.reply with
      | some x => d.dropWaiter x
      | none => d
    let d := { d with sync := { d.sync with arrivals := d.sync.arrivals.filter fun
        | .wait _ _ _ _ _ r => !mine r
        | .arrive _ _ r => !mine r
        | .signal _ _ _ _ _ _ _ => true } }
    d.modCore c fun k => { k with yq := k.yq.filter (·.seq ≠ y.seq), pending := k.pending.filter (· ≠ y.rd) }

/-- STOP: a running or waiting core stops issue for good; in any other state nothing happens (R151). Log entry notes/assumptions/50.md (DEDUCED). -/
def stopCore (d : Dev) (c : Nat) : Dev :=
  if (d.core c).run = .run ∨ (d.core c).run = .wait then
    ((d.releaseStall c).modCore c (·.stop 2 .ok)).pump c
  else d

/-- START: the core runs from ENTRY; its first-status with MORE, its halt record, its phase and its due twist are cleared (R150, R342). -/
def startCore (d : Dev) (c : Nat) : Dev :=
  d.modCore c fun k => { k with
    run := .run, pc := d.get F.CORE_CTL_ENTRY c, first := ⟨[]⟩, more := [], due := none, haltCause := 0, haltStatus := .ok, stall := .none, phase := none }

/-- LOAD: the core is LOADING until the load ends; a count or a source that breaks R138 only sets LOAD_STATUS. -/
def startLoad (d : Dev) (c : Nat) : Dev :=
  let src := d.get F.CORE_ILD_SRC c
  let n := d.get F.CORE_ILD_COUNT c
  let r := d.reachAt (d.partOfCore c) src
  d.modCore c fun k =>
    if n = 0 ∨ 8192 < n ∨ src % 8 ≠ 0 ∨ r = .formatFault ∨ r = .partitionDenied then { k with loadStatus := .formatFault }
    else { k with beforeLoad := k.run, run := .loading, loadFrom := (src, n) }

/-- A write of CORE_CTL_n (R46, R150, R151): START is bit 13, STOP bit 14, LOAD bit 15. -/
def writeCoreCtl (d : Dev) (r : Requester) (c v : Nat) : Dev :=
  let cmd := bits v 13 3
  let k := d.core c
  if !d.mayWriteCore r c then d.answer .partitionDenied
  else if d.dieClosed c then d.answer .isolated
  else if cmd ≠ 0 ∧ cmd ≠ 1 ∧ cmd ≠ 2 ∧ cmd ≠ 4 then d.answer .formatFault
  else if (cmd = 1 ∨ cmd = 4) ∧ k.run ≠ .idle ∧ k.run ≠ .halt then d.answer .formatFault
  else
    let d := d.put F.CORE_CTL_ENTRY c (bits v 0 13)
    let d := match cmd with
      | 1 => d.startCore c
      | 2 => d.stopCore c
      | 4 => d.startLoad c
      | _ => d
    d.answer .ok

end Dev

/-- CORE_START (R151). -/
def execCoreStart (r : Requester) (c : Fin 1024) (entry : Fin 8192) (s : State) : Host.Outcome State Fault Refusal :=
  runDev 2 (Dev.ask r fun d => d.writeCoreCtl r c (entry + 0x2000)) s

/-- CORE_STOP (R151, R193, R211). -/
def execCoreStop (r : Requester) (c : Fin 1024) (entry : Fin 8192) (s : State) : Host.Outcome State Fault Refusal :=
  runDev 2 (Dev.ask r fun d => d.writeCoreCtl r c (entry + 0x4000)) s

/-- CORE_LOAD (R151). -/
def execCoreLoad (r : Requester) (c : Fin 1024) (entry : Fin 8192) (s : State) : Host.Outcome State Fault Refusal :=
  runDev 2 (Dev.ask r fun d => d.writeCoreCtl r c (entry + 0x8000)) s

/-- The load of core `c` ends: the words stand in the store from index 0 up, and the core returns to its earlier state with
LOAD_STATUS (R138, R151). -/
def execCoreLoadComplete (c : Fin 1024) (s : State) : Host.Outcome State Fault Refusal :=
  runWork (coreDom c) (fun wk =>
    if (wk.dev.core c).run = .loading then
      let (src, n) := (wk.dev.core c).loadFrom
      let (wk, st) := wk.loadProgram c 0 n src
      wk.on (·.modCore c fun k => { k with run := k.beforeLoad, loadStatus := st })
    else wk) s

end Sys2Proof.Machine
end

