-- ==== Sys2Proof/Machine/Views.lean ====
section
/-!
DEFINITION. What registers show of the machine's hidden state: fields that the register file does not hold itself (R79, R115, R448, R252, R277,
R318, R371), the register as a read returns it, and the capture of every register for the snapshots (R409, R410).
-/

namespace Sys2Proof.Machine

/-- The code of `CORE_STAT_n.STATE` (R448). -/
def RunState.code : RunState → Nat
  | .idle => 0 | .loading => 1 | .run => 2 | .wait => 3 | .stopping => 4 | .halt => 5

namespace Dev

/-- CORE_STAT_n. -/
def coreStat (d : Dev) (c : Nat) : Nat :=
  let k := d.core c
  k.run.code + k.pc % 8192 * 2 ^ 3 + k.haltStatus.code * 2 ^ 16 + k.haltCause * 2 ^ 24 + k.loadStatus.code * 2 ^ 26

/-- CORE_UST_n. -/
def coreUst (d : Dev) (c : Nat) : Nat :=
  let k := d.core c
  let f (u : Nat) : Nat := (k.first.get .ok u).code
  f 0 + f 1 * 2 ^ 8 + f 2 * 2 ^ 16 + f 3 * 2 ^ 24 + (k.more.map (2 ^ ·)).sum * 2 ^ 32

/-- MTX_STAT_n with the tags of the banks (R79). -/
def mtxStat (d : Dev) (c : Nat) : Nat :=
  let v := (d.word .MTX_STAT c).toNat
  putBits (putBits v 7 3 (d.core c).a0.tag.code) 10 3 (d.core c).a1.tag.code

/-- STR_DMA_STAT_n with the descriptors queued and running (R115). -/
def dmaStat (d : Dev) (c : Nat) : Nat :=
  let l := (d.core c).xq
  let v := (d.word .STR_DMA_STAT c).toNat
  putBits (putBits v 0 5 (l.filter fun x => !x.running).length) 5 3 (l.filter (·.running)).length

/-- The line that a lane uses now: the current permutation's for a transmit lane, the receive permutation's for a receive lane (R258, R277). -/
def laneLine (d : Dev) (e n : Nat) : Option Nat :=
  if n < 144 then (d.slotPerm e (n / 8) d.tw.slot).map fun x => permLine x.1 (n % 8)
  else some (bits (d.get F.LANE_RXPERM_PERM (18 * e + (n - 144) / 8)) (3 * ((n - 144) % 8)) 3)

/-- The ring of lane `n` for a line (R255). -/
def laneRing (n line : Nat) : Nat := if n < 144 then 8 * n + line else 1152 + 8 * (n - 144) + line

/-- LANE_STAT_n (R277). `i` counts 288 lanes per engine. -/
def laneStat (d : Dev) (i : Nat) : Nat :=
  let e := i / 288
  let n := i % 288
  let st (line : Nat) : Nat := d.ringState e (laneRing n line)
  let mask (s : Nat) : Nat := ((List.range 8).map fun l => if st l = s then 2 ^ l else 0).sum
  let v := (d.word .LANE_STAT i).toNat
  let v := putBits (putBits v 0 8 (mask 4)) 8 8 (mask 7)
  let line := d.laneLine e n
  let v := putBits v 16 3 (line.getD 0)
  if n < 144 then
    let lit := match line with
      | some l => d.laneLit e (n / 8) (n % 8) l
      | none => false
    putBits (putBits v 19 1 (flag lit)) 20 1 (flag !lit)
  else
    let m := laneRing n (line.getD 0)
    putBits v 20 1 (flag (d.ringState e m = 5 || d.ringState e m = 0))

/-- PLY_STAT (R318). -/
def plyStat (d : Dev) (e : Nat) : Nat :=
  let open_ := (d.ply.bins.filter (·.e = e)).length
  let busy := d.ply.runs.any fun r => r.matrix.isSome && r.solved.isNone && match d.layerOf r.part r.layer r.old with
    | some x => ent x 0 8 3 = e
    | none => false
  let owner := d.plyOwner e
  let queue := ((d.fab.plyIn.filter (·.1 = e)).map fun x => x.2.2.payload.length).sum
  open_ + flag busy * 2 ^ 7 + (if owner < 4 then owner else 7) * 2 ^ 8 + Nat.min 4096 (queue / 1024) * 2 ^ 11

/-- ZQL_PCTL_p with the whole milliseconds that remain to D (R364, R371). -/
def pctl (d : Dev) (p : Nat) : Nat :=
  let v := (d.word .ZQL_PCTL p).toNat
  putBits v 5 32 (if d.get F.ZQL_PCTL_STATE p = 2 then (d.zql.deadline.get 0 p - d.now) / 1000000 else 0)

/-- MTX_REPAIR_d from the fuses (R75, R79): 32 records per die. -/
def mtxRepair (d : Dev) (die : Nat) : Nat :=
  let f := d.fuses.free die
  f + (32 - f) * 2 ^ 6

/-- RST_RAIL_STAT (R374, R395, R396): the core rail of a die that its detector holds, and the rails of a stack that have once been out of tolerance, may be in
tolerance again at any time. -/
def railStat (d : Dev) (v : Nat) : Nat :=
  if !d.released 1 then v
  else
    let v := d.boot.dieHeld.foldl (fun v die => putBits v (3 + die) 1 (flag (Config.coreRailOk die d.now))) v
    d.boot.hbmLow.entries.foldl (fun v x => if x.2 = d.now + 1 then v else putBits v (8 + x.1) 1 (flag (Config.hbmRailOk x.1 d.now))) v

/-- A register as a read returns it (R8). Log entry notes/assumptions/3.md (DESIGN CHOICE). Log entry notes/assumptions/81.md (DESIGN CHOICE). -/
def view (d : Dev) (r : Reg) (i : Nat) : Word :=
  match r with
  | .LBI_CAP => if i < 4 then BitVec.ofNat 64 ((baseCap[i]?).getD 0) else d.word .LBI_CAP i
  | .CORE_STAT => BitVec.ofNat 64 (d.coreStat i)
  | .CORE_UST => BitVec.ofNat 64 (d.coreUst i)
  | .MTX_STAT => BitVec.ofNat 64 (d.mtxStat i)
  | .MTX_SR_STATE => (d.core i).mgen
  | .STR_SR_STATE => (d.core i).vgen
  | .STR_DMA_STAT => BitVec.ofNat 64 (d.dmaStat i)
  | .MTX_REPAIR => BitVec.ofNat 64 (d.mtxRepair i)
  | .LANE_STAT => BitVec.ofNat 64 (d.laneStat i)
  | .PLY_STAT => BitVec.ofNat 64 (d.plyStat i)
  | .ZQL_PCTL => BitVec.ofNat 64 (d.pctl i)
  | .FAB_PLAN_STAT => BitVec.ofNat 64 (putBits (d.word .FAB_PLAN_STAT i).toNat 48 1 (flag (d.fab.keys.get {} i).live))
  | .RST_CLK_STAT => if d.get F.TWIST_ALIGN_STATE = 2 then BitVec.ofNat 64 (putBits (d.word .RST_CLK_STAT i).toNat 0 16 (Config.refOffset d.now).toNat) else d.word .RST_CLK_STAT i
  | .RST_RAIL_STAT => BitVec.ofNat 64 (d.railStat (d.word .RST_RAIL_STAT i).toNat)
  | .TWIST_PERIOD => if d.isSet F.TWIST_CFG_ROOT then d.word .TWIST_PERIOD i else BitVec.ofNat 64 d.tw.period
  | _ => d.word r i

/-- The registers whose reads show hidden state, with how many there are of each. -/
def shown : List (Reg × Nat) :=
  [(.LBI_CAP, 4), (.CORE_STAT, 1024), (.CORE_UST, 1024), (.MTX_STAT, 1024), (.MTX_SR_STATE, 1024), (.STR_SR_STATE, 1024), (.STR_DMA_STAT, 1024), (.MTX_REPAIR, 2),
   (.LANE_STAT, 2304), (.PLY_STAT, 8), (.ZQL_PCTL, 4), (.FAB_PLAN_STAT, 4), (.RST_CLK_STAT, 1), (.RST_RAIL_STAT, 1), (.TWIST_PERIOD, 1)]

/-- An entry of the event log, which has no snapshot (R409). -/
def ofLog (addr : Nat) : Bool := decide (0x1C002100000 ≤ addr ∧ addr < 0x1C003000000)

/-- Capture every register into its snapshot as it stands in `pre`, the state at the end of the cycle before the edge at T; registers of a die whose
wrappers are closed keep the earlier capture (R409, R410). Log entry notes/assumptions/41.md (DEDUCED). -/
def capture (d pre : Dev) : Dev :=
  let stale := (List.range 2).filter fun die => pre.isSet F.LBI_DIE_STAT_WRAP_CLOSED die
  let isStale (a : Nat) : Bool := stale.any fun die => ofDie die a
  let live := shown.foldl (fun (t : Tab Word) x => (List.range x.2).foldl (fun (t : Tab Word) i => t.set (x.1.addr i) (pre.view x.1 i)) t) pre.regs
  let fresh := live.filter fun a _ => !isStale a && !ofLog a
  let old := d.snaps.filter fun a _ => isStale a
  { d with snaps := old.entries.foldl (fun (t : Tab Word) (x : Nat × Word) => t.set x.1 x.2) fresh }.put F.EVT_FRZ_CTL_STALE_DIE 0
    ((stale.map (2 ^ ·)).sum)

end Dev

end Sys2Proof.Machine
end

