-- ==== Sys2Proof/Machine/Events.lean ====
section
/-!
DEFINITION. The event log and its delivery (R400 to R405), and FREEZE (R410 to R412).
-/

namespace Sys2Proof.Machine

namespace Dev

/-- The owner port (R357). -/
def ownerPort (d : Dev) : Nat := d.get F.RST_STRAP_ADMIN_PORT

/-! ### FREEZE -/

/-- An enabled trigger source occurs at `t` (R411): in ARMED it captures, in IDLE and FROZEN it is counted as missed, but for one in the
nanosecond of the capture, which joins SOURCE and the FREEZE-taken event that waits for the log. The bits of `src` are those of SOURCE. `pre` is the
state before the edge at T, whose values the capture takes (R410). Log entry notes/assumptions/41.md (DEDUCED). -/
def freezeTrigger (d pre : Dev) (src t : Nat) : Dev :=
  if d.get F.EVT_FRZ_CTL_STATE = 1 then
    let d := (d.capture pre).putAll 0 [(F.EVT_FRZ_CTL_STATE, 2), (F.EVT_FRZ_CTL_SOURCE, src)]
    let d := d.setWord .EVT_FRZ_TIME 0 (BitVec.ofNat 64 t)
    let d := d.raise .freezeTaken 7 0x800 src
    if d.isSet F.EVT_FRZ_CFG_DRIVE && decide (src < 8) then { d with frzDrive := true }.send .pin 0 [0] else d
  else if d.get F.EVT_FRZ_CTL_STATE = 2 ∧ d.word .EVT_FRZ_TIME 0 = BitVec.ofNat 64 t ∧ Nat.land (d.get F.EVT_FRZ_CTL_SOURCE) src = 0 then
    { d with evq := d.evq.map fun (x : Event) => if x.kind = EvKind.freezeTaken ∧ x.time = t then { x with detail := x.detail + src } else x }.put F.EVT_FRZ_CTL_SOURCE 0
      (d.get F.EVT_FRZ_CTL_SOURCE + src)
  else d.count .EVT_FRZ_MISSED

/-- A write of EVT_FRZ_CTL (R411, R413): ARM is bit 0, NOW bit 1. -/
def writeFrzCtl (d : Dev) (r : Requester) (v : Nat) : Dev :=
  if !whole r then d.answer .partitionDenied
  else if v.testBit 0 && v.testBit 1 then d.answer .formatFault
  else if v.testBit 0 then (d.put F.EVT_FRZ_CTL_STATE 0 1).answer .ok
  else if v.testBit 1 then
    if d.get F.EVT_FRZ_CTL_STATE = 0 then d.answer .formatFault
    else (if d.isSet F.EVT_FRZ_CFG_EN_CMD then d.freezeTrigger d 4 d.now else d).answer .ok
  else d.answer .ok

/-- The twist match at the boundary that starts twist `t`, which was not yet taken in `pre` (R410, R411). -/
def freezeBoundary (d pre : Dev) (t : Nat) : Dev :=
  if d.isSet F.EVT_FRZ_CFG_EN_TWIST && d.get F.EVT_FRZ_TWIST_TWIST = t then d.freezeTrigger pre 2 d.now else d

/-! ### The log -/

/-- The four words of a log entry (R402). -/
def logWords (x : Event) (seq : Nat) : List Nat :=
  let (cls, code) := x.kind.classCode
  [cls + code * 2 ^ 8 + x.status.code * 2 ^ 16 + x.kind.severity * 2 ^ 24 + x.part % 8 * 2 ^ 26 + x.unit % 65536 * 2 ^ 32 + seq % 65536 * 2 ^ 48,
   x.time, x.twist, x.detail % 2 ^ 64]

/-- Of two events that reach the log together the lower CLASS, then CODE, then UNIT is written first (R400). -/
def logBefore (a b : Event) : Bool :=
  let k (x : Event) : Nat := (x.kind.classCode.1 * 256 + x.kind.classCode.2) * 65536 + x.unit
  decide (k a ≤ k b)

/-- The event that the log writes next: among those raised with the first, in the order of R400. Log entry notes/assumptions/13.md (DEDUCED). -/
def nextEvent : List Event → Option Event
  | [] => none
  | x :: t => some (t.foldl (fun (a : Event) b => if b.time = x.time && !logBefore a b then b else a) x)

/-- The log writes an entry at its slot, and the head moves on (R401). -/
def writeLog (d : Dev) (x : Event) : Dev :=
  let seq := d.get F.EVT_LOG_HEAD_VALUE
  let d := (logWords x seq).zipIdx.foldl (fun (d : Dev) w => d.setWord .EVT_LOG (4 * (seq % 4096) + w.2) (BitVec.ofNat 64 w.1)) d
  d.count .EVT_LOG_HEAD

/-- An entry goes to the owner port, and to the port bound to its partition while that is ACTIVE or in NOTICE (R404). Log entry notes/assumptions/13.md (DEDUCED). -/
def deliver (d : Dev) (x : Event) (seq : Nat) : Dev :=
  let f : Frame := { type := 9, data := (logWords x seq).flatMap (leBytes 8) }
  let own := d.ownerPort
  let st := d.get F.ZQL_PCTL_STATE x.part
  let d := d.portMessage own f
  if x.part < 4 ∧ (st = 1 ∨ st = 2) ∧ d.get F.ZQL_PCTL_PORT x.part ≠ own then d.portMessage (d.get F.ZQL_PCTL_PORT x.part) f else d

/-- The entry matches EVT_FRZ_MATCH: every compared field is equal (R411). -/
def eventMatch (d : Dev) (x : Event) : Bool :=
  (!d.isSet F.EVT_FRZ_MATCH_M_CLASS || d.get F.EVT_FRZ_MATCH_CLASS = x.kind.classCode.1) &&
  (!d.isSet F.EVT_FRZ_MATCH_M_CODE || d.get F.EVT_FRZ_MATCH_CODE = x.kind.classCode.2) &&
  (!d.isSet F.EVT_FRZ_MATCH_M_PART || d.get F.EVT_FRZ_MATCH_PART = x.part)

end Dev

/-- The log writes a queued event, sends it to the ports it concerns, and an event match may trigger a capture (R400, R401, R404, R411). -/
def execEventLogWrite (s : State) : Host.Outcome State Fault Refusal :=
  runDev 1 (fun d =>
    match Dev.nextEvent d.evq with
    | none => d
    | some x =>
      let seq := d.get F.EVT_LOG_HEAD_VALUE
      let after := ({ d with evq := d.evq.erase x }.writeLog x).deliver x seq
      if after.isSet F.EVT_FRZ_CFG_EN_MATCH && after.eventMatch x then after.freezeTrigger d 1 after.now else after) s

/-- EVENT_SEND: the oldest NOTIFY or EVENT frame that port `p` holds leaves once the port is UP (R353). -/
def execEventSend (p : Fin 4) (s : State) : Host.Outcome State Fault Refusal :=
  runDev 8 (fun d =>
    match (d.zport p).held with
    | f :: t => if d.canSend p then (d.setZport p { d.zport p with held := t }).sendFrame p f else d
    | [] => d) s

/-- FREEZE_ARM (R411). -/
def execFreezeArm (r : Requester) (s : State) : Host.Outcome State Fault Refusal := runDev 1 (Dev.ask r fun d => d.writeFrzCtl r 1) s

/-- FREEZE_NOW (R411). -/
def execFreezeNow (r : Requester) (s : State) : Host.Outcome State Fault Refusal := runDev 1 (Dev.ask r fun d => d.writeFrzCtl r 2) s

/-- FREEZE_N has read low on two REFCLK samples, 10 ns apart: T is the first of them; it is no trigger while the part drives the ball
(R411, R412). Log entry notes/assumptions/41.md (DEDUCED). -/
def execFreezePin (s : State) : Host.Outcome State Fault Refusal :=
  runDev 1 (fun d => if d.isSet F.EVT_FRZ_CFG_EN_PIN && !d.frzDrive then d.freezeTrigger d 8 (d.now - 10) else d) s

/-- The part's 100 reference cycles of driving FREEZE_N low end (R412). -/
def execFreezeDriveEnd (s : State) : Host.Outcome State Fault Refusal :=
  runDev 1 (fun d => if d.frzDrive then { d with frzDrive := false }.send .pin 0 [1] else d) s

end Sys2Proof.Machine
end

