-- ==== Sys2Proof/Machine/Hbm.lean ====
section
/-!
DEFINITION. The HBM controllers: queues and the Creel (R158 to R163), the patrol scrub (R168), throttling and critical stacks (R169 to R172), initialisation and
margining (R173 to R176), ranges and keys (R177 to R181), and the HBM registers with a row of their own (R157, R162, R182).
-/

namespace Sys2Proof.Machine

namespace Dev

def chan (d : Dev) (c : Nat) : Chan := d.hbm.chans.get {} c

def modHbm (d : Dev) (f : Hbm → Hbm) : Dev := { d with hbm := f d.hbm }

def setChan (d : Dev) (c : Nat) (x : Chan) : Dev := d.modHbm fun h => { h with chans := h.chans.set c x }

/-- A request completes: its tag, status and data go back to its source (R163); the response of a core of a lost die is discarded (R47). -/
def hbmAnswer (d : Dev) (src tag : Nat) (s : Status) (data : List Byte) : Dev :=
  if (coreUnit src).any d.dieClosed then d
  else { d with reply := (s, data.map BitVec.toNat) }.send .hbmReply src ([tag, s.code] ++ data.map BitVec.toNat)

/-- A margin run holds the channel's other requests back (R176). -/
def underMargin (d : Dev) (c : Nat) : Bool := d.isSet F.HBM_MRG_CTL_BUSY && d.hbm.run.1 = c

/-- A request needs the staple path: it lies in one 32-byte unit, and not in a view (R158, R164). -/
def isStaple (a n : Nat) : Bool := decide (a < hbmTop) && a / 32 = (a + n - 1) / 32

/-- The entries of an ingress port in a queue. -/
def portShare (l : List HbmReq) (p : Nat) : Nat := (l.filter (·.port = p)).length

/-- The committed bias of a class at the channels (R162). -/
def hbmBias (d : Dev) (c : Nat) : Nat := d.hbm.bias.get (bits (Reg.reset .CREEL_BIAS_HBM c).toNat 0 16) c

/-- An entry of a request is done (R163): its status, and the bytes that it read. With the last one the request answers, unless an error on the way back spoils the
transfer (R167). -/
def partDone (d : Dev) (id a : Nat) (s : Status) (bs : List Byte) : Dev :=
  match d.hbm.requests.find? (·.id = id) with
  | none => d
  | some x =>
    let y := { x with left := x.left - 1, status := x.status.orElse s, parts := x.parts ++ [(a, bs)] }
    if 1 < x.left then d.modHbm fun h => { h with requests := h.requests.map fun z => if z.id = id then y else z }
    else
      let st := y.status.orElse (if x.respBad then .eccUncorrected else .ok)
      let byte (b : Nat) : Byte := (y.parts.findSome? fun p => if p.1 ≤ b then p.2[b - p.1]? else none).getD 0
      let data := if st ≠ .ok ∨ y.parts.all (·.2.isEmpty) then [] else (List.range x.len).map fun i => byte (Region.seen x.addr i)
      (d.modHbm fun h => { h with requests := h.requests.filter (·.id ≠ id) }).hbmAnswer x.src x.tag st data

/-- An entry finds room at its channel (R159): its queue and its port's share of it are not full, no margin run holds the channel (R176), and no earlier entry waits
for the same port and path, nor one of the same source to the same unit (R163). -/
def hbmRoom (d : Dev) (x : HbmPart) : Bool :=
  let c := d.channelOf x.addr
  let q := if x.staple then (d.chan c).staple else (d.chan c).bulk
  let (size, share) := if x.staple then (128, 8) else (256, 16)
  decide (q.length < size) && decide (portShare q x.port < share) && !d.underMargin c &&
    !(d.hbm.waiting.any fun y =>
      (d.channelOf y.addr = c && y.port = x.port && y.staple = x.staple) ||
        (y.src = x.src && decide (y.addr / 32 ≤ (x.addr + x.len - 1) / 32) && decide (x.addr / 32 ≤ (y.addr + y.len - 1) / 32)))

end Dev

end Sys2Proof.Machine

namespace Sys2Proof

/-- The Creel class of a request (R161). -/
def HbmUse.cls : HbmUse → Nat
  | .core => 0
  | .flow ch => ch
  | .ply => 1
  | .buddy => 3
  | .mgmt => 4
  | .reshard => 5
  | .port => 6
  | .diagnostic => 7

/-- The class of a request (R161). -/
def HbmAccess.cls (x : HbmAccess) : Nat := x.use.cls

/-- Where the entries of a request start, and their lengths: the request is split at 256-byte boundaries (R158). -/
def HbmAccess.pieces (x : HbmAccess) : List (Nat × Nat) :=
  let a := Machine.Region.target x.addr
  (List.range ((a + x.len - 1) / 256 - a / 256 + 1)).map fun i =>
    let lo := Nat.max a ((a / 256 + i) * 256)
    (lo, Nat.min (a + x.len) ((a / 256 + i + 1) * 256) - lo)

/-- The entries of request `id` (R158, R164). -/
def HbmAccess.parts (x : HbmAccess) (id : Nat) : List Machine.HbmPart :=
  let a := Machine.Region.target x.addr
  x.pieces.map fun p =>
    { id, src := x.src, who := x.who.map (·.val), cls := x.cls, port := x.port, addr := p.1, len := p.2, staple := Machine.Dev.isStaple x.addr x.len
      data := x.data.map fun bs => (List.range p.2).map fun i => (bs[Machine.Region.seen x.addr (p.1 - a + i) - a]?).getD 0 }

end Sys2Proof

namespace Sys2Proof.Machine

/-- An entry is accepted (R163): what it reads or writes is decided here, in acceptance order. A write of whole units is done at once, a read or a merging
write with its last burst; one that its target refuses does not enter the queue (R172, R181). Log entry notes/assumptions/33.md (DEDUCED). -/
def Work.acceptHbm (w : Work) (x : HbmPart) : Work :=
  let whole := decide (x.addr % 32 = 0 ∧ x.len % 32 = 0)
  let c := w.dev.channelOf x.addr
  let reach := (w.dev.reach x.who x.addr x.len).1
  let (w, st, data) : Work × Status × List Byte := match x.data with
    | some bs => let (w, st, _) := w.store x.who x.src x.addr bs; (w, st, [])
    | none => let (w, st, _, bs) := w.load x.who x.src x.addr x.len; (w, st, bs)
  w.on fun d =>
    if reach ≠ .ok then d.partDone x.id x.addr st []
    else
      let ch := d.chan c
      let r : HbmReq :=
        { id := x.id, src := x.src, cls := x.cls, addr := x.addr, len := x.len, write := x.data.isSome && whole, port := x.port
          status := st, data, arrival := ch.cycle, bursts := (x.addr + x.len - 1) / 32 - x.addr / 32 + 1 }
      let d := d.setChan c (if x.staple then { ch with staple := ch.staple ++ [r] } else { ch with bulk := ch.bulk ++ [r] })
      if x.data.isSome && whole then d.partDone x.id x.addr st [] else d

/-- An entry reaches its channel: it is accepted, or it waits in the network (R159). Log entry notes/assumptions/33.md (DEDUCED). -/
def Work.offerHbm (w : Work) (x : HbmPart) : Work :=
  if w.dev.hbmRoom x then w.acceptHbm x else w.on (·.modHbm fun h => { h with waiting := h.waiting ++ [x] })

/-- The entries that wait in the network are offered again, in order (R159). -/
def Work.pumpHbm (w : Work) : Work :=
  w.dev.hbm.waiting.foldl Work.offerHbm (w.on (·.modHbm fun h => { h with waiting := [] }))

/-- HBM_REQUEST (R17, R158, R159, R163, R164, R167): a request that the network interface refuses, or that reaches the controller with an error, answers at once;
the entries of any other go to their channels. Log entry notes/assumptions/33.md (DEDUCED). -/
def execHbmRequest (x : HbmAccess) (s : State) : Host.Outcome State Fault Refusal :=
  runWork 3 (fun w =>
    let st := if hbmTop ≤ Region.target x.addr then .formatFault else (w.dev.reach (x.who.map (·.val)) x.addr x.len).1
    if Dev.refused st then w.on (·.hbmAnswer x.src x.tag st [])
    else if x.reqBad then w.on (·.hbmAnswer x.src x.tag .eccUncorrected [])
    else
      let id := w.dev.hbm.nextId
      let l := x.parts id
      let o : HbmOpen := { id, src := x.src, tag := x.tag, addr := x.addr, len := x.len, left := l.length, respBad := x.respBad }
      l.foldl Work.offerHbm (w.on (·.modHbm fun h => { h with requests := h.requests ++ [o], nextId := id + 1 }))) s

namespace Dev

/-- The throttle level of a channel's stack (R169). -/
def level (d : Dev) (c : Nat) : Nat := d.get F.HBM_THERM_LEVEL (c % 8)

/-- The unit of an entry's next burst. -/
def nextUnit (r : HbmReq) : Nat := (r.addr + r.len - 1) / 32 + 1 - r.bursts

/-- The starts of a pseudo-channel in the current cycle and the three before it, `n` cycles later. -/
def ageStarts (n : Nat) (l : List Bool) : List Bool := (List.replicate (Nat.min n 4) false ++ l).take 4

/-- A pseudo-channel of a channel may start a burst in this cycle (R160, R169, R172, R176): none has started in it, the throttle level leaves one of these four cycles,
and the channel is in service and under no margin run. -/
def hbmMayStart (d : Dev) (c pseudo : Nat) : Bool :=
  let l := (d.chan c).recent.get [] pseudo
  l.head? ≠ some true && decide ((l.filter id).length + d.level c < 4) && d.channelStatus c = .ok && !d.underMargin c

/-- The patrol scrub's waiting burst as an entry of class 7 (R168). -/
def scrubEntry (ch : Chan) (arrival : Nat) : HbmReq :=
  { id := 0, src := 0, cls := 7, addr := ch.patrol, len := 32, write := false, port := 0, status := .ok, data := [], arrival, bursts := 1 }

/-- The entries of a channel that may start a burst on a pseudo-channel, with their places: bulk, staple, and the patrol scrub at place 384 (R160, R168). `blocked`
names by place those whose burst the DRAM timing does not permit. -/
def hbmEligible (ch : Chan) (pseudo : Nat) (blocked : List Nat) : List (HbmReq × Nat) :=
  ((ch.bulk ++ ch.staple).zipIdx ++ (ch.scrub.map fun t => (scrubEntry ch t, 384)).toList).filter fun x =>
    nextUnit x.1 % 2 = pseudo && !blocked.contains x.2

/-- The burst that the Creel of a channel starts on a pseudo-channel (R160). -/
def hbmPick (d : Dev) (c pseudo : Nat) (blocked : List Nat) : Option (HbmReq × Nat) :=
  let ch := d.chan c
  if d.hbmMayStart c pseudo then creelPick ch.cycle d.hbmBias (fun x => (x.1.cls, x.1.arrival, x.2)) (hbmEligible ch pseudo blocked) else none

/-- A burst starts on a pseudo-channel in this cycle. -/
def markStart (d : Dev) (c pseudo : Nat) : Dev :=
  let ch := d.chan c
  d.setChan c { ch with recent := ch.recent.set pseudo (true :: (ch.recent.get [] pseudo).tail) }

/-- A burst of an entry of a channel has started; with its last one it leaves the queue and, unless it is a write that has been acknowledged, it is done (R163). -/
def burst (d : Dev) (c : Nat) (r : HbmReq) : Dev :=
  let ch := d.chan c
  let f (l : List HbmReq) : List HbmReq :=
    if r.bursts ≤ 1 then l.erase r else l.map fun x => if x = r then { x with bursts := x.bursts - 1 } else x
  let d := d.setChan c { ch with staple := f ch.staple, bulk := f ch.bulk }
  if r.bursts ≤ 1 && !r.write then d.partDone r.id r.addr r.status r.data else d

end Dev

/-- The patrol scrub's burst on a channel (R168): it corrects single-bit errors in place, counts and logs an uncorrectable word, and goes on by 32 bytes. -/
def Work.scrubBurst (w : Work) (c : Nat) : Work :=
  let off := (w.dev.chan c).patrol
  let a := hbmAddress (w.dev.isSet F.HBM_CFG_HASH) c off
  let w := w.on fun d => d.setChan c { d.chan c with patrol := (off + 32) % 2 ^ 31, scrub := none }
  let w := (w.mem.soft.filter fun x => x / 8 = a / 32).foldl (fun (w : Work) x => (w.write (.heal x)).on fun d => d.count .HBM_CE c) w
  (w.mem.bad.filter fun x => x / 8 = a / 32).foldl (fun (w : Work) x => w.on fun d =>
    (d.count .HBM_UE c).raise .scrubWord (Dev.evPart (d.partOfHbm (4 * x))) (0x820 + c % 8) (4 * x) .eccUncorrected) w

/-- HBM_CREEL_GRANT (R160, R168, R169): `elapsed` cycles after its last decision the Creel of a channel starts a burst on a pseudo-channel, if one may start. -/
def execHbmCreelGrant (c : Fin 256) (pseudo : Fin 2) (elapsed : Nat) (blocked : List (Fin 385)) (s : State) : Host.Outcome State Fault Refusal :=
  runWork 3 (fun w =>
    let w := w.on fun d =>
      let ch := d.chan c
      d.setChan c { ch with cycle := ch.cycle + elapsed, recent := ch.recent.mapValues fun _ l => Dev.ageStarts elapsed l }
    match w.dev.hbmPick c pseudo (blocked.map (·.val)) with
    | none => w
    | some (r, i) =>
      let w := w.on (·.markStart c pseudo)
      if i = 384 then w.scrubBurst c else (w.on (·.burst c r)).pumpHbm) s

/-- PATROL_SCRUB (R168): the next burst of a channel's scrub becomes due, in class 7, and starts at once if the Creel picks it in this cycle; else it waits for a
grant. -/
def execPatrolScrub (c : Fin 256) (s : State) : Host.Outcome State Fault Refusal :=
  runWork 3 (fun w =>
    if !w.dev.isSet F.HBM_STAT_READY || w.dev.channelStatus c ≠ .ok then w
    else
      let w := w.on fun d =>
        let ch := d.chan c
        d.setChan c { ch with scrub := some (ch.scrub.getD ch.cycle) }
      let pseudo := (w.dev.chan c).patrol / 32 % 2
      match w.dev.hbmPick c pseudo [] with
      | some (_, 384) => (w.on (·.markStart c pseudo)).scrubBurst c
      | _ => w) s

/-! ### Heat -/

namespace Dev

/-- Sum up the stacks above level 0 (R171). -/
def sumHeat (d : Dev) : Dev :=
  let above := ((List.range 8).map fun s => if d.get F.HBM_THERM_LEVEL s = 0 then 0 else 2 ^ s).sum
  d.putAll 0 [(F.HBM_THERM_SUM_HEAT, flag (decide (above ≠ 0))), (F.HBM_THERM_SUM_ABOVE, above)]

def therm (d : Dev) (s : Nat) : Therm := d.hbm.therm.get {} s

def setTherm (d : Dev) (s : Nat) (x : Therm) : Dev := d.modHbm fun h => { h with therm := h.therm.set s x }

/-- Change a stack's throttle level (R170). -/
def setLevel (d : Dev) (s lv : Nat) : Dev :=
  if d.get F.HBM_THERM_LEVEL s = lv then d
  else
    let d := ((d.put F.HBM_THERM_LEVEL s lv).setTherm s { d.therm s with since := 0, cool := 0 }).sumHeat
    d.raise .throttleChanged 7 (0x820 + s) (lv + 4 * d.get F.HBM_THERM_TEMP s)

/-- Complete with a status the entries in a channel's queues, and those that wait for it, whose address satisfies `p` (R172, R181). -/
def flushChannel (d : Dev) (c : Nat) (st : Status) (p : Nat → Bool) : Dev :=
  let ch := d.chan c
  let gone := (ch.bulk ++ ch.staple).filter fun r => p r.addr
  let stuck (x : HbmPart) : Bool := d.channelOf x.addr = c && p x.addr
  let l := d.hbm.waiting.filter stuck
  let d := d.setChan c { ch with bulk := ch.bulk.filter (!p ·.addr), staple := ch.staple.filter (!p ·.addr) }
  let d := d.modHbm fun h => { h with waiting := h.waiting.filter (!stuck ·) }
  l.foldl (fun (d : Dev) x => d.partDone x.id x.addr st []) (gone.foldl (fun (d : Dev) r => if r.write then d else d.partDone r.id r.addr st []) d)

/-- Partitions with a valid range. -/
def validParts (d : Dev) : List Nat := (List.range 4).filter fun p => d.isSet F.HBM_PART_VALID p

/-- A stack reaches CRITICAL and leaves service until a whole-part reset (R172). -/
def stackCritical (d : Dev) (s : Nat) : Dev :=
  if (d.therm s).down then d
  else
    let d := (d.put F.HBM_THERM_CRIT s 1).setTherm s { d.therm s with down := true }
    let d := (List.range 32).foldl (fun (d : Dev) i => d.flushChannel (8 * i + s) .isolated fun _ => true) d
    (d.validParts ++ [7]).foldl (fun (d : Dev) p => d.raise .stackCritical p (0x820 + s) (d.get F.HBM_THERM_TEMP s)) d

end Dev

/-- STACK_TEMP_READING (R170, R172): a reading in °C, one every 10 µs. Log entry notes/assumptions/33.md (DEDUCED). -/
def execStackTempReading (s : Fin 8) (temp : Int) (st : State) : Host.Outcome State Fault Refusal :=
  runDev 3 (fun d =>
    let lv := d.get F.HBM_THERM_LEVEL s
    let limit : Int := d.get F.HBM_THERM_CFG_THROTTLE
    let d := d.putAll s [(F.HBM_THERM_TEMP, field 8 temp), (F.HBM_THERM_NO_READING, 0)]
    let d := if lv = 0 then d else d.count .HBM_THR_TIME s (if (d.therm s).silent then Nat.max 10 ((d.now - (d.therm s).silentAt) / 1000) else 10)
    let x := d.therm s
    let cool := if temp < limit - d.get F.HBM_THERM_CFG_HYST then x.cool + 1 else 0
    let x := { x with since := x.since + 1, cool, silent := false }
    let d := d.setTherm s x
    let d :=
      if limit ≤ temp && decide (lv < 3) && decide (10 ≤ x.since) then d.setLevel s (lv + 1)
      else if 0 < lv && decide (100 ≤ x.cool) && decide (100 ≤ x.since) then d.setLevel s (lv - 1)
      else d
    if d.get F.HBM_THERM_CFG_CRITICAL ≤ temp then d.stackCritical s else d) st

/-- STACK_NO_READING (R170, R182): a stack has given no valid reading for 1 ms, or (`long`) for 100 ms; the silence counts as time at its level. Log entry
notes/assumptions/33.md (DEDUCED). -/
def execStackNoReading (s : Fin 8) (long : Bool) (st : State) : Host.Outcome State Fault Refusal :=
  runDev 3 (fun d =>
    let quiet (d : Dev) (us : Nat) : Dev := if d.get F.HBM_THERM_LEVEL s = 0 then d else d.count .HBM_THR_TIME s us
    if long then (if (d.therm s).silent then (quiet d 99000) else quiet d 100000).stackCritical s
    else if (d.therm s).silent then d
    else
      let d := quiet d 1000
      let d := (d.put F.HBM_THERM_NO_READING s 1).setTherm s { d.therm s with silent := true, silentAt := d.now, cool := 0 }
      (d.raise .noStackReading 7 (0x820 + s) 0).setLevel s 3) st

/-- HBM_RAIL_OUT_OF_TOLERANCE (R395, R396): handled as CRITICAL by the controllers; the monitor shows it from the release of base control on. Log entry
notes/assumptions/81.md (DESIGN CHOICE). -/
def execHbmRailOutOfTolerance (s : Fin 8) (st : State) : Host.Outcome State Fault Refusal :=
  runDev 0 (fun d =>
    let d := { d with boot := { d.boot with hbmLow := d.boot.hbmLow.set s (d.now + 1) } }
    let d := if d.released 1 then d.put F.RST_RAIL_STAT_HBM 0 (putBits (d.get F.RST_RAIL_STAT_HBM) s 1 0) else d
    if d.released 3 then d.stackCritical s else d) st

/-! ### Initialisation and margining -/

/-- Record a channel's failed lanes (R173, R174, R182): failed data lanes (0 to 63) go to the good ones of the spare lanes 80 and 81, failed check lanes in use
(64 to 77) to the good ones of the unused lanes 78 and 79; a failed lane that carries nothing is not replaced. Log entry notes/assumptions/32.md (DEDUCED). -/
def Dev.repairChannel (d : Dev) (c : Nat) (lanes : List Nat) : Dev :=
  let data := lanes.filter (· < 64)
  let check := lanes.filter fun l => decide (64 ≤ l ∧ l < 78)
  let good (l : List Nat) : List Nat := l.filter fun x => !lanes.contains x
  let moved := data.zip (good [80, 81]) ++ check.zip (good [78, 79])
  let on_ (x : Nat) : Nat := ((moved.find? (·.2 = x)).map (·.1)).getD 0x7F
  let d := d.putAll c [(F.HBM_CH_STAT_SPARES_USED, Nat.min (good [80, 81]).length data.length), (F.HBM_CH_STAT_CHECK_ALT, Nat.min (good [78, 79]).length check.length),
    (F.HBM_CH_STAT_REPL_D0, on_ 80), (F.HBM_CH_STAT_REPL_D1, on_ 81), (F.HBM_CH_STAT_REPL_C0, on_ 78), (F.HBM_CH_STAT_REPL_C1, on_ 79)]
  if (good [80, 81]).length < data.length ∨ (good [78, 79]).length < check.length then
    ((d.put F.HBM_CH_STAT_FAILED c 1).put F.HBM_STAT_FAILED_CH 0 (Nat.min 255 (d.get F.HBM_STAT_FAILED_CH + 1))).raise .spareExhausted 7 (0x820 + c % 8) (2 + 256 * c)
  else d

/-- HBM contents become unspecified, with valid check bits (R157); `zeroed` says that every unit holds zero ciphertext, whose plaintext no requester may rely on
(R173). -/
def Work.forgetHbm (w : Work) (zeroed : Bool) : Work :=
  ((List.range 32).foldl (fun (w : Work) u => w.write (.forget u)) w).on (·.modHbm fun h => { h with kept := ⟨[]⟩, zeroed, vague := [] })

/-- HBM_INIT_COMPLETE (R155, R173, R174): the failed lanes of the channels that have any; a channel of a stack of another height or capacity has all 82 failed. -/
def execHbmInitComplete (failed : List (Fin 256 × List (Fin 82))) (s : State) : Host.Outcome State Fault Refusal :=
  runWork 3 (fun w =>
    if w.dev.isSet F.HBM_STAT_READY then w
    else
      let w := w.forgetHbm true
      w.on fun d => (failed.foldl (fun (d : Dev) x => d.repairChannel x.1 (x.2.map (·.val))) d).put F.HBM_STAT_READY 0 1) s

/-- A write of HBM_MRG_CTL (R176, R182). Log entry notes/assumptions/33.md (DEDUCED). -/
def Dev.writeHbmMrg (d : Dev) (r : Requester) (v : Nat) : Dev :=
  let dwell := bits v 16 8
  let start := v.testBit 10
  if !Dev.whole r then d.answer .partitionDenied
  else if start && !d.validParts.isEmpty then d.answer .writeRefused
  else if start && (dwell = 0 || d.isSet F.HBM_MRG_CTL_BUSY) then d.answer .formatFault
  else
    let d := d.putAll 0 [(F.HBM_MRG_CTL_CHANNEL, bits v 0 8), (F.HBM_MRG_CTL_AXIS, bits v 8 1), (F.HBM_MRG_CTL_DIR, bits v 9 1), (F.HBM_MRG_CTL_DWELL, dwell)]
    (if start then (d.modHbm fun h => { h with run := (bits v 0 8, bits v 8 1) }).putAll 0 [(F.HBM_MRG_CTL_BUSY, 1), (F.HBM_MRG_CTL_DONE, 0)] else d).answer .ok

/-- HBM_MARGIN_START (R176): START with the written CHANNEL, AXIS, DIR and DWELL. -/
def execHbmMarginStart (r : Requester) (v : Word) (s : State) : Host.Outcome State Fault Refusal :=
  runDev 3 (Dev.ask r fun d => d.writeHbmMrg r (Nat.lor v.toNat 1024)) s

/-- A lane of a channel carries data or check bits after repair (R182): check lanes 78 and 79 are the two left unused (notes/assumptions/32.md). -/
def Dev.hbmLaneInUse (d : Dev) (c l : Nat) : Bool :=
  let used (f : Fld) : Bool := d.get f c ≠ 0x7F
  let replaced := [F.HBM_CH_STAT_REPL_D0, F.HBM_CH_STAT_REPL_D1, F.HBM_CH_STAT_REPL_C0, F.HBM_CH_STAT_REPL_C1].any fun f => d.get f c = l
  if l < 78 then !replaced
  else if l = 78 then used F.HBM_CH_STAT_REPL_C0
  else if l = 79 then used F.HBM_CH_STAT_REPL_C1
  else if l = 80 then used F.HBM_CH_STAT_REPL_D0
  else used F.HBM_CH_STAT_REPL_D1

/-- An HBM margin run ends with the steps to the edges of each of its 82 lanes (R175): the channel's first MiB is unspecified, and the entries that waited go on (R176). -/
def Work.endHbmMargin (w : Work) (edges : List (Fin 64 × Fin 64)) : Work :=
  let d := w.dev
  if !d.isSet F.HBM_MRG_CTL_BUSY then w
  else
    let (c, axis) := d.hbm.run
    let limit := if axis = 1 then 10 else 12
    let w := w.write (.forgetChannel (d.isSet F.HBM_CFG_HASH) c)
    Work.pumpHbm <| w.on fun d =>
      let hash := d.isSet F.HBM_CFG_HASH
      let d := d.modHbm fun h => { h with
        kept := h.kept.filter fun u _ => !(hbmChannel hash (32 * u) = c && decide (hbmOffset (32 * u) < 0x100000)), vague := (hash, c) :: h.vague }
      let d := (List.range 82).foldl (fun (d : Dev) k =>
        let (low, high) : Fin 64 × Fin 64 := (edges[k]?).getD (0, 0)
        d.putAll k [(F.HBM_MRG_RES_LOW, low), (F.HBM_MRG_RES_HIGH, high),
          (F.HBM_MRG_RES_PASS, flag (decide (limit ≤ low.val) && decide (limit ≤ high.val))), (F.HBM_MRG_RES_IN_USE, flag (d.hbmLaneInUse c k))]) d
      (d.putAll 0 [(F.HBM_MRG_CTL_BUSY, 0), (F.HBM_MRG_CTL_DONE, 1)]).marginDone .hbm

/-! ### Configuration, ranges and keys -/

/-- A write of HBM_CFG (R157, R182, R384). -/
def Work.writeHbmCfg (w : Work) (r : Requester) (v : Nat) : Work :=
  let d := w.dev
  if !Dev.whole r then w.on (·.answer .partitionDenied)
  else if d.isSet F.HBM_CFG_LOCK || (r = .owner && decide (d.get F.MGMT_BOOT_FW < 4)) then w.on (·.answer .writeRefused)
  else
    let w := if bits v 0 1 = d.get F.HBM_CFG_HASH then w else w.forgetHbm false
    w.on fun d => (d.put F.HBM_CFG_HASH 0 (bits v 0 1)).answer .ok

/-- HBM_CFG_WRITE (R157). -/
def execHbmCfgWrite (r : Requester) (v : Word) (s : State) : Host.Outcome State Fault Refusal :=
  runWork 3 (Work.ask r fun w => w.writeHbmCfg r v.toNat) s

/-- The range overlaps another valid range (R180). -/
def Dev.rangeTaken (d : Dev) (p base size : Nat) : Bool :=
  (List.range 4).any fun q => q ≠ p && d.isSet F.HBM_PART_VALID q && decide (d.get F.HBM_PART_BASE q < base + size) &&
    decide (base < d.get F.HBM_PART_BASE q + d.get F.HBM_PART_SIZE q)

/-- The key slot of an address of HBM or of a store (R178): a partition's, or the management key. -/
def Dev.keySlot (d : Dev) (a : Nat) : Nat :=
  match Region.of a with
  | .hbm a => (d.partOfHbm a).getD 4
  | .under c _ | .bobbin c _ => (d.partOfCore c).getD 4
  | _ => 4

/-- The key under which a slot's units stand: its own, or the one that it held last (R177, R181). -/
def Dev.slotKey (d : Dev) (k : Nat) : Nat := d.hbm.keys.get (d.hbm.gone.get 0 k) k

/-- The ciphertext of a unit of `n` bytes: by its key pair, its number as the tweak, and its bytes (R178). -/
def cipherBytes (key u : Nat) (bs : List Byte) : List Byte := (xtsEncrypt (beBytes 64 key) u (bs.map BitVec.toNat)).map (BitVec.ofNat 8)

/-- What the arrays hold of the data unit at an address (R173, R177, R178, R181): every unit of the part sees `s.mem`, and the array its ciphertext under the slot's
key pair. A unit of HBM that nothing has written since its key changed holds what it held before, and one that nothing has written since initialisation zero
ciphertext. Log entry notes/assumptions/11.md (DESIGN CHOICE). -/
def State.cipherUnit (s : State) (a : Nat) : List Byte :=
  let n := Work.mergeUnit a
  let u := a / n
  let h := s.dev.hbm
  let now := cipherBytes (s.dev.slotKey (s.dev.keySlot a)) u (s.mem.read (u * n) n)
  if hbmTop ≤ a ∨ (s.mem.cells.any fun c => c.1 / n = u) = true then now
  else match h.kept.find u with
    | some (key, bs) => cipherBytes key u bs
    | none => if h.zeroed && !(h.vague.any fun x => hbmChannel x.1 a = x.2 && decide (hbmOffset a < 0x100000)) then List.replicate n 0 else now

/-- The key of `size` units of 16 GiB from `base` changes: what has been written there stays as ciphertext under the old one, and reads as unspecified values (R180,
R181). -/
def Work.changeKey (w : Work) (key base size : Nat) : Work :=
  let units := ((w.mem.cells.filter fun c => decide (c.1 < hbmTop ∧ base ≤ c.1 / 2 ^ 34 ∧ c.1 / 2 ^ 34 < base + size)).map (·.1 / 32)).eraseDups
  let m := w.mem
  (List.range size).foldl (fun (w : Work) i => w.write (.forget (base + i))) <|
    w.on (·.modHbm fun h => { h with kept := units.foldl (fun (t : Tab (Nat × List Byte)) u => t.set u (key, m.read (32 * u) 32)) h.kept })

/-- A valid range is set: key slot p is drawn, and the range reads as unspecified values (R177, R180). -/
def Work.drawKey (w : Work) (p base size : Nat) : Work :=
  (w.changeKey (w.dev.slotKey 4) base size).on fun d =>
    let (k, d) := d.free 512
    (d.putAll p [(F.HBM_PART_VALID, 1), (F.HBM_PART_BASE, base), (F.HBM_PART_SIZE, size), (F.HBM_PART_KEY_LIVE, 1)]).modHbm fun h =>
      { h with revoked := h.revoked.filter (· ≠ p), keys := h.keys.set p k }

/-- A write of HBM_PART_p (R180, R182). A range whose VALID is cleared has lost its key: what it held reads as unspecified values (R181). -/
def Work.writeHbmPart (w : Work) (r : Requester) (p v : Nat) : Work :=
  let d := w.dev
  let base := bits v 1 5
  let size := bits v 6 6
  let say (s : Status) : Work := w.on (·.answer s)
  if !Dev.whole r then say .partitionDenied
  else if d.live p || (d.isSet F.HBM_PART_VALID p && (v.testBit 0 || d.isSet F.HBM_PART_KEY_LIVE p)) then say .writeRefused
  else if v.testBit 0 then
    if size = 0 || decide (32 < base + size) || d.rangeTaken p base size then say .formatFault
    else (w.drawKey p base size).on (·.answer .ok)
  else
    let w := if d.isSet F.HBM_PART_VALID p then
        w.changeKey (d.slotKey p) (d.get F.HBM_PART_BASE p) (d.get F.HBM_PART_SIZE p)
      else w
    w.on fun d => (d.putAll p [(F.HBM_PART_VALID, 0), (F.HBM_PART_BASE, base), (F.HBM_PART_SIZE, size)]).answer .ok

/-- HBM_PART_WRITE (R180). -/
def execHbmPartWrite (r : Requester) (p : Fin 4) (v : Word) (s : State) : Host.Outcome State Fault Refusal :=
  runWork 3 (Work.ask r fun w => w.writeHbmPart r p v.toNat) s

namespace Dev

/-- The destruction of a partition's key slot begins (R181): its requests, queued or new, complete with KEY_REVOKED. -/
def dropKeySlot (d : Dev) (p : Nat) : Dev :=
  let d := d.modHbm fun h => { h with
    revoked := if p ∈ h.revoked then h.revoked else h.revoked ++ [p]
    dropping := if p ∈ h.dropping then h.dropping else h.dropping ++ [p] }
  (List.range 256).foldl (fun (d : Dev) c => d.flushChannel c .keyRevoked fun a => d.partOfHbm a = some p) (d.put F.HBM_KEY_CTL_BUSY 0 1)

/-- A write of HBM_KEY_CTL (R181, R182). -/
def writeKeyCtl (d : Dev) (r : Requester) (v : Nat) : Dev :=
  if !whole r then d.answer .partitionDenied
  else (((List.range 4).filter fun p => v.testBit p && d.isSet F.HBM_PART_KEY_LIVE p).foldl dropKeySlot d).answer .ok

end Dev

/-- HBM_KEY_DROP (R181). -/
def execHbmKeyDrop (r : Requester) (mask : Fin 16) (s : State) : Host.Outcome State Fault Refusal :=
  runDev 3 (Dev.ask r fun d => d.writeKeyCtl r mask) s

/-- HBM_KEY_DROP_DONE (R181): the slots are destroyed on every channel and store; the ciphertext under them stays. -/
def execHbmKeyDropDone (s : State) : Host.Outcome State Fault Refusal :=
  runDev 3 (fun d =>
    let d := d.hbm.dropping.foldl (fun (d : Dev) p => d.put F.HBM_PART_KEY_LIVE p 0) d
    (d.put F.HBM_KEY_CTL_BUSY 0 0).modHbm fun h =>
      { h with dropping := [], gone := h.dropping.foldl (fun (t : Tab Nat) p => t.set p (h.keys.get 0 p)) h.gone, keys := h.dropping.foldl Tab.erase h.keys }) s

/-- A write of COMMIT to the HBM window's CREEL_COMMIT applies the eight shadows at all 256 channels (R9, R162). -/
def Dev.commitHbmCreel (d : Dev) (r : Requester) : Dev :=
  if !Dev.whole r then d.answer .partitionDenied
  else
    (d.modHbm fun h => { h with
      bias := (List.range 8).foldl (fun (t : Tab Nat) c => t.set c (d.get F.CREEL_BIAS_HBM_BIAS c)) h.bias }).answer .ok

/-- HBM_CREEL_COMMIT (R162). -/
def execHbmCreelCommit (r : Requester) (s : State) : Host.Outcome State Fault Refusal :=
  runDev 3 (Dev.ask r fun d => d.commitHbmCreel r) s

end Sys2Proof.Machine
end

