-- ==== Sys2Proof/Machine/Tenancy.lean ====
section
/-!
DEFINITION. Tenancy: the partition and queue registers (R355, R356, R358, R371), activating (R359), keys (R361 to R363), reclaim and clearing
(R364 to R366), and the debug unlock and monitor mode (R418, R419).
-/

namespace Sys2Proof.Machine

namespace Dev

/-- Change the hidden state of the ports and of tenancy. -/
def modZql (d : Dev) (f : Zql → Zql) : Dev := { d with zql := f d.zql }

/-! ### Definition registers -/

/-- A write of a definition register of partition `p` (R358, R371). -/
def writePartDef (d : Dev) (r : Requester) (reg : Reg) (p v : Nat) : Dev :=
  if !whole r then d.answer .partitionDenied
  else if d.live p then d.answer .writeRefused
  else
    (match reg with
    | .ZQL_PCTL => d.put F.ZQL_PCTL_PORT p (bits v 3 2)
    | .ZQL_PGRP => d.put F.ZQL_PGRP_GROUPS p (bits v 0 16)
    | .ZQL_PFLOW => d.put F.ZQL_PFLOW_FLOWS p (bits v 0 64)
    | .ZQL_PSYNC => d.putAll p [(F.ZQL_PSYNC_PF, bits v 0 32), (F.ZQL_PSYNC_BAR, bits v 32 16)]
    | _ => d).answer .ok

/-- What a write of a queue register of port `q` is refused with (R371): only the bound partition writes, and not once it is CLEARING. Log entry notes/assumptions/63.md (DEDUCED). -/
def queueRefusal (d : Dev) (r : Requester) (q : Nat) : Status :=
  match r with
  | .part p =>
    if d.get F.ZQL_PCTL_PORT p ≠ q then .partitionDenied
    else if d.get F.ZQL_PCTL_STATE p = 1 ∨ d.get F.ZQL_PCTL_STATE p = 2 then .ok
    else .keyRevoked
  | _ => .partitionDenied

/-- The part's HBM range holds a queue of 2^LOG2N entries of `size` bytes at `base`, aligned to its entries (R371). -/
def queueOk (d : Dev) (r : Requester) (base log size : Nat) : Bool :=
  match r with
  | .part p => decide (1 ≤ log ∧ log ≤ 12) && base % size = 0 && d.inRange p base (size * 2 ^ log)
  | _ => false

/-- A write of ZQL_SQ_i of port `q` (R355, R371). -/
def writeSq (d : Dev) (r : Requester) (q i v : Nat) : Dev :=
  let k := 8 * q + i
  let base := bits v 0 48
  let log := bits v 48 4
  let en := v.testBit 52
  let was := d.isSet F.ZQL_SQ_EN k
  let st := d.queueRefusal r q
  if st ≠ .ok then d.answer st
  else if was && (base ≠ d.get F.ZQL_SQ_BASE k || log ≠ d.get F.ZQL_SQ_LOG2N k) then d.answer .writeRefused
  else if en && !d.queueOk r base log 64 then d.answer .formatFault
  else
    let d := d.putAll k [(F.ZQL_SQ_BASE, base), (F.ZQL_SQ_LOG2N, log), (F.ZQL_SQ_EN, flag en)]
    (if en && !was then d.putAll k [(F.ZQL_QPTR_SQ_HEAD, 0), (F.ZQL_QPTR_SQ_TAIL, 0)] else d).answer .ok

/-- A write of ZQL_CQ_i of port `q` (R356, R371). -/
def writeCq (d : Dev) (r : Requester) (q i v : Nat) : Dev :=
  let k := 8 * q + i
  let base := bits v 0 48
  let log := bits v 48 4
  let en := v.testBit 52
  let was := d.isSet F.ZQL_CQ_EN k
  let st := d.queueRefusal r q
  if st ≠ .ok then d.answer st
  else if was && (base ≠ d.get F.ZQL_CQ_BASE k || log ≠ d.get F.ZQL_CQ_LOG2N k) then d.answer .writeRefused
  else if en && !d.queueOk r base log 16 then d.answer .formatFault
  else
    let d := d.putAll k [(F.ZQL_CQ_BASE, base), (F.ZQL_CQ_LOG2N, log), (F.ZQL_CQ_EN, flag en), (F.ZQL_CQ_SIG, bits v 53 1)]
    (if en && !was then (d.putAll k [(F.ZQL_QPTR_CQ_TAIL, 0), (F.ZQL_QPTR_CQ_HEAD, 0)]).put F.ZQL_CQ_PHASE k 1 else d).answer .ok

/-- A write of ZQL_QPTR_i of port `q`: CQ_SYNC (R371). -/
def writeQptr (d : Dev) (r : Requester) (q i v : Nat) : Dev :=
  let st := d.queueRefusal r q
  if st ≠ .ok then d.answer st else (d.put F.ZQL_QPTR_CQ_SYNC (8 * q + i) (bits v 48 16)).answer .ok

/-! ### Debug -/

/-- The debug unlock of partition `p` ends: REPAIR falls to VIEW in the same cycle (R419). -/
def dropUnlock (d : Dev) (p : Nat) : Dev :=
  let d := d.put F.DBG_UNLOCK_HELD p 0
  if d.get F.SYNC_DBG_MODE p = 2 then d.put F.SYNC_DBG_MODE p 1 else d

/-- A write of DBG_UNLOCK_p (R419, R426). -/
def writeUnlock (d : Dev) (r : Requester) (p v : Nat) : Dev :=
  if partOfReq r ≠ some p then d.answer .partitionDenied
  else (if v.testBit 0 then d.put F.DBG_UNLOCK_HELD p 1 else d.dropUnlock p).answer .ok

/-- A write of DBG_MON_CTL: only the owner port, and only downwards (R418, R426). -/
def writeMonCtl (d : Dev) (r : Requester) (v : Nat) : Dev :=
  let mode := bits v 0 2
  if r ≠ .owner || decide (mode < d.get F.DBG_MON_CTL_MODE) then d.answer .partitionDenied
  else if mode = 3 then d.answer .formatFault
  else (d.put F.DBG_MON_CTL_MODE 0 mode).answer .ok

/-! ### What a partition holds -/

/-- The logical cores of a partition's groups. -/
def coresOf (d : Dev) (p : Nat) : List Nat :=
  ((List.range 16).filter fun g => (d.get F.ZQL_PGRP_GROUPS p).testBit g).flatMap fun g => (List.range 64).map fun i => 64 * g + i

/-- The sync objects of a partition: core, Ply and fabric, host, and barrier objects (R16). -/
def objectsOf (d : Dev) (p : Nat) : List Nat :=
  let blocks (n size base : Nat) (set : Nat) : List Nat :=
    ((List.range n).filter fun b => set.testBit b).flatMap fun b => (List.range size).map fun i => base + size * b + i
  blocks 16 3072 0 (d.get F.ZQL_PGRP_GROUPS p) ++ blocks 32 256 49152 (d.get F.ZQL_PSYNC_PF p) ++
    (List.range 1024).map (fun i => 57344 + 1024 * d.get F.ZQL_PCTL_PORT p + i) ++ blocks 16 256 61440 (d.get F.ZQL_PSYNC_BAR p)

/-- The flow contexts of a partition's blocks. -/
def blockFlows (d : Dev) (p : Nat) : List Nat := (List.range 4096).filter fun n => (d.get F.ZQL_PFLOW_FLOWS p).testBit (n / 64)

/-- Zero the objects of a partition (R202, R359, R365). -/
def zeroObjects (d : Dev) (p : Nat) : Dev :=
  (d.objectsOf p).foldl (fun (d : Dev) id =>
    let d := (d.zeroObject id).put F.SYNC_OBJ_LO_WAITERS id 0
    if 61440 ≤ id then (d.setBar (id - 61440) {}).resetReg .SYNC_BAR_STAT (id - 61440) else d) d

/-- Invalidate the flow contexts of a partition's blocks. -/
def zeroFlows (d : Dev) (p : Nat) : Dev := (d.blockFlows p).foldl (fun (d : Dev) n => d.loadCtx n []) d

/-- The Ply step state and the PLY registers of a partition return to reset (R359, R365). -/
def resetPly (d : Dev) (p : Nat) : Dev :=
  let d := ([.PLY_STEP, .PLY_STEP_CTL, .PLY_LS, .PLY_SEED, .PLY_RULE_SEL, .PLY_SKIPS] : List Reg).foldl (fun (d : Dev) r => d.resetReg r p) d
  let d := (List.range 8).foldl (fun (d : Dev) i => d.resetReg .PLY_SPB (8 * p + i)) d
  let d := (List.range 8).foldl (fun (d : Dev) e =>
    ([.PLY_QDROP, .PLY_COMB, .PLY_SPLIT, .PLY_NONFIN, .PLY_SKFALL, .PLY_VRF_LIST, .PLY_VRF_CTL] : List Reg).foldl (fun (d : Dev) r =>
      d.resetReg r (4 * e + p)) d) d
  let x := d.ply
  { d with ply :=
    { spb := x.spb.erase p
      bins := x.bins.filter (·.part ≠ p)
      cursor := x.cursor.filter fun k _ => k % 4 ≠ p
      runs := x.runs.filter (·.part ≠ p)
      marks := x.marks.filter (·.1 ≠ p)
      old := x.old.filter (·.1 ≠ p)
      home := x.home.filter (·.part ≠ p)
      awaiting := x.awaiting.filter (·.1 ≠ p)
      resNext := x.resNext.erase p
      snap := x.snap.erase p
      trust := x.trust.erase p
      boundary := x.boundary.filter (· ≠ p)
      vrf := x.vrf.filter fun k _ => k % 4 ≠ p } }

/-! ### Checks of ACTIVATE -/

/-- Another partition that is not FREE satisfies `f`. -/
def otherLive (d : Dev) (p : Nat) (f : Nat → Bool) : Bool := (List.range 4).any fun q => q ≠ p && d.live q && f q

/-- The checks of ACTIVATE, in order (R359). -/
def activateStatus (d : Dev) (p : Nat) : Status :=
  let groups := d.get F.ZQL_PGRP_GROUPS p
  let meets (f : Fld) : Bool := d.otherLive p fun q => Nat.land (d.get f p) (d.get f q) ≠ 0
  let base := d.get F.HBM_PART_BASE p
  let size := d.get F.HBM_PART_SIZE p
  if d.live p || d.isSet F.HBM_PART_VALID p then .formatFault
  else if d.otherLive p fun q => d.get F.ZQL_PCTL_PORT q = d.get F.ZQL_PCTL_PORT p then .formatFault
  else if groups = 0 || meets F.ZQL_PGRP_GROUPS || (d.coresOf p).any fun c => d.isSet F.MTX_MAP_MISSING c then .formatFault
  else if (List.range 2).any fun die => bits groups (8 * die) 8 ≠ 0 && d.isSet F.LBI_DIE_STAT_WRAP_CLOSED die then .isolated
  else if size = 0 || decide (32 < base + size) || d.rangeTaken p base size || d.get F.HBM_STAT_FAILED_CH ≠ 0 then .formatFault
  else if meets F.ZQL_PFLOW_FLOWS || meets F.ZQL_PSYNC_PF || meets F.ZQL_PSYNC_BAR then .formatFault
  else .ok

/-- Draw a key-agreement key: 0 to 3 for a partition, 4 for the management key (R361). -/
def drawAgree (d : Dev) (k : Nat) : Dev := d.modZql fun z => { z with agree := z.agree.set k z.draws, draws := z.draws + 1 }

/-- Show which partition a port is bound to (R371). -/
def bindPort (d : Dev) (q : Nat) (p : Option Nat) : Dev :=
  d.putAll q [(F.ZQL_PORT_STAT_BOUND, flag p.isSome), (F.ZQL_PORT_STAT_PART, p.getD 0)]

end Dev

namespace Work

/-- Zero the stores and the instruction store of a core, and reset its architectural state (R85, R116). -/
def zeroCore (w : Work) (c : Nat) : Work :=
  ((w.write (.zero (underBase c) 0x180000)).write (.zero (bobbinBase c) 0x80000)).on fun d => d.setCore c {}

/-- ACTIVATE of partition `p` (R359). -/
def activate (w : Work) (p : Nat) : Work × Status :=
  let d := w.dev
  match d.activateStatus p with
  | .ok =>
    let w := w.drawKey p (d.get F.HBM_PART_BASE p) (d.get F.HBM_PART_SIZE p)
    let w := (d.coresOf p).foldl zeroCore w
    let w := w.on fun d =>
      let d := (((d.put F.HBM_CFG_LOCK 0 1).zeroObjects p).zeroFlows p).resetPly p
      let d := ((d.dropUnlock p).drawAgree p).bindPort (d.get F.ZQL_PCTL_PORT p) (some p)
      let d := { d with dead := d.dead.filter (· ≠ p), fab := { d.fab with keys := d.fab.keys.erase p } }
      (d.put F.ZQL_PCTL_STATE p 1).raise .partitionReady p 0x800 0
    (w, .ok)
  | s => (w, s)

/-- The slice key of partition `p` is destroyed (R363): its skeins and flows meet KEY_REVOKED. -/
def dropSliceKey (w : Work) (p : Nat) : Work :=
  let w := w.on fun d => { d with fab := { d.fab with keys := d.fab.keys.modify {} p fun k => { k with key := [], live := false, dropped := k.dropped || k.live } } }
  let w := w.finishSkeins (fun x => x.part = p) .keyRevoked
  w.on fun d => (d.flowsOf p).foldl (fun (d : Dev) n => if d.ctx n .dir = 0 then d.failFlow n .keyRevoked else d) d

/-- Steps 1 to 3 of the clearing of partition `p` (R365). Log entry notes/assumptions/63.md (DEDUCED). -/
def beginClearing (w : Work) (p : Nat) : Work :=
  let w := w.on fun d => ((d.put F.ZQL_PCTL_STATE p 3).dropUnlock p).modZql fun z =>
    { z with deadline := z.deadline.erase p, agree := z.agree.erase p, clearing := z.clearing ++ [p] }
  let w := (w.on fun d => d.dropKeySlot p).dropSliceKey p
  w.on fun d =>
    let d := (d.coresOf p).foldl (fun (d : Dev) c => d.stopCore c) d
    let d := if d.hasPlan p then d.setBank p { d.bank p with stopping := true } else d
    d.emptyStaged p

/-- Step 3 of the clearing has finished (R365): no core runs, no plan is active, no queue entry runs and the key slot is destroyed. -/
def cleared (d : Dev) (p : Nat) : Bool :=
  ((d.coresOf p).all fun c => let r := (d.core c).run; r = .idle || r = .halt) && !d.hasPlan p && !d.isSet F.HBM_PART_KEY_LIVE p &&
    (d.zport (d.get F.ZQL_PCTL_PORT p)).entries.all fun e => e.done.isSome

/-- A four-bit code in every place of a word of 16 codes becomes 0xF. -/
def recode (p v : Nat) : Nat := ((List.range 16).map fun i => (if bits v (4 * i) 4 = p then 15 else bits v (4 * i) 4) * 2 ^ (4 * i)).sum

/-- Steps 4 to 7 of the clearing of partition `p` (R365, R366). Log entry notes/assumptions/63.md (DEDUCED). -/
def endClearing (w : Work) (p : Nat) : Work :=
  let port := w.dev.get F.ZQL_PCTL_PORT p
  let cores := w.dev.coresOf p
  let w := w.on fun d =>
    let ids := d.objectsOf p
    let d := (d.sync.waiters.filter fun x => ids.contains x.id).foldl (fun (d : Dev) x => d.releaseWaiter x .keyRevoked) d
    let d := (((d.zeroObjects p).dropFlows p fun _ => false).zeroFlows p).loadRoutes p []
    let d := (List.range 576).foldl (fun (d : Dev) i => d.setWord .FAB_FSLOT i (BitVec.ofNat 64 (recode p (d.word .FAB_FSLOT i).toNat))) d
    let d := (List.range 32).foldl (fun (d : Dev) i => d.setWord .PLY_PSLOT i (BitVec.ofNat 64 (recode p (d.word .PLY_PSLOT i).toNat))) d
    (d.setBank p {}).resetPly p
  let w := (cores.filter fun c => !w.dev.dieClosed c).foldl zeroCore w
  let w := (cores.filter fun c => w.dev.dieClosed c).foldl (fun (w : Work) c => w.on fun d => d.setCore c {}) w
  let w := w.changeKey (w.dev.slotKey p) (w.dev.get F.HBM_PART_BASE p) (w.dev.get F.HBM_PART_SIZE p)
  w.on fun d =>
    let d := d.modHbm fun h => { h with revoked := h.revoked.filter (· ≠ p) }
    let d := ((d.put F.HBM_PART_VALID p 0).bindPort port none).modZql fun z => { z with clearing := z.clearing.filter (· ≠ p) }
    let d := d.setZport port { d.zport port with entries := [] }
    let d := { d with dead := d.dead.filter (· ≠ p), fab := { d.fab with keys := d.fab.keys.erase p } }
    (d.put F.ZQL_PCTL_STATE p 0).raise .partitionFreed 7 0x800 p

end Work

/-- RECLAIM_DEADLINE (R365): at D the clearing of partition `p` begins; it ends once step 3 has finished. Log entry notes/assumptions/63.md (DEDUCED). -/
def execReclaimDeadline (p : Fin 4) (s : State) : Host.Outcome State Fault Refusal :=
  runWork 8 (fun w =>
    let d := w.dev
    if d.get F.ZQL_PCTL_STATE p = 2 then (w.on fun d => { d with now := Nat.max d.now (d.zql.deadline.get 0 p) }).beginClearing p
    else if d.get F.ZQL_PCTL_STATE p = 3 && Work.cleared d p then w.endClearing p
    else w) s

namespace Dev

/-- RECLAIM of partition `p` with a deadline in ms (R364). -/
def reclaim (d : Dev) (p ms : Nat) : Dev × Status :=
  let t := d.now + ms * 1000000
  let notice (d : Dev) : Dev :=
    ((d.put F.ZQL_PCTL_STATE p 2).modZql fun z => { z with deadline := z.deadline.set p t }).raise .reclaimNotice p 0x800 t
  if 600000 < ms then (d, .formatFault)
  else match d.get F.ZQL_PCTL_STATE p with
    | 1 => (notice d, .ok)
    | 2 => if t < d.zql.deadline.get 0 p then (notice d, .ok) else (d, .formatFault)
    | _ => (d, .formatFault)

/-- RELEASE of partition `p` (R364): D is now. -/
def release (d : Dev) (p : Nat) : Dev :=
  (d.put F.ZQL_PCTL_STATE p 2).modZql fun z => { z with deadline := z.deadline.set p d.now }

/-! ### Keys -/

/-- A slice tag that KEY_SLICE may install for partition `p` (R231, R363). -/
def tagOk (d : Dev) (p tag : Nat) : Bool :=
  tag ≠ 0 && ((List.range 4).all fun q => q = p || !d.holdsTag q tag) &&
    (List.range 64).all fun j => !d.isSet F.FAB_TRN_VALID j || d.get F.FAB_TRN_SLICE j ≠ tag

/-- The key that a message brings under key-agreement key `k` (R362). Log entry notes/assumptions/11.md (DESIGN CHOICE). -/
def openKey (d : Dev) (k op : Nat) (m : List Byte) : Option (List Byte) :=
  (d.zql.agree.find k).bind fun n => openMessage (scalar384 (Config.agreeKey n)) op m

/-- KEY_SLICE (R363). -/
def keySlice (d : Dev) (p : Nat) (m : List Byte) : Dev × Status :=
  let tag := leNat ((m.drop 96).take 2)
  if d.get F.FAB_PLAN_STAT_ACTIVE p = 1 || d.get F.FAB_PLAN_STAT_STAGED p ≠ 0 then (d, .writeRefused)
  else match d.openKey p 0x30 m with
    | some key =>
      if !d.tagOk p tag then (d, .formatFault)
      else ({ d with fab := { d.fab with keys := d.fab.keys.set p { tag, key, live := true, dropped := false }, pctr := d.fab.pctr.set p 0 } }, .ok)
    | none => (d, .formatFault)

/-- KEY_MGMT (R363). -/
def keyMgmt (d : Dev) (m : List Byte) : Dev × Status :=
  match d.openKey 4 0x31 m with
  | some key =>
    if leNat ((m.drop 96).take 2) ≠ 0 then (d, .formatFault)
    else ({ d with fab := { d.fab with keys := d.fab.keys.set 4 { tag := 0, key, live := true, dropped := false } } }, .ok)
  | none => (d, .formatFault)

end Dev

/-- ZQL_SQ_WRITE (R355). -/
def execZqlSqWrite (r : Requester) (q : Fin 4) (i : Fin 8) (v : Word) (s : State) : Host.Outcome State Fault Refusal :=
  runDev 8 (Dev.ask r fun d => d.writeSq r q i v.toNat) s

/-- ZQL_CQ_WRITE (R356). -/
def execZqlCqWrite (r : Requester) (q : Fin 4) (i : Fin 8) (v : Word) (s : State) : Host.Outcome State Fault Refusal :=
  runDev 8 (Dev.ask r fun d => d.writeCq r q i v.toNat) s

/-- DBG_MON_CTL_WRITE (R418). -/
def execDbgMonCtlWrite (r : Requester) (v : Word) (s : State) : Host.Outcome State Fault Refusal :=
  runDev 1 (Dev.ask r fun d => d.writeMonCtl r v.toNat) s

/-- DBG_UNLOCK_WRITE (R419). -/
def execDbgUnlockWrite (r : Requester) (p : Fin 4) (v : Word) (s : State) : Host.Outcome State Fault Refusal :=
  runDev 1 (Dev.ask r fun d => d.writeUnlock r p v.toNat) s

end Sys2Proof.Machine
end

