-- ==== Sys2Proof/Machine/Twist.lean ====
section
/-!
DEFINITION. The twist: the boundary and the slots (R183 to R185, R192 to R196, R249 to R251, R270), beacons, calibration and alignment (R186 to R190), the
period (R191), and slip notices (R194, R195).
-/

namespace Sys2Proof.Machine

namespace Dev

/-- The root runs free (R189). -/
def freeRoot (d : Dev) : Bool := d.isSet F.TWIST_CFG_ROOT && !d.isSet F.TWIST_CFG_FOLLOW

/-- The alignment state (R189): 0 FREE, 1 ACQUIRE, 2 LOCKED, 3 HOLDOVER, 4 UNALIGNED. -/
def align (d : Dev) : Nat := d.get F.TWIST_ALIGN_STATE

/-- Set the alignment state; in FREE and UNALIGNED planned switches run without an exclusion (R272). -/
def setAlign (d : Dev) (st : Nat) : Dev :=
  let d := d.put F.TWIST_ALIGN_STATE 0 st
  if st = 0 ∨ st = 4 then d.switchesAtOnce else d

/-- Change the twist logic's hidden state. -/
def modTw (d : Dev) (f : Twist → Twist) : Dev := { d with tw := f d.tw }

/-! ### The slot start -/

/-- A slot starts (R184, R196, R239, R242, R271): its allowances and its acknowledgement reserve stand again, lanes of a switch without an exclusion return, waiting packets choose
their lanes again, and waiting control units leave. -/
def startSlot (d : Dev) (k : Nat) : Dev :=
  let t := d.tw.boundary + d.slotStart k
  let block := Nat.max d.fab.block (blocksIn t)
  let d := (d.reachTime t).modTw fun x => { x with slot := k }
  let d := { d with fab := { d.fab with spent := ⟨[]⟩, ackSpent := ⟨[]⟩, block, slotBase := block } }
  ((List.range 8).foldl (fun (d : Dev) e => d.lanesReturn e) d).chooseLanes.serveControl

/-! ### The boundary -/

/-- The counter moves on by a twist that starts at `t`, and a period announced for it takes effect (R185, R191). -/
def nextTwist (d : Dev) (t : Nat) : Dev :=
  let n := d.get F.TWIST_CNT_CNT + 1
  let d := (d.reachTime t).setWord .TWIST_CNT 0 (BitVec.ofNat 64 n)
  let d := d.modTw fun x => { x with boundary := t, sinceCal := x.sinceCal + 1 }
  match d.tw.next with
  | some (period, at_) =>
    if at_ ≠ n then d
    else
      let old := d.tw.period
      let changed := decide (period ≠ old)
      let d := d.modTw fun x => { x with period, next := none }
      let ps := (List.range 4).filter d.hasPlan
      if changed && !ps.isEmpty then (ps ++ [7]).foldl (fun (d : Dev) p => d.raise .periodChanged p 0x800 (period + old * 2 ^ 14)) d else d
  | none => d

/-- The slips of partition `p` that were raised at the boundary before apply (R193, R343): the running plan twist runs again. -/
def applySlips (d : Dev) (p : Nat) : Dev :=
  let n := (d.tw.slips.filter fun x => x.part = p && x.target = d.get F.TWIST_CNT_CNT).length
  let again := decide (n ≠ 0) && d.hasPlan p
  let d := d.modTw fun x => { x with rerun := x.rerun.filter (· ≠ p) ++ (if again then [p] else []) }
  if again then
    (d.count .TWIST_SLIPS p n).modTw fun x => { x with entrySlips := x.entrySlips.modify 0 p (· + n) }
  else d

/-- A partition holds a fibre-slot in a group whose lanes are in an exclusion (R249, R270). -/
def inExclusion (d : Dev) (p : Nat) : Bool :=
  (List.range 8).any fun e => (d.swOf e).back.isSome && decide (p ∈ d.groupParts e (d.get F.OPT_SW_STAT_GROUP e))

/-- The standing declarations of the cores of partition `p`: each overdue one raises a slip and is due one twist later (R193). -/
def coreDeclarations (d : Dev) (p : Nat) : Dev :=
  d.cores.keys.foldl (fun (d : Dev) c =>
    match (d.core c).due with
    | some t =>
      if d.partOfCore c = some p && decide (t < d.planTwist p) then (d.raiseSlip p c).modCore c fun k => { k with due := some (t + 1) } else d
    | none => d) d

/-- The due marks of the Ply work of partition `p` (R193, R291): an overdue mark raises a slip with its engine's endpoint. -/
def plyDeclarations (d : Dev) (p : Nat) : Dev :=
  let late (m : Nat × Nat × Bool × Int) : Bool := m.1 = p && decide (m.2.2.2 < d.planTwist p)
  let engine (m : Nat × Nat × Bool × Int) : Nat := match d.layerOf p m.2.1 m.2.2.1 with
    | some l => 0x810 + ent l 0 8 3
    | none => 0x810
  let slipped := (d.ply.marks.filter late).foldl (fun (d : Dev) m => d.raiseSlip p (engine m)) d
  { slipped with ply := { slipped.ply with marks := slipped.ply.marks.map fun m => if late m then (m.1, m.2.1, m.2.2.1, m.2.2.2 + 1) else m } }

/-- The source at a boundary (R187, R189): a source whose beacon is missing is given up, and a LOCKED part goes to HOLDOVER. -/
def checkSource (d : Dev) : Dev :=
  if d.freeRoot then d
  else
    let seen := d.tw.seen
    let st := d.align
    let d := d.modTw fun x => { x with seen := false, choosing := !seen, held := x.held + 1 }
    if st = 2 && !seen then (d.setAlign 3).modTw fun x => { x with held := 0, heldAt := d.now } else d

/-- Waits of cores with a timeout count the boundaries (R142), and TWAITs whose plan twist has come are released (R145). -/
def boundaryWaits (d : Dev) : Dev :=
  let d := { d with sync := { d.sync with waiters := d.sync.waiters.map fun (x : Waiter) =>
    match x.reply with
    | .core _ _ _ => { x with left := x.left.map (· - 1) }
    | _ => x } }
  { d with cores := d.cores.mapValues fun c k =>
    match k.stall with
    | .twist n => if n ≤ d.corePlanTwist c then { k.advance with stall := .none } else k
    | _ => k }

/-- The beacons of a boundary (R186): one on every lane in use whose lock is verified, with OFFSET the time from the boundary to its first bit. A root sends its own id with HOPS 1. -/
def sendBeacons (d : Dev) : Dev :=
  if d.align ≠ 2 ∧ d.align ≠ 3 then d
  else
    let (root, hops) : Nat × Nat := match d.isSet F.TWIST_CFG_ROOT, d.tw.source with
      | false, some b => (b.root, d.get F.TWIST_ALIGN_HOPS + 1)
      | _, _ => (d.fabId, 1)
    let (np, na) := d.tw.next.getD (0, 0)
    lanes.foldl (fun (d : Dev) x =>
      match d.slotPerm x.1 x.2.1 0 with
      | some (perm, _) =>
        if d.laneLit x.1 x.2.1 x.2.2 (permLine perm x.2.2) then
          let start := d.laneStart (laneNo x)
          let b : Beacon := { root, hops, count := d.get F.TWIST_CNT_CNT, offset := (start - d.fab.slotBase) * 256 / 25, period := d.tw.period
                              nextPeriod := np, nextAt := na, sender := d.fabId }
          d.sendControl .beacon (laneNo x) start b.unit
        else d
      | none => d) d

/-- The steps that wait for a boundary begin (R300). -/
def plyBoundary (d : Dev) : Dev :=
  { d with ply := { d.ply with
    boundary := d.ply.boundary ++ (List.range 4).filter fun p => d.isSet F.PLY_STEP_SPB_OK p && !(decide (p ∈ d.ply.boundary)) } }

end Dev

/-- A switch or a STOP of a partition at a boundary (R249 to R251). -/
def Work.boundaryPlan (w : Work) (p : Nat) : Work :=
  let w := if (w.dev.bank p).stopping then w.stopPlan p else w
  let b := w.dev.bank p
  match b.staged, b.switchAt with
  | some a, some sw => if (sw : Int) ≤ w.dev.switchTwist p && !w.dev.inExclusion p then w.switchPlan p a sw else w
  | _, _ => w

/-- A boundary (R185): the counter, slips, light exclusions, plans, declarations, heat notices, waits, slot 0, beacons and FREEZE,
which captures what stood before this edge (R410). -/
def Work.boundary (w : Work) : Work :=
  let ps := List.range 4
  let edge := w.dev.tw.boundary + w.dev.tw.period * 1000
  let pre := w.dev.reachTime edge
  let w := w.on fun d => ps.foldl (fun (d : Dev) p => d.setBank p { d.bank p with before := d.lanePlan p }) d
  let w := w.on fun d => ps.foldl Dev.applySlips (d.nextTwist edge)
  let w := w.on fun d => (List.range 8).foldl Dev.exclusionBoundary d
  let w := ps.foldl Work.boundaryPlan w
  w.on fun d =>
    let d := ps.foldl (fun (d : Dev) p => if d.hasPlan p then (d.coreDeclarations p).plyDeclarations p else d) d
    let d := (d.plyBoundary.heatNotices.checkSource.boundaryWaits.startSlot 0).sendBeacons
    (d.freezeBoundary pre (d.get F.TWIST_CNT_CNT)).captureTwist

/-- PLAN_SLOT_START (R184): the next slot of the twist. -/
def execPlanSlotStart (s : State) : Host.Outcome State Fault Refusal :=
  runDev 2 (fun d => if d.align = 0 || decide (63 ≤ d.tw.slot) then d else d.startSlot (d.tw.slot + 1)) s

/-! ### Alignment -/

namespace Dev

/-- A beacon is one that the part may select (R187): of its own pod's root for a member, of FOLLOW_ID for a following root. -/
def beaconOk (d : Dev) (b : Beacon) : Bool :=
  if d.isSet F.TWIST_CFG_ROOT then d.isSet F.TWIST_CFG_FOLLOW && b.root = d.get F.TWIST_CFG_FOLLOW_ID
  else b.root / 256 = d.fabId / 256

/-- The count is consistent for a new source: an aligned part takes only its own count (R187). -/
def countOk (d : Dev) (b : Beacon) : Bool := (d.align ≠ 2 && d.align ≠ 3) || b.count = d.get F.TWIST_CNT_CNT

/-- The beacon is the selected source's, or becomes it: none has been selected, or of this twist's it has the lowest HOPS, then the lowest SENDER
(R187). -/
def isSource (d : Dev) (b : Beacon) : Bool :=
  match d.tw.source with
  | none => d.countOk b
  | some x =>
    x.sender = b.sender ||
      (d.tw.choosing && d.countOk b &&
        (!d.tw.seen || decide (b.hops < x.hops) || (b.hops = x.hops && decide (b.sender < x.sender))))

/-- The part takes the beacon's sender as its source; a new one is not calibrated (R187, R188). -/
def takeSource (d : Dev) (b : Beacon) : Dev :=
  let same := match d.tw.source with
    | some x => decide (x.sender = b.sender)
    | none => false
  let d := (d.putAll 0 [(F.TWIST_ALIGN_SOURCE, b.sender), (F.TWIST_ALIGN_HOPS, b.hops)]).modTw fun x => { x with source := some b, seen := true }
  if same then d
  else (d.put F.TWIST_CAL_VALID 0 0).modTw fun x => { x with cal := none, good := 0 }

/-- The estimated error, ps: how far the source's boundary lies behind the part's (R187). -/
def beaconError (d : Dev) (b : Beacon) (arrival : Int) : Int :=
  arrival - d.get F.TWIST_CAL_DELAY - b.offset * 125 - d.tw.boundary * 1000

/-- Steer the timebase: the boundary lies where the source's does. -/
def steer (d : Dev) (err : Int) : Dev := d.modTw fun x => { x with boundary := ((x.boundary : Int) + err / 1000).toNat }

/-- Count beacons within ±4 ns (R189). -/
def countGood (d : Dev) (err : Int) : Dev := d.modTw fun x => { x with good := if -4000 ≤ err ∧ err ≤ 4000 then x.good + 1 else 0 }

/-- Adopt the source's counter and period. -/
def adopt (d : Dev) (b : Beacon) : Dev :=
  (d.setWord .TWIST_CNT 0 (BitVec.ofNat 64 b.count)).modTw fun x => { x with period := b.period }

end Dev

/-- Entry to UNALIGNED (R189, R190). `stuck` keeps the part there until PKG_RST_N. -/
def Work.unalign (w : Work) (reason : Nat) (stuck : Bool := false) : Work :=
  let w := if w.dev.align = 4 then w else w.haltPlans reason
  w.on fun d => ((d.put F.TWIST_ALIGN_REASON 0 reason).setAlign 4).modTw fun x => { x with good := 0, stuck := x.stuck || stuck }

/-- A beacon of the source acts on the alignment (R189 to R191). -/
def Work.align (w : Work) (b : Beacon) (arrival : Int) : Work :=
  let d := w.dev
  let st := d.align
  let err := d.beaconError b arrival
  let cnt := d.get F.TWIST_CNT_CNT
  let valid := d.isSet F.TWIST_CAL_VALID
  let noted := if valid then w.on fun d => d.put F.TWIST_ALIGN_ERROR 0 (field 16 (err / 125)) else w
  let noted := if b.nextPeriod = 0 then noted else noted.on fun d => d.modTw fun x => { x with next := some (b.nextPeriod, b.nextAt) }
  if st = 1 then
    if b.count < cnt then noted.unalign 3 true
    else
      let w := noted.on fun d => (d.adopt b).steer err
      if valid then w.on fun d =>
        let d := d.countGood err
        if 16 ≤ d.tw.good then d.setAlign 2 else d
      else w
  else if st = 2 ∨ st = 3 then
    if b.count ≠ cnt then noted.unalign 3
    else if b.period ≠ d.tw.period then noted.unalign 4
    else if !valid then noted
    else if err < -8000 ∨ 8000 < err then noted.unalign 2
    else noted.on fun d => (d.steer err).setAlign 2
  else if st = 4 && !d.tw.stuck then
    let w := noted.on fun d => d.steer err
    if !valid then w
    else
      let w := w.on fun d => d.countGood err
      if w.dev.tw.good < 16 then w
      else if b.count < cnt then w.unalign 3 true
      else w.on fun d => (d.adopt b).setAlign 2
  else noted

/-- A good beacon at its arrival, ps of the timebase (R187, R189). In FREE, and at a root that runs free, it does nothing. -/
def Work.takeBeacon (w : Work) (b : Beacon) (arrival : Int) : Work :=
  let d := w.dev
  if d.align = 0 || d.freeRoot || !d.beaconOk b || !d.isSource b then w
  else (w.on fun d => d.takeSource b).align b arrival

/-- BEACON_RECEIVE (R186, R187, R189): a beacon's unit with its arrival. Log entry notes/assumptions/60.md (DEDUCED). -/
def execBeaconReceive (a : Arrival) (arrival : Int) (s : State) : Host.Outcome State Fault Refusal :=
  runWork 2 (fun w =>
    if !w.dev.delivers a then w
    else
      let w := w.on (·.countBlocks a)
      if a.control 0xB5 222 then w.takeBeacon a.beacon arrival else w) s

/-- HOLDOVER_EXPIRY (R189): HOLDOVER has lasted HOLD twists or 100 ms. -/
def execHoldoverExpiry (s : State) : Host.Outcome State Fault Refusal :=
  runWork 2 (fun w =>
    let d := w.dev
    if d.align = 3 && (decide (d.get F.TWIST_CFG_HOLD ≤ d.tw.held) || decide (100000000 ≤ d.now - d.tw.heldAt)) then w.unalign 1 else w) s

/-! ### Calibration -/

namespace Dev

/-- Send a calibration unit to a part on a lane that reaches it (R188, R223); none while none of them is lit (R257). -/
def sendCal (d : Dev) (k : MsgKind) (kind : Nat) (u : CalUnit) : Option Dev :=
  (d.openLane u.target fun _ _ start guard => decide (start - d.fab.slotBase + 2 ≤ d.slotBlocks guard (start - d.fab.slotBase))).map fun x =>
    d.sendControl k x.1 x.2 (u.unit kind)

/-- Send a calibration request to the source at t1 (R188); without a lit lane the calibration waits for another start. -/
def requestCal (d : Dev) (target : Nat) (l : List Int) : Dev :=
  match d.sendCal .calRequest 0xCA { sender := d.fabId, target } with
  | some d => d.modTw fun x => { x with cal := some (d.now, l) }
  | none => d.modTw fun x => { x with cal := none }

/-- DELAY from 16 exchanges, ps (R188). -/
def calDelay (d : Dev) (l : List Int) : Int := (l.sum * 1000 / 16 + signed 16 (d.get F.TWIST_CAL_ASYM)) / 2

end Dev

/-- CALIBRATION_START (R188): a new source is calibrated, and the source again every 4,096 twists. -/
def execCalibrationStart (s : State) : Host.Outcome State Fault Refusal :=
  runDev 2 (fun d =>
    match d.tw.source, d.tw.cal with
    | some b, none => if !d.isSet F.TWIST_CAL_VALID || decide (4096 ≤ d.tw.sinceCal) then d.requestCal b.sender [] else d
    | _, _ => d) s

/-- CALIBRATION_REQUEST (R188, R223): the part answers with the times of receipt and answer. -/
def execCalibrationRequest (a : Arrival) (s : State) : Host.Outcome State Fault Refusal :=
  runDev 2 (fun d => d.hears a 0xCA 168 fun d =>
    if a.cal.target ≠ d.fabId then d
    else (d.sendCal .calAnswer 0xCB { sender := d.fabId, target := a.cal.sender, t2 := d.now, t3 := d.now }).getD d) s

/-- An answer of the source comes at t4; after 16 exchanges DELAY is calibrated (R188). -/
def Dev.calAnswered (d : Dev) (u : CalUnit) : Dev :=
  match d.tw.source, d.tw.cal with
  | some b, some (t1, l) =>
    if u.target ≠ d.fabId || u.sender ≠ b.sender then d
    else
      let x : Int := ((d.now : Int) - t1) - ((u.t3 : Int) - u.t2)
      let l := l ++ [x]
      if l.length < 16 then d.requestCal b.sender l
      else (d.putAll 0 [(F.TWIST_CAL_DELAY, field 32 (d.calDelay l)), (F.TWIST_CAL_VALID, 1)]).modTw fun t => { t with cal := none, sinceCal := 0 }
  | _, _ => d

/-- CALIBRATION_ANSWER (R188, R223). -/
def execCalibrationAnswer (a : Arrival) (s : State) : Host.Outcome State Fault Refusal :=
  runDev 2 (fun d => d.hears a 0xCB 168 fun d => d.calAnswered a.cal) s

/-! ### Configuration -/

/-- A write of TWIST_CFG (R189 to R191, R215). -/
def Work.writeTwistCfg (w : Work) (r : Requester) (v : Nat) : Work :=
  let d := w.dev
  let enable := v.testBit 1
  let follow := v.testBit 2
  let was := d.isSet F.TWIST_CFG_ENABLE
  if !Dev.whole r then w.on (·.answer .partitionDenied)
  else if follow && !d.isSet F.TWIST_CFG_ROOT then w.on (·.answer .writeRefused)
  else if bits v 19 6 = 0 then w.on (·.answer .formatFault)
  else
    let w := w.on fun d => (d.putAll 0 [(F.TWIST_CFG_ENABLE, flag enable), (F.TWIST_CFG_FOLLOW, flag follow), (F.TWIST_CFG_FOLLOW_ID, bits v 3 16),
      (F.TWIST_CFG_HOLD, bits v 19 6)]).answer .ok
    if enable && !was then w.on fun d =>
      let d := d.modTw fun x => { x with boundary := d.now, slot := 0, source := none, seen := false, choosing := true, good := 0, cal := none }
      if d.freeRoot then
        (d.setWord .TWIST_CNT 0 (BitVec.ofNat 64 (Nat.max (d.get F.TWIST_CNT_CNT) (d.get F.TWIST_CNT_INIT_INIT)))).setAlign 2
      else d.setAlign (if d.tw.stuck then 4 else 1)
    else if was && !enable then
      let w := if (List.range 4).any d.hasPlan then w.haltPlans 0 else w
      w.on (·.setAlign 0)
    else w

/-- TWIST_CFG_WRITE (R189). -/
def execTwistCfgWrite (r : Requester) (v : Word) (s : State) : Host.Outcome State Fault Refusal :=
  runWork 2 (Work.ask r fun w => w.writeTwistCfg r v.toNat) s

/-- A write of TWIST_COMMIT (R191, R215): a root schedules PERIOD for TWIST_PERIOD_AT. -/
def Dev.writeTwistCommit (d : Dev) (r : Requester) (v : Nat) : Dev :=
  let at_ := d.get F.TWIST_PERIOD_AT_AT
  if !Dev.whole r then d.answer .partitionDenied
  else if !d.isSet F.TWIST_CFG_ROOT then d.answer .writeRefused
  else if !v.testBit 0 then d.answer .ok
  else if at_ < d.get F.TWIST_CNT_CNT + 16 then d.answer .formatFault
  else (d.modTw fun x => { x with next := some (d.get F.TWIST_PERIOD_PERIOD, at_) }).answer .ok

/-- TWIST_COMMIT (R191). -/
def execTwistCommit (r : Requester) (s : State) : Host.Outcome State Fault Refusal :=
  runDev 2 (Dev.ask r fun d => d.writeTwistCommit r 1) s

/-! ### Slip notices -/

/-- A slip notice for partition `p` from the boundary with counter value `c` (R194, R195, R250): it applies at the next boundary with the others raised there;
one that comes after that is a late slip. -/
def Work.slipNotice (w : Work) (p c : Nat) : Work :=
  let d := w.dev
  let cnt := d.get F.TWIST_CNT_CNT
  if c < (d.word .TWIST_START p).toNat || d.tw.slips.any fun x => x.part = p && x.at_ = c then w
  else if cnt < c + 1 then w.on fun d => d.modTw fun x => { x with slips := x.slips ++ [⟨p, c, c + 1, false⟩] }
  else
    let w := w.on fun d => (d.modTw fun x => { x with slips := x.slips ++ [⟨p, c, cnt + 1, false⟩] }).raise .lateSlip p 0x800 c
    w.finishSkeins (fun x => x.part = p) .deadlineMissed

/-- SLIP_NOTICE (R194, R195, R245). -/
def execSlipNotice (slice : Fin 65536) (c : Word) (s : State) : Host.Outcome State Fault Refusal :=
  runWork 2 (fun w => ((List.range 4).filter fun p => w.dev.hasPlan p && w.dev.sliceTag p = slice.val).foldl (fun (w : Work) p => w.slipNotice p c.toNat) w) s

end Sys2Proof.Machine
end

