-- ==== Sys2Proof/Machine/RegWrite.lean ====
section
/-!
DEFINITION. Register accesses (R6 to R9, R407, R409): the register that an address names, who may read and write it (R43, R79, R115, R150, R182, R215,
R252, R277, R318, R344, R371, R396, R413, R426), what a write does, and the opening of a die's wrappers (R48).
-/

namespace Sys2Proof.Machine

/-- The register at offset `off` of window `win`, with its index (R154, R281). -/
def Reg.at? (win off : Nat) : Option (Reg × Nat) :=
  Reg.all.findSome? fun r =>
    let n := r.info
    if n.win ≤ win ∧ win < n.win + n.views ∧ n.off ≤ off ∧ (off - n.off) % n.stride = 0 ∧ (off - n.off) / n.stride < n.count then
      some (r, (if n.copies = 1 then 0 else (win - n.win) * n.count) + (off - n.off) / n.stride)
    else none

/-- The register that a local address names, whether it is the snapshot (R409), and its index. -/
def Reg.find (a : Nat) : Option (Reg × Bool × Nat) :=
  match Region.of a with
  | .csr o =>
    let off := o % 0x1000000
    if off < 0x800000 then (Reg.at? (o / 0x1000000) off).map fun x => (x.1, false, x.2)
    else match Reg.at? (o / 0x1000000) (off - 0x800000) with
      | some (.EVT_LOG, _) => none
      | some (r, i) => some (r, true, i)
      | none => none
  | _ => none

/-- A counter under the counter rule (R406). -/
def Reg.isCounter (r : Reg) : Bool := r.fields.any fun f => f.acc = .cnt

/-- A register of one core: the CORE, MTX and STR registers with an index n (R79, R115, R150). -/
def Reg.ofCore (r : Reg) : Bool := decide (4 ≤ r.info.win ∧ r.info.win ≤ 6) && decide (r.info.count = 1024)

/-- What a write leaves in the plain fields of a register (R8): RW and SH fields take the value, W1C bits are cleared by ones, the others stay. -/
def Reg.plain (r : Reg) (old v : Nat) : Nat :=
  r.fields.foldl (fun x f =>
    match f.acc with
    | .rw | .sh => putBits x f.lo (f.hi - f.lo + 1) (bits v f.lo (f.hi - f.lo + 1))
    | .w1c => putBits x f.lo (f.hi - f.lo + 1) (bits (Nat.land old (Nat.xor v (2 ^ 64 - 1))) f.lo (f.hi - f.lo + 1))
    | _ => x) old

namespace Dev

/-- Who may read a register (the access rules of the blocks). -/
def mayRead (d : Dev) (q : Requester) (r : Reg) (i : Nat) : Bool :=
  let all := whole q
  let own (p : Nat) : Bool := all || ownPart q p
  match r with
  | .LBI_CAP | .LBI_DIE_STAT | .LBI_WRAP_CTL | .LBI_PORT_STAT | .LBI_PORT_CTL | .LBI_REPLAY | .LBI_RETRAIN | .LBI_MRG_CTL | .LBI_MRG_RES => true
  | .HBM_THERM | .HBM_THERM_SUM | .HBM_STAT => true
  | .TWIST_CFG | .TWIST_PERIOD | .TWIST_CNT | .TWIST_ALIGN => true
  | .TWIST_PERIOD_AT | .TWIST_COMMIT | .TWIST_CNT_INIT | .TWIST_CAL | .SYNC_FAILMAP => false
  | .TWIST_START | .TWIST_SLIPS | .SYNC_DBG | .TWIST_PHASE_BASE | .TWIST_PHASE_IDX => own i
  | .TWIST_PHNOW => own (i / 8)
  | .SYNC_BAR | .SYNC_BAR_STAT => all || d.partOfSync (61440 + i) = partOfReq q
  | .SYNC_BAR_CTL => (d.partOfSync (61440 + i)).isSome && d.partOfSync (61440 + i) = partOfReq q
  | .SYNC_ZERO => all || d.partOfSync (d.get F.SYNC_ZERO_FIRST) = partOfReq q
  | .SYNC_DIE_CTL => q = .mgmt
  | .SYNC_OBJ_LO | .SYNC_OBJ_HI => d.mayReachObj q i 1
  | .FAB_ID | .FAB_PMAP => true
  | .FAB_PLAN_CTL | .FAB_PLAN_STAT | .FAB_PLAN_AT | .FAB_PLAN_SRC | .FAB_RETX => own i
  | .FAB_RT => own (i / 512)
  | .FAB_FCTX => all || d.partOfFlow (i / 8) = partOfReq q
  | .OPT_CFG | .OPT_SW_CTL | .OPT_SW_STAT | .OPT_SW_AT | .OPT_DSTAT | .OPT_BASELINE | .OPT_POWER | .LANE_CTL | .LANE_MRG_CTL | .LANE_MRG_RES
  | .LANE_RXPERM | .LANE_STAT | .LANE_CE | .LANE_UE | .LANE_MISLOCK | .LANE_RING => true
  | .PLY_STEP | .PLY_STEP_CTL | .PLY_LS | .PLY_SEED | .PLY_RULE_SEL | .PLY_SKIPS => own i
  | .PLY_SPB => own (i / 8)
  | .PLY_QDROP | .PLY_COMB | .PLY_SPLIT | .PLY_NONFIN | .PLY_SKFALL | .PLY_VRF_LIST | .PLY_VRF_CTL => own (i % 4)
  | .ZQL_PORT_STAT | .ZQL_NAK | .ZQL_RETRAIN | .ZQL_EVDROP => true
  | .ZQL_SQ | .ZQL_CQ | .ZQL_QPTR => all || (d.partOfPort (i / 8)).isSome && d.partOfPort (i / 8) = partOfReq q
  | .ZQL_PCTL | .ZQL_PGRP | .ZQL_PFLOW | .ZQL_PSYNC | .DBG_UNLOCK => own i
  | .RST_STAT | .RST_STRAP | .MGMT_BOOT | .DBG_IDCODE => true
  | r => all || r.ofCore && (d.partOfCore i).isSome && d.partOfCore i = partOfReq q

/-- Who may write a register without a write operation of its own, and the counters (R407). Log entry notes/assumptions/14.md (DEDUCED). -/
def mayWritePlain (d : Dev) (q : Requester) (r : Reg) (i : Nat) : Bool :=
  let all := whole q
  match r with
  | .FAB_PLAN_AT | .FAB_PLAN_SRC | .PLY_SEED | .PLY_RULE_SEL | .PLY_SKIPS => ownPart q i
  | .PLY_SPB => ownPart q (i / 8)
  | .PLY_QDROP | .PLY_COMB | .PLY_SPLIT | .PLY_NONFIN | .PLY_SKFALL | .PLY_VRF_LIST => ownPart q (i % 4)
  | .PLY_STAT | .FAB_ID | .FAB_PLAN_STAT | .FAB_RT | .FAB_FCTX | .ZQL_PORT_STAT | .SYNC_FAILMAP | .SYNC_OBJ_HI | .MTX_REPAIR | .DBG_IDCODE => false
  | .SYNC_BAR_STAT => (d.partOfSync (61440 + i)).isSome && d.partOfSync (61440 + i) = partOfReq q
  | .CORE_ILD => d.mayWriteCore q i
  | .MTX_STAT | .STR_STAT | .STR_DMA_STAT => d.mayWriteCore q i
  | r => if r.ofCore then all && (d.partOfCore i).isNone else all

/-- The access status of a write, register by register (the access rules of the blocks): what the register's write operation, or `writePlain`, asks first where the value written
does not matter. Log entry notes/assumptions/14.md (DEDUCED). -/
def writeAccess (d : Dev) (q : Requester) (r : Reg) (i : Nat) : Status :=
  let when_ (b : Bool) : Status := if b then .ok else .partitionDenied
  match r with
  | .CORE_CTL => when_ (d.mayWriteCore q i)
  | .SYNC_DBG | .DBG_UNLOCK => when_ (partOfReq q = some i)
  | .SYNC_ZERO => when_ (d.mayZero q (d.get F.SYNC_ZERO_FIRST) 0)
  | .SYNC_DIE_CTL => when_ (q = .mgmt)
  | .SYNC_BAR | .SYNC_BAR_CTL => when_ (d.mayWriteBar q i)
  | .SYNC_OBJ_LO => when_ (d.mayReachObj q i 2)
  | .FAB_PLAN_CTL | .PLY_STEP | .PLY_STEP_CTL | .PLY_LS | .TWIST_PHASE_BASE => when_ (ownPart q i)
  | .PLY_VRF_CTL => when_ (ownPart q (i % 4))
  | .ZQL_SQ | .ZQL_CQ | .ZQL_QPTR => d.queueRefusal q (i / 8)
  | .DBG_MON_CTL => when_ (q = .owner)
  | r => when_ (d.mayWritePlain q r i)

/-- What the value of a write breaks: an encoding listed as reserved, or a register that does not take writes now (R7). FAB_SPERM_k counts at no time as the
active, unshadowed table of R9: log entry notes/assumptions/14.md (DESIGN CHOICE). -/
def plainStatus (d : Dev) (r : Reg) (i v : Nat) : Status :=
  match r with
  | .TWIST_PERIOD =>
    if !d.isSet F.TWIST_CFG_ROOT then .writeRefused
    else if bits v 0 14 < 10 ∨ 10000 < bits v 0 14 then .formatFault else .ok
  | .TWIST_PERIOD_AT => if d.isSet F.TWIST_CFG_ROOT then .ok else .writeRefused
  | .TWIST_CNT_INIT => if d.get F.TWIST_ALIGN_STATE = 0 then .ok else .writeRefused
  | .HBM_THERM_CFG => if 105 < bits v 8 8 ∨ bits v 8 8 ≤ bits v 0 8 then .formatFault else .ok
  | .FAB_SPERM => if !isPerm v || decide (bits v 24 10 < 2) then .formatFault else .ok
  | .OPT_CFG => if bits v 1 5 < 2 then .formatFault else .ok
  | .PLY_SEED => if d.get F.PLY_STEP_STATE i = 0 then .ok else .writeRefused
  | _ => .ok

/-- A write of a register that has no operation of its own. Log entry notes/assumptions/14.md (DEDUCED). -/
def writePlain (d : Dev) (q : Requester) (r : Reg) (i v : Nat) : Dev :=
  if !d.mayWritePlain q r i then d.answer .partitionDenied
  else if r.ofCore && d.dieClosed i then d.answer .isolated
  else match d.plainStatus r i v with
    | .ok =>
      let d :=
        if r = .EVT_LOG_HEAD ∨ r = .TWIST_SLIPS ∨ r = .TWIST_PHASE_IDX then d
        else if r.isCounter then d.setWord r i 0
        else d.setWord r i (BitVec.ofNat 64 (r.plain (d.word r i).toNat v))
      d.answer .ok
    | s => d.answer s

/-- A write of MTX_TEST_CTL (R79). -/
def writeTestCtl (d : Dev) (q : Requester) (v : Nat) : Dev :=
  if !whole q then d.answer .partitionDenied
  else if v.testBit 10 then d.startArrayTest (bits v 0 10)
  else (d.put F.MTX_TEST_CTL_CORE 0 (bits v 0 10)).answer .ok

/-- A die's wrappers may open (R48): DIE_ALIVE is high, a port is ACTIVE and all 64 have settled port 0's agreement. Log entry notes/assumptions/30.md (DEDUCED). -/
def mayOpen (d : Dev) (die : Nat) : Bool :=
  let first := (d.bport (64 * die)).agreed
  d.isSet F.LBI_DIE_STAT_ALIVE die && first.isSome && decide (1 ≤ d.get F.LBI_DIE_STAT_PORTS_ACTIVE die) &&
    (List.range 64).all fun i => (d.bport (64 * die + i)).agreed = first

/-- A die's wrappers open (R48). -/
def openWrap (d : Dev) (die : Nat) : Dev := d.putAll die [(F.LBI_DIE_STAT_WRAP_CLOSED, 0), (F.LBI_DIE_STAT_LOST, 0)]

/-- A write of LBI_WRAP_CTL_n (R43, R48). -/
def writeWrapCtl (d : Dev) (q : Requester) (die v : Nat) : Dev :=
  if !whole q then d.answer .partitionDenied
  else if !v.testBit 0 then d.answer .ok
  else if d.mayOpen die then (d.openWrap die).answer .ok
  else d.answer .isolated

end Dev

/-- A write of register `r`, index `i` (R7, R8): by the operation of its block where it has one. -/
def Work.writeReg (w : Work) (q : Requester) (r : Reg) (i v : Nat) : Work :=
  match r with
  | .LBI_WRAP_CTL => w.on (·.writeWrapCtl q i v)
  | .LBI_PORT_CTL => w.on (·.writePortCtl q i v)
  | .LBI_MRG_CTL => w.on (·.writeBondMrg q v)
  | .MTX_TEST_CTL => w.on (·.writeTestCtl q v)
  | .CORE_CTL => w.on (·.writeCoreCtl q i v)
  | .HBM_CFG => w.writeHbmCfg q v
  | .CREEL_COMMIT_HBM => if v.testBit 0 then w.on (·.commitHbmCreel q) else w.on (·.writePlain q r i v)
  | .HBM_PART => w.writeHbmPart q i v
  | .HBM_KEY_CTL => w.on (·.writeKeyCtl q v)
  | .HBM_MRG_CTL => w.on (·.writeHbmMrg q v)
  | .TWIST_CFG => w.writeTwistCfg q v
  | .TWIST_COMMIT => w.on (·.writeTwistCommit q v)
  | .SYNC_DBG => w.on (·.writeDbg q i v)
  | .SYNC_ZERO => w.on (·.writeZero q v)
  | .SYNC_DIE_CTL => w.on (·.writeDieCtl q v)
  | .SYNC_BAR => w.on (·.writeBar q i v)
  | .SYNC_BAR_CTL => w.on (·.writeBarCtl q i v)
  | .SYNC_OBJ_LO => w.on (·.writeObject q i v)
  | .CREEL_COMMIT_FAB => if v.testBit 0 then w.on (·.commitLaneCreel q) else w.on (·.writePlain q r i v)
  | .FAB_PLAN_CTL => w.on (·.writePlanCtl q i v)
  | .FAB_PMAP => w.on (·.writePmap q i v)
  | .FAB_FSLOT => w.on (·.writeFslot q i v)
  | .FAB_TRN => w.on (·.writeTrn q i v)
  | .OPT_SW_CTL => w.on (·.writeSwCtl q i v)
  | .OPT_BASELINE => w.on (·.writeBaseline q (i / 24) (i % 24) v)
  | .LANE_CTL => w.on (·.writeLaneCtl q i v)
  | .LANE_MRG_CTL => w.on (·.writeLaneMrg q i v)
  | .LANE_RXPERM => w.on (·.writeRxPerm q i v)
  | .PLY_PSLOT => w.on (·.writePslot q i v)
  | .PLY_STEP => w.on (·.writeStep q i v)
  | .PLY_STEP_CTL => w.writeStepCtl q i v
  | .PLY_LS => w.on (·.writeLs q i v)
  | .PLY_VRF_CTL => w.on (·.writeVrfCtl q (i / 4) (i % 4) v)
  | .TWIST_PHASE_BASE => w.on (·.writePhaseBase q i v)
  | .ZQL_SQ => w.on (·.writeSq q (i / 8) (i % 8) v)
  | .ZQL_CQ => w.on (·.writeCq q (i / 8) (i % 8) v)
  | .ZQL_QPTR => w.on (·.writeQptr q (i / 8) (i % 8) v)
  | .ZQL_PCTL | .ZQL_PGRP | .ZQL_PFLOW | .ZQL_PSYNC => w.on (·.writePartDef q r i v)
  | .EVT_FRZ_CTL => w.on (·.writeFrzCtl q v)
  | .DBG_MON_CTL => w.on (·.writeMonCtl q v)
  | .DBG_UNLOCK => w.on (·.writeUnlock q i v)
  | r => w.on (·.writePlain q r i v)

/-- The domain whose release a register's window needs (R379). The windows of the compute dies' cores answer for themselves through the wrappers (R46). Log entry notes/assumptions/14.md (DEDUCED). -/
def Reg.domain (r : Reg) : Nat :=
  let n := r.info.win
  if n = 3 ∨ n = 8 ∨ n = 9 ∨ (4 ≤ n ∧ n ≤ 6) then 2
  else if n = 7 then 3
  else if 10 ≤ n ∧ n ≤ 18 then 4
  else if 19 ≤ n ∧ n ≤ 26 then 7
  else if 27 ≤ n ∧ n ≤ 30 then 8
  else 1

/-- A write of `size` bytes at a local address of the control and status space (R6, R7, R409): every register is one aligned 64-bit word, a write
of a snapshot changes nothing, and a domain that has not been released performs nothing (R379). -/
def Work.writeCsr (w : Work) (q : Requester) (a size v : Nat) : Work :=
  match Reg.find a with
  | some (r, snap, i) =>
    if size ≠ 8 then w.on (·.answer .formatFault)
    else if !w.dev.released r.domain then w
    else if snap then w.on fun d => d.answer (d.writeAccess q r i)
    else w.writeReg q r i v
  | none => w.on (·.answer .formatFault)

/-- A write whose status goes into an answer: a register that performs nothing answers OK. Log entry notes/assumptions/14.md (DESIGN CHOICE). -/
def Work.putCsr (w : Work) (q : Requester) (a size v : Nat) : Work := (w.on (·.answer .ok)).writeCsr q a size v

/-- A read of `size` bytes at a local address of the control and status space (R6 to R8, R409): the status and the value. -/
def Dev.readCsr (d : Dev) (q : Requester) (a size : Nat) : Status × Word :=
  match Reg.find a with
  | some (r, snap, i) =>
    if size ≠ 8 then (.formatFault, 0)
    else if !d.mayRead q r i then (.partitionDenied, 0)
    else if r.ofCore && d.dieClosed i && !snap then (.isolated, 0)
    else (.ok, if snap then d.snaps.get (r.reset i) (r.addr i) else d.view r i)
  | none => (.formatFault, 0)

/-- REGISTER_WRITE (R6 to R9). -/
def execRegisterWrite (q : Requester) (a : Fin 4398046511104) (size : Fin 65) (v : Word) (s : State) : Host.Outcome State Fault Refusal :=
  runWork 1 (Work.ask q fun w => w.writeCsr q a size v.toNat) s

/-- LBI_WRAP_OPEN (R48): 1 is written to LBI_WRAP_CTL_n.OPEN. -/
def execLbiWrapOpen (q : Requester) (die : Fin 2) (s : State) : Host.Outcome State Fault Refusal :=
  runDev 2 (Dev.ask q fun d => d.writeWrapCtl q die 1) s

end Sys2Proof.Machine
end

