-- ==== Sys2Proof/Machine/Zql.lean ====
section
/-!
DEFINITION. The frames of a control port (R349 to R352): who may send them and when (R357, R365, R384), reads, writes, doorbells, signals and waits; and its
queue engine (R355, R356).
-/

namespace Sys2Proof.Machine

namespace Dev

/-! ### Who may send a frame -/

/-- The commands that only the owner port sends, with ROLE 1 (R354). -/
def ownerOps : List Nat := [0x10, 0x11, 0x12, 0x13, 0x20, 0x21, 0x31]

/-- The commands that the bound partition sends, with ROLE 0 (R354). -/
def boundOps : List Nat := [0x02, 0x22, 0x30, 0x32]

/-- The requester that a frame of port `p` stands for (R357). -/
def frameWho (d : Dev) (p : Nat) (f : HostFrame) : Requester :=
  if f.role = 1 then .owner
  else match d.partOfPort p with
    | some q => .part ⟨q % 4, Nat.mod_lt _ (by decide)⟩
    | none => .owner

/-- A frame under a role that does not fit (R354, R357), or of a partition that is CLEARING (R365); IDENTITY fits any port under either role (R354). Log entry
notes/assumptions/65.md (DEDUCED). -/
def roleStatus (d : Dev) (p : Nat) (f : HostFrame) : Status :=
  let command := decide (f.type = 10)
  let identity := command && f.op = 1
  if f.role = 1 then if (p ≠ d.ownerPort && !identity) || (command && boundOps.contains f.op) then .partitionDenied else .ok
  else if command && ownerOps.contains f.op then .partitionDenied
  else match d.partOfPort p with
    | none => if identity then .ok else .partitionDenied
    | some q => if d.get F.ZQL_PCTL_STATE q = 3 then .keyRevoked else .ok

/-- What the stages of R384 refuse. Log entry notes/assumptions/67.md (DEDUCED). -/
def stageStatus (d : Dev) (f : HostFrame) : Status :=
  let fw := d.get F.MGMT_BOOT_FW
  if f.type = 1 ∨ f.type = 3 then
    let early := f.type = 1 && f.role = 1 && match Region.of f.addr with
      | .csr o => decide (o / 0x1000000 < 2)
      | _ => false
    if fw < 4 && !early then .writeRefused else .ok
  else if f.type = 10 then
    if d.isSet F.MGMT_BOOT_HALTED || (fw < 5 && !([0x01, 0x10, 0x11, 0x12].contains f.op)) then .writeRefused else .ok
  else .ok

/-- The fields follow the rules of the frame's type (R349, R350): those that the type does not use are zero. Log entry notes/assumptions/65.md (DEDUCED). -/
def fieldsOk (f : HostFrame) : Bool :=
  let bytes (n : Nat) : Bool := decide (1 ≤ n ∧ n ≤ 4096)
  f.kind = 0x5B && f.reservedOk && f.status = 0 && decide (f.len ≤ 256) &&
    match f.type with
    | 1 => bytes f.aux && f.op = 0 && f.q = 0 && f.fn = 0 && f.id = 0 && f.val = 0 && f.len = 0
    | 3 => bytes f.val && f.op = 0 && f.q = 0 && f.fn = 0 && f.id = 0 && f.aux = 0 && f.len = ceilDiv f.val 16
    | 5 => decide (f.q ≤ 7) && decide (f.fn ≤ 1) && f.op = 0 && f.addr = 0 && f.id = 0 && f.aux = 0 && f.len = 0
    | 6 => f.op = 0 && f.q = 0 && f.fn = 0 && f.addr = 0 && f.aux = 0 && f.len = 0
    | 7 => decide (f.fn ≤ 2) && f.op = 0 && f.q = 0 && f.addr = 0 && f.len = 0
    | 10 =>
      f.q = 0 && f.fn = 0 && f.addr = 0 && f.id = 0 &&
        (if f.op = 0x20 ∨ f.op = 0x21 then decide (f.val < 4) else f.val = 0) && (f.op = 0x11 || f.op = 0x21 || f.aux = 0)
    | _ => false

/-- What a frame meets before it is performed: of several, the lowest code (R12). -/
def frameStatus (d : Dev) (p : Nat) (f : HostFrame) : Status :=
  ((d.roleStatus p f).lowest (d.stageStatus f)).lowest (if fieldsOk f then .ok else .formatFault)

/-- RESPONSE to a command (R350). -/
def respond (d : Dev) (p : Nat) (f : HostFrame) (s : Status) (data : List Byte := []) : Dev :=
  d.portFrame p { type := 11, tag := f.tag, status := s.code, op := f.op, data }

/-- The response to a frame that is refused: DONE for one whose fields break its rules, else the response of its type (R350). Log entry notes/assumptions/65.md (DEDUCED). -/
def refuseFrame (d : Dev) (p : Nat) (f : HostFrame) (s : Status) : Dev :=
  if s = .formatFault then d.sendDone p f.tag s
  else if f.type = 1 then d.portFrame p { type := 2, tag := f.tag, status := s.code }
  else if f.type = 10 then d.respond p f s
  else d.sendDone p f.tag s

end Dev

/-- A frame arrives: it is accepted on the link, then checked, and one that passes is performed for its requester (R348, R350, R351). One whose memory a margin
run holds back is offered again whole (R176). Log entry notes/assumptions/33.md (DEDUCED). -/
def Work.hostFrame (w₀ : Work) (p : Nat) (f : HostFrame) (body : Requester → Work → Work) (held : Requester → Dev → Bool := fun _ _ => false) : Work :=
  let (d, go) := w₀.dev.acceptFrame p f
  let w := { w₀ with dev := d }
  if !go then w
  else match d.frameStatus p f with
    | .ok => if held (d.frameWho p f) d then w₀ else body (d.frameWho p f) w
    | s => w.on (·.refuseFrame p f s)

/-- The number under which a requester's sync operations run: 4 for the owner port (R448). -/
def rightOf (r : Requester) : Nat := (Dev.partOfReq r).getD 4

/-! ### Reads and writes -/

/-- The bytes that a READ returns, with its status (R350, R351). -/
def Work.hostRead (w : Work) (r : Requester) (p a n : Nat) : Work × Status × List Byte :=
  match Region.of a with
  | .csr _ => let (s, v) := w.dev.readCsr r a n; (w, s, if s = .ok then leBytes 8 v.toNat else [])
  | _ => let (w, s, _, bs) := w.load (Dev.partOfReq r) (0x828 + p) a n; (w, s, bs)

/-- READ (R350, R351); a frame of a reserved type comes here too and is refused. -/
def execRead (p : Fin 4) (f : HostFrame) (s : State) : Host.Outcome State Fault Refusal :=
  runWork 8 (fun w => w.hostFrame p f (fun r w =>
    let (w, st, bs) := w.hostRead r p f.addr f.aux
    w.on (·.portFrame p { type := 2, tag := f.tag, status := st.code, data := takePad (ceilDiv bs.length 16 * 16) 0 bs }))
    fun r d => d.margined (Dev.partOfReq r) f.addr f.aux) s

/-- WRITE (R350, R351). -/
def execWrite (p : Fin 4) (f : HostFrame) (s : State) : Host.Outcome State Fault Refusal :=
  runWork 8 (fun w => w.hostFrame p f (fun r w =>
    let bs := f.payload.take f.val
    match Region.of f.addr with
    | .csr _ => let w := w.putCsr r f.addr f.val (leNat bs); w.on fun d => d.sendDone p f.tag d.reply.1
    | _ => let (w, st, _) := w.store (Dev.partOfReq r) (0x828 + p) f.addr bs; w.on (·.sendDone p f.tag st))
    fun r d => d.margined (Dev.partOfReq r) f.addr f.val) s

/-! ### Doorbells -/

/-- The status of a DOORBELL (R356, R371): its queue is enabled and the value below its size. -/
def Dev.bellStatus (d : Dev) (p : Nat) (f : HostFrame) (r : Requester) : Status :=
  let k := 8 * p + f.q
  let (en, log) := if f.fn = 0 then (d.isSet F.ZQL_SQ_EN k, d.get F.ZQL_SQ_LOG2N k) else (d.isSet F.ZQL_CQ_EN k, d.get F.ZQL_CQ_LOG2N k)
  match d.queueRefusal r p with
  | .ok => if en && decide (f.val < 2 ^ log) then .ok else .formatFault
  | s => s

/-- A doorbell of port `p` sets a pointer, or is refused with DONE. -/
def Dev.ring (d : Dev) (p : Nat) (f : HostFrame) (r : Requester) : Dev :=
  match d.bellStatus p f r with
  | .ok => d.put (if f.fn = 0 then F.ZQL_QPTR_SQ_TAIL else F.ZQL_QPTR_CQ_HEAD) (8 * p + f.q) f.val
  | s => d.sendDone p f.tag s

/-- SQ_DOORBELL (R355, R356). -/
def execSqDoorbell (p : Fin 4) (f : HostFrame) (s : State) : Host.Outcome State Fault Refusal :=
  runWork 8 (fun w => w.hostFrame p f fun r w => w.on (·.ring p f r)) s

/-- CQ_DOORBELL (R356). -/
def execCqDoorbell (p : Fin 4) (f : HostFrame) (s : State) : Host.Outcome State Fault Refusal :=
  runWork 8 (fun w => w.hostFrame p f fun r w => w.on (·.ring p f r)) s

/-! ### Signals and waits -/

/-- SIGNAL (R206, R357): the signal goes to its bank after every earlier write of the port. Log entry notes/assumptions/12.md (DEDUCED). -/
def execSignal (p : Fin 4) (f : HostFrame) (s : State) : Host.Outcome State Fault Refusal :=
  runWork 8 (fun w => w.hostFrame p f fun r w =>
    w.on fun d => d.postSignal (.signal f.id f.val (rightOf r) (0x828 + p) 0xF d.fabId (.port p f.tag))) s

/-- The waits that port `p` holds (R352). -/
def Dev.portWaits (d : Dev) (p : Nat) : Nat :=
  let mine : Reply → Bool
    | .port q _ => q = p
    | _ => false
  (d.sync.waiters.filter fun x => mine x.reply).length + (d.sync.arrivals.filter fun o => match o with
    | .wait _ _ _ _ _ r => mine r
    | .arrive _ _ r => mine r
    | .signal _ _ _ _ _ _ _ => false).length

/-- WAIT (R350, R352): a GE or EQ wait, or the host's arrival at a barrier. -/
def execWait (p : Fin 4) (f : HostFrame) (s : State) : Host.Outcome State Fault Refusal :=
  runWork 8 (fun w => w.hostFrame p f fun r w => w.on fun d =>
    let reply : Reply := .port p f.tag
    if 1024 ≤ d.portWaits p then d.sendDone p f.tag .formatFault
    else if f.fn = 2 ∧ f.id < 61440 then d.sendDone p f.tag ((d.objStatus (Dev.partOfReq r) f.id).orElse .formatFault)
    else
      let x := d.zport p
      let d := d.setZport p { x with timed := if f.aux = 0 then x.timed.erase f.tag else x.timed.set f.tag (d.now + f.aux * 1000) }
      if f.fn = 2 then d.postSignal (.arrive f.id (rightOf r) reply)
      else d.postSignal (.wait f.id f.val (f.fn = 1) (rightOf r) none reply)) s

/-- HOST_WAIT_TIMEOUT (R352): the wait with a TAG gives up at its time with DEADLINE_MISSED and the object's value; a barrier arrival stays counted. Log entry notes/assumptions/61.md (DEDUCED) and notes/assumptions/65.md (DEDUCED). -/
def execHostWaitTimeout (p : Fin 4) (tag : Fin 65536) (s : State) : Host.Outcome State Fault Refusal :=
  runDev 8 (fun d =>
    let x := d.zport p
    match x.timed.find tag, d.sync.waiters.find? (fun (y : Waiter) => y.reply = .port p tag) with
    | some t, some y =>
      let d := { d.setZport p { x with timed := x.timed.erase tag } with now := Nat.max d.now t }
      (d.dropWaiter y).sendDone p tag .deadlineMissed (d.objValue y.id)
    | _, _ => d) s

/-! ### The queue engine -/

namespace Dev

/-- Entries of queue `q` of port `p` that run (R356). -/
def running (d : Dev) (p q : Nat) : Nat := ((d.zport p).entries.filter (·.q = q)).length

/-- Queue `q` of port `p` has an entry, and running entries and completions not yet freed leave it room (R355, R356). Log entry notes/assumptions/66.md (DEDUCED). -/
def queueReady (d : Dev) (p q : Nat) : Bool :=
  let k := 8 * p + q
  let size := 2 ^ d.get F.ZQL_CQ_LOG2N k
  let unfreed := (d.get F.ZQL_QPTR_CQ_TAIL k + size - d.get F.ZQL_QPTR_CQ_HEAD k) % size
  d.isSet F.ZQL_SQ_EN k && d.isSet F.ZQL_CQ_EN k && d.get F.ZQL_QPTR_SQ_HEAD k ≠ d.get F.ZQL_QPTR_SQ_TAIL k &&
    decide (d.running p q + unfreed + 1 < size)

/-- The queues of port `p` in the order in which they are served next (R355). -/
def queueTurn (d : Dev) (p : Nat) : List Nat := (List.range 8).map fun i => ((d.zport p).served + 1 + i) % 8

/-- A malformed entry (R355): a reserved OP, a bit that R355 does not name, or an address outside the partition's HBM range. -/
def submissionOk (d : Dev) (part : Nat) (l : List Nat) : Bool :=
  let w (i : Nat) : Nat := (l[i]?).getD 0
  let op := bits (w 0) 0 8
  let a := w 1
  bits (w 0) 8 8 = 0 && bits (w 0) 32 32 = 0 && (l.drop 2).all (· = 0) &&
    match op with
    | 0 | 4 => a = 0
    | 1 => a % 64 = 0 && decide (a < 2 ^ 48) && d.inRange part a 64
    | 2 => a % 32 = 0 && decide (a < 2 ^ 48) && d.inRange part a 32
    | 3 => bits a 16 16 = 0
    | _ => false

/-- Change a running entry. -/
def modEntry (d : Dev) (p id : Nat) (f : QEntry → QEntry) : Dev :=
  d.setZport p { d.zport p with entries := (d.zport p).entries.map fun e => if e.id = id then f e else e }

end Dev

namespace Work

/-- The port's own mover runs the descriptor of entry `e` with its completion record and signal (R110 to R113, R355); none while a margin run holds one of its accesses
back (R176). A port has no stores of its own: its index lists lie in the partition's HBM range, as its descriptors do (DESIGN CHOICE). Log entry
notes/assumptions/53.md (DESIGN CHOICE). -/
def portDma (w : Work) (part p : Nat) (e : QEntry) (words : List Nat) : Option Work :=
  let x := Desc.of words
  let unit := 0x828 + p
  let (f, d) := w.dev.free 48
  let w := { w with dev := d }
  let m : Moving := if x.okIn (d.inRange part) then Moving.run { wk := w } (some part) unit x else { wk := w, status := .formatFault, fault := f }
  if m.held || m.wk.held then none else
  let (w, st, bytes, fault) := (m.wk, m.status, m.bytes, m.fault)
  let outside := x.sig && w.dev.partOfSync x.sync ≠ some part
  let rec_ := st.orElse (if outside then .partitionDenied else .ok)
  let w :=
    if x.compEn then
      (w.store (some part) unit (Config.portRecords p + 16 * x.comp)
        (leBytes 8 (rec_.code + bytes * 2 ^ 16) ++ leBytes 8 (if rec_ = .ok then 0 else if st = .ok then f else fault))).1
    else w
  some <| w.on fun d =>
    if x.sig && !outside then
      (d.modEntry p e.id fun e => { e with moved := some (rec_, bytes) }).postSignal (.signal x.sync 1 part unit 0xF d.fabId (.entry p e.id))
    else d.modEntry p e.id fun e => { e with done := some (rec_, bytes) }

/-- Start an entry that has been read (R355); none when a margin run holds it back (R176). -/
def startEntry (w : Work) (part p : Nat) (e : QEntry) (l : List Nat) : Option Work :=
  let a := (l[1]?).getD 0
  if !w.dev.submissionOk part l then some <| w.on (·.modEntry p e.id fun e => { e with done := some (.formatFault, 0) })
  else match e.op with
    | 1 => some w
    | 2 =>
      if w.dev.margined (some part) a 32 then none
      else match w.load (some part) (0x828 + p) a 32 with
      | (w, .ok, _, bs) => w.portDma part p e ((List.range 4).map fun i => leNat ((bs.drop (8 * i)).take 8))
      | (w, s, _, _) => some <| w.on (·.modEntry p e.id fun e => { e with done := some (s, 0) })
    | 3 => some <| w.on fun d => d.postSignal (.signal (bits a 0 16) (bits a 32 32) part (0x828 + p) 0xF d.fabId (.entry p e.id))
    | _ => some <| w.on (·.modEntry p e.id fun e => { e with done := some (.ok, 0) })

/-- The entry at the head of queue `q` must wait (R109, R355): a FENCE with earlier entries of its queue running, or a fenced descriptor with earlier ones of
this mover running. -/
def mustWait (w : Work) (p q : Nat) (l : List Nat) : Bool :=
  let op := bits ((l[0]?).getD 0) 0 8
  let fenced := match w.load (w.dev.partOfPort p) (0x828 + p) ((l[1]?).getD 0) 32 with
    | (_, .ok, _, bs) => (Desc.of ((List.range 4).map fun i => leNat ((bs.drop (8 * i)).take 8))).fence
    | _ => false
  (op = 4 && decide (0 < w.dev.running p q)) || (op = 2 && fenced && (w.dev.zport p).entries.any fun e => e.op = 2 && e.done.isNone)

/-- The engine of port `p` tries the entry at the head of queue `q`; nothing when it must wait, or a margin run holds it back (R176). Log entry notes/assumptions/66.md (DEDUCED). -/
def tryQueue (w : Work) (part p q : Nat) : Option Work :=
  let d := w.dev
  let k := 8 * p + q
  let head := d.get F.ZQL_QPTR_SQ_HEAD k
  let size := 2 ^ d.get F.ZQL_SQ_LOG2N k
  let x := d.zport p
  let take (w : Work) (e : QEntry) : Work := w.on fun d =>
    (d.put F.ZQL_QPTR_SQ_HEAD k ((head + 1) % size)).setZport p { x with entries := x.entries ++ [e], served := q, nextEntry := x.nextEntry + 1 }
  let slot := d.get F.ZQL_SQ_BASE k + 64 * head
  if d.margined (some part) slot 64 then none
  else match w.load (some part) (0x828 + p) slot 64 with
  | (w', .ok, _, bs) =>
    let l := (List.range 8).map fun i => leNat ((bs.drop (8 * i)).take 8)
    let w0 := (l[0]?).getD 0
    let e : QEntry := { id := x.nextEntry, q, idx := head, user := bits w0 16 16, op := bits w0 0 8, addr := (l[1]?).getD 0 }
    if w.mustWait p q l then none else (take w' e).startEntry part p e l
  | (w', s, _, _) =>
    let (user, d) := w'.dev.free 16
    some (take { w' with dev := d } { id := x.nextEntry, q, idx := head, user, op := 0, done := some (s, 0) })

end Work

/-- QUEUE_ENTRY_START (R355, R356): the engine of port `p` serves its queues in turn; at most 16 entries run, and none starts once the partition is
CLEARING (R365). Log entry notes/assumptions/12.md (DEDUCED). -/
def execQueueEntryStart (p : Fin 4) (s : State) : Host.Outcome State Fault Refusal :=
  runWork 8 (fun w =>
    let d := w.dev
    match d.partOfPort p with
    | none => w
    | some part =>
      if d.get F.ZQL_PCTL_STATE part = 3 || decide (16 ≤ (d.zport p).entries.length) then w
      else (((d.queueTurn p).filter fun q => d.queueReady p q).findSome? fun q => w.tryQueue part p q).getD w) s

/-- The outcome of an entry, once it has completed: a skein's from the flow engine (R356). -/
def Dev.entryOutcome (d : Dev) (p : Fin 4) (e : QEntry) : Option (Status × Nat) :=
  match e.done with
  | some r => some r
  | none =>
    if e.op = 1 then (d.fab.finished.find? fun x => x.1 = SkeinFrom.host p && x.2.1 = e.addr).map fun x => (x.2.2.1, x.2.2.2) else none

/-- QUEUE_ENTRY_COMPLETE (R356): the `i`-th entry that has completed writes its completion entry, once no margin run holds that back (R176), and signals CQ_SYNC. Log entry notes/assumptions/66.md (DEDUCED). -/
def execQueueEntryComplete (p : Fin 4) (i : Fin 16) (s : State) : Host.Outcome State Fault Refusal :=
  runWork 8 (fun w =>
    let d := w.dev
    match ((d.zport p).entries.filter fun e => (d.entryOutcome p e).isSome)[i.val]?, d.partOfPort p with
    | some e, some part =>
      let k := 8 * p.val + e.q
      let (st, n) := (d.entryOutcome p e).getD (.ok, 0)
      let tail := d.get F.ZQL_QPTR_CQ_TAIL k
      let size := 2 ^ d.get F.ZQL_CQ_LOG2N k
      if d.isSet F.ZQL_CQ_EN k && d.margined (some part) (d.get F.ZQL_CQ_BASE k + 16 * tail) 16 then w else
      let w := w.on fun d =>
        let d := d.setZport p { d.zport p with entries := (d.zport p).entries.filter (·.id ≠ e.id) }
        match d.fab.finished.find? fun x => x.1 = SkeinFrom.host p && x.2.1 = e.addr with
        | some x => if e.op = 1 && e.done.isNone then { d with fab := { d.fab with finished := d.fab.finished.erase x } } else d
        | none => d
      if !d.isSet F.ZQL_CQ_EN k then w
      else
        let w0 := e.idx + e.user * 2 ^ 16 + st.code * 2 ^ 32 + d.get F.ZQL_CQ_PHASE k * 2 ^ 40
        let (w, _) := w.store (some part) (0x828 + p.val) (d.get F.ZQL_CQ_BASE k + 16 * tail) (leBytes 8 w0 ++ leBytes 8 n)
        w.on fun d =>
          let d := d.put F.ZQL_QPTR_CQ_TAIL k ((tail + 1) % size)
          let d := if tail + 1 = size then d.put F.ZQL_CQ_PHASE k (1 - d.get F.ZQL_CQ_PHASE k) else d
          let id := d.get F.ZQL_QPTR_CQ_SYNC k
          if d.isSet F.ZQL_CQ_SIG k && decide (id / 1024 = 56 + p.val) then
            d.postSignal (.signal id 1 part (0x828 + p.val) 0xF d.fabId .none)
          else d
    | _, _ => w) s

end Sys2Proof.Machine
end

