-- ==== Sys2Proof/Machine/Admin.lean ====
section
/-!
DEFINITION. The commands of a control port (R354): identity and attestation reports (R370), firmware load and the fused security version (R367 to R369,
R383, R384), tenancy (R359, R364) and keys (R363).
-/

namespace Sys2Proof.Machine

/-- A command that has passed the checks of its frame: a payload of the wrong length completes with FORMAT_FAULT, else its body answers (R354). -/
def Work.command (w : Work) (p : Nat) (f : HostFrame) (lenOk : Nat → Bool) (body : Work → Work × Status × List Byte) : Work :=
  w.hostFrame p f fun _ w =>
    if !lenOk f.payload.length then w.on (·.respond p f .formatFault)
    else let (w, st, data) := body w; w.on (·.respond p f st data)

namespace Dev

/-! ### Reports -/

/-- The 8 bytes of DIES for a die, from word 0 of its capability block and what its first port has agreed (R34, R370). -/
def dieBytes (d : Dev) (i : Nat) : List Byte :=
  let w0 := if i = 0 then (baseCap[0]?).getD 0 else (d.word .LBI_CAP (4 * i)).toNat
  let agreed := if i = 0 then none else (d.bport (64 * (i - 1))).agreed
  let (lbi, net, feat) : Nat × Nat × Nat := match agreed with
    | some a => (a.lbi, a.net, a.feat % 256)
    | none => (0, 0, 0)
  leBytes 2 (bits w0 32 16) ++ leBytes 2 (bits w0 48 16) ++ leBytes 1 (bits w0 24 8) ++ leBytes 1 lbi ++ leBytes 1 net ++ leBytes 1 feat

/-- Registers as 8 bytes each, in index order. -/
def regBytes (d : Dev) (r : Reg) (first n : Nat) : List Byte := (List.range n).flatMap fun i => leBytes 8 (d.word r (first + i)).toNat

/-- SHARE_DIGEST (R370). -/
def shareDigest (d : Dev) : List Byte := sha384 (d.regBytes .FAB_FSLOT 0 576 ++ d.regBytes .PLY_PSLOT 0 32)

/-- ROUTE_DIGEST (R370). -/
def routeDigest (d : Dev) (p : Nat) : List Byte :=
  sha384 (d.regBytes .FAB_PMAP 0 1152 ++ d.regBytes .FAB_TRN 0 64 ++ d.regBytes .FAB_RT (512 * p) 512)

/-- Bytes 136 to 255 of a report of kind 2 (R370). -/
def partBytes (d : Dev) (p : Nat) : List Byte :=
  let k := d.fab.keys.get {} p
  leBytes 8 (d.get F.ZQL_PGRP_GROUPS p + d.get F.HBM_PART_BASE p * 2 ^ 16 + d.get F.HBM_PART_SIZE p * 2 ^ 21 + flag k.live * 2 ^ 27) ++
    leBytes 8 (d.get F.ZQL_PFLOW_FLOWS p) ++
    leBytes 8 (d.get F.ZQL_PSYNC_PF p + d.get F.ZQL_PSYNC_BAR p * 2 ^ 32 + (if k.live then k.tag else 0) * 2 ^ 48) ++
    d.shareDigest ++ d.routeDigest p

/-- The FLAGS byte of a report made for port `port` (R370). -/
def reportFlags (d : Dev) (port : Nat) : Nat :=
  let own := flag (decide (port = d.ownerPort))
  let p := d.partOfPort port
  let of (f : Nat → Bool) : Nat := match p with
    | some q => flag (f q)
    | none => 0
  own + port * 2 + p.getD 0 * 8 + of (fun q => d.isSet F.DBG_UNLOCK_HELD q) * 32 + of (fun q => d.get F.SYNC_DBG_MODE q = 2) * 64 +
    d.get F.HBM_CFG_HASH * 128

/-- A report of 544 bytes (R370). No image's digest and SVN are stated before one runs: they are free values. The signature is drawn afresh. Log entry notes/assumptions/67.md (DEDUCED). -/
def report (d : Dev) (port kind : Nat) (nonce : List Byte) : Dev × List Byte :=
  let (x, d) := d.free 416
  let fw := if 4 ≤ d.get F.MGMT_BOOT_FW then sha384 d.zql.fw.accepted ++ leBytes 4 (d.get F.MGMT_BOOT_FW_SVN) else leBytes 52 x
  let key := if kind = 1 then d.zql.agree.find 4 else (d.partOfPort port).bind d.zql.agree.find
  let head := leBytes 4 0x5452564B ++ leBytes 2 0x0100 ++ leBytes 1 kind ++ leBytes 1 (d.reportFlags port) ++ leBytes 8 Config.serial.toNat ++
    leBytes 8 (d.get F.TWIST_CNT_CNT) ++ takePad 32 0 nonce ++ fw ++ leBytes 4 d.fuses.minSvn ++ d.dieBytes 0 ++ d.dieBytes 1 ++ d.dieBytes 2
  let mid := match kind, d.partOfPort port with
    | 2, some p => d.partBytes p
    | _, _ => List.replicate 120 0
  let agree := match key with
    | some n => pub384 (scalar384 (Config.agreeKey n))
    | none => List.replicate 96 0
  let ident := scalar384 Config.identKey
  let body := head ++ mid ++ agree ++ pub384 ident
  let (k, d) := d.free 384
  (d, body ++ sign384 ident (scalar384 k) (sha384 body))

/-! ### Firmware -/

/-- The management processor waits for an image (R384). -/
def waitsForImage (d : Dev) : Bool := decide (d.get F.MGMT_BOOT_FW < 3)

/-- The check that a staged image fails first, 0 when it passes them all (R367, R368). Log entry notes/assumptions/67.md (DEDUCED). -/
def imageReason (d : Dev) : Nat :=
  let h := d.zql.fw.header
  let num (lo n : Nat) : Nat := leNat ((h.drop lo).take n)
  let signer := (h.drop 64).take 96
  if num 0 4 ≠ 0x5746564B ∨ num 4 2 ≠ 0x0100 ∨ num 6 2 ≠ 0 ∨ num 8 4 < 16 ∨ 8388608 < num 8 4 ∨ num 8 4 % 16 ≠ 0 ∨ 64 < num 12 4 ∨
      d.zql.fw.body.length ≠ num 8 4 then 1
  else if sha384 signer ≠ (List.range 48).map Config.fwKeyHash then 2
  else if !verifies384 signer (sha384 (h.take 160)) ((h.drop 160).take 96) then 3
  else if (h.drop 16).take 48 ≠ sha384 d.zql.fw.body then 4
  else if num 12 4 < d.fuses.minSvn then 5
  else 0

/-- An accepted image runs once ROM_DONE is 1, and lights the distaffs (R275, R384). -/
def runImage (d : Dev) : Dev :=
  if d.get F.MGMT_BOOT_FW = 3 && d.isSet F.MGMT_BOOT_ROM_DONE then
    (List.range 24).foldl (fun (d : Dev) i => if d.get F.OPT_DSTAT_STATE i = 0 then d.put F.OPT_DSTAT_STATE i 1 else d) (d.put F.MGMT_BOOT_FW 0 4)
  else d

/-- FW_END (R368). -/
def endImage (d : Dev) : Dev × Status × List Byte :=
  let r := d.imageReason
  let none_ : List Byte := []
  let staged (d : Dev) (x : Firmware) : Dev := { d with zql := { d.zql with fw := x } }
  if !d.waitsForImage then (d, .writeRefused, none_)
  else if r = 0 then
    let svn := leNat ((d.zql.fw.header.drop 12).take 4)
    let d := staged d { accepted := d.zql.fw.header }
    ((d.putAll 0 [(F.MGMT_BOOT_FW, 3), (F.MGMT_BOOT_FW_SVN, svn), (F.MGMT_BOOT_FW_REASON, 0)]).runImage, .ok, takePad 16 0 [])
  else
    let d := (staged d {}).putAll 0 [(F.MGMT_BOOT_FW, 0), (F.MGMT_BOOT_FW_REASON, r)]
    (d.raise .imageRefused 7 0x800 r .formatFault, .formatFault, takePad 16 0 [BitVec.ofNat 8 r])

end Dev

/-- IDENTITY (R370); a command of a code not listed comes here too and completes with FORMAT_FAULT (R354). Log entry notes/assumptions/65.md (DEDUCED). -/
def execIdentity (p : Fin 4) (f : HostFrame) (s : State) : Host.Outcome State Fault Refusal :=
  runWork 8 (fun w =>
    if f.op = 1 then
      w.command p f (fun n => n = 0 || n = 32) fun w => let (d, bs) := w.dev.report p 1 f.payload; ({ w with dev := d }, .ok, bs)
    else w.command p f (fun _ => true) fun w => (w, .formatFault, [])) s

/-- ATTEST (R370). -/
def execAttest (p : Fin 4) (f : HostFrame) (s : State) : Host.Outcome State Fault Refusal :=
  runWork 8 (fun w => w.command p f (· = 32) fun w => let (d, bs) := w.dev.report p 2 f.payload; ({ w with dev := d }, .ok, bs)) s

/-- FW_BEGIN (R368). -/
def execFwBegin (p : Fin 4) (f : HostFrame) (s : State) : Host.Outcome State Fault Refusal :=
  runWork 8 (fun w => w.command p f (fun n => n = 256 || !w.dev.waitsForImage) fun w =>
    if !w.dev.waitsForImage then (w, .writeRefused, [])
    else (w.on fun d => ({ d with zql := { d.zql with fw := { header := f.payload } } }).put F.MGMT_BOOT_FW 0 1, .ok, [])) s

/-- FW_DATA (R368): the body bytes at the next offset. -/
def execFwData (p : Fin 4) (f : HostFrame) (s : State) : Host.Outcome State Fault Refusal :=
  runWork 8 (fun w => w.command p f (fun _ => true) fun w =>
    let x := w.dev.zql.fw
    if !w.dev.waitsForImage then (w, .writeRefused, [])
    else if w.dev.get F.MGMT_BOOT_FW ≠ 1 ∨ f.aux ≠ x.body.length then (w, .formatFault, [])
    else (w.on fun d => { d with zql := { d.zql with fw := { x with body := x.body ++ f.payload } } }, .ok, [])) s

/-- FW_END (R368). -/
def execFwEnd (p : Fin 4) (f : HostFrame) (s : State) : Host.Outcome State Fault Refusal :=
  runWork 8 (fun w => w.command p f (fun n => n = 0 || !w.dev.waitsForImage) fun w => let (d, st, bs) := w.dev.endImage; ({ w with dev := d }, st, bs)) s

/-- SVN_RAISE (R369): the fuses are burnt up to the running image's SVN. -/
def execSvnRaise (p : Fin 4) (f : HostFrame) (s : State) : Host.Outcome State Fault Refusal :=
  runWork 8 (fun w => w.command p f (· = 0) fun w =>
    if 64 ≤ w.dev.fuses.minSvn then (w, .formatFault, [])
    else (w.on fun d => { d with fuses := { d.fuses with minSvn := Nat.max d.fuses.minSvn (d.get F.MGMT_BOOT_FW_SVN) } }, .ok, [])) s

/-- ACTIVATE (R359). -/
def execActivate (p : Fin 4) (f : HostFrame) (s : State) : Host.Outcome State Fault Refusal :=
  runWork 8 (fun w => w.command p f (· = 0) fun w => let (w, st) := w.activate (f.val % 4); (w, st, [])) s

/-- RECLAIM (R364). -/
def execReclaim (p : Fin 4) (f : HostFrame) (s : State) : Host.Outcome State Fault Refusal :=
  runWork 8 (fun w => w.command p f (· = 0) fun w => let (d, st) := w.dev.reclaim (f.val % 4) f.aux; ({ w with dev := d }, st, [])) s

/-- RELEASE by the partition bound to the port (R364). -/
def execRelease (p : Fin 4) (f : HostFrame) (s : State) : Host.Outcome State Fault Refusal :=
  runWork 8 (fun w => w.command p f (· = 0) fun w => match w.dev.partOfPort p with
    | some q => (w.on (·.release q), .ok, [])
    | none => (w, .partitionDenied, [])) s

/-- KEY_SLICE (R362, R363); a message of another length opens nothing. -/
def execKeySlice (p : Fin 4) (f : HostFrame) (s : State) : Host.Outcome State Fault Refusal :=
  runWork 8 (fun w => w.command p f (fun _ => true) fun w => match w.dev.partOfPort p with
    | some q => let (d, st) := w.dev.keySlice q f.payload; ({ w with dev := d }, st, [])
    | none => (w, .partitionDenied, [])) s

/-- KEY_MGMT (R362, R363). -/
def execKeyMgmt (p : Fin 4) (f : HostFrame) (s : State) : Host.Outcome State Fault Refusal :=
  runWork 8 (fun w => w.command p f (· = 160) fun w => let (d, st) := w.dev.keyMgmt f.payload; ({ w with dev := d }, st, [])) s

/-- KEY_DROP (R363). -/
def execKeyDrop (p : Fin 4) (f : HostFrame) (s : State) : Host.Outcome State Fault Refusal :=
  runWork 8 (fun w => w.command p f (· = 0) fun w => match w.dev.partOfPort p with
    | some q => (w.dropSliceKey q, .ok, [])
    | none => (w, .partitionDenied, [])) s

end Sys2Proof.Machine
end

