-- ==== Sys2Proof/Machine/Boot.lean ====
section
/-!
DEFINITION. Reset and boot: the reset sources (R372 to R378), the release of the domains and the straps (R379 to R381), the boot ROM (R382, R384), a compute
die that comes back (R385, R386), and the rails (R392 to R395).
-/

namespace Sys2Proof.Machine

namespace Dev

/-! ### Whole-part reset -/

/-- A whole-part reset starts (R376, R377): every register returns to its Reset column and every key is destroyed. Memory and fuses stay, and how many keys the random
source has drawn, so that no boot draws one again (R361), and an optical rail that is low goes on stopping the lanes (R395); a reset by a rail starts a
new power-on, which counts failed array checks anew (R78). Log entry notes/assumptions/42.md (DEDUCED). Log entry notes/assumptions/7.md (DESIGN CHOICE). -/
def wholeReset (d : Dev) (b : Boot) : Dev :=
  { out := d.out, fresh := d.fresh, fuses := d.fuses, tap := d.tap, checks := if b.cause = 1 then ⟨[]⟩ else d.checks, boot := { b with resetting := true },
    light := { railLow := !b.lowRails.isEmpty }, zql := { draws := d.zql.draws, wire := d.zql.wire } }

/-- The reset ends once neither source holds it, and the sequencer counts its first gap (R373, R379). Log entry notes/assumptions/42.md (DEDUCED). -/
def endReset (d : Dev) : Dev :=
  if d.boot.resetting && !d.boot.pinLow && !d.boot.baseHeld then
    { d with boot := { d.boot with resetting := false, domain := 0 } }.put F.RST_STAT_CAUSE 0 d.boot.cause
  else d

/-- What of the reset state lasts through a further trip: the sources that hold, the die detectors, and the rails that are or have been out of tolerance. -/
def bootHold (d : Dev) : Boot :=
  { pinLow := d.boot.pinLow, baseHeld := d.boot.baseHeld, dieHeld := d.boot.dieHeld, lowRails := d.boot.lowRails,
    hbmLow := d.boot.hbmLow.mapValues fun _ _ => 0, cause := d.boot.cause }

/-- The base die's detector trips, with a cause: 1 a rail, 2 REFCLK (R374 to R376). -/
def baseTrip (d : Dev) (cause : Nat) : Dev :=
  d.wholeReset { d.bootHold with baseHeld := true, cause := if d.boot.resetting then d.boot.cause else cause }

end Dev

/-- PKG_RESET (R373, R424). -/
def execPkgReset (s : State) : Host.Outcome State Fault Refusal :=
  runDev 0 (fun d => (d.wholeReset { d.bootHold with pinLow := true, cause := if d.boot.resetting then d.boot.cause else 0 }).takeBalls) s

/-- PKG_RESET_RELEASE (R373, R379, R424). -/
def execPkgResetRelease (s : State) : Host.Outcome State Fault Refusal :=
  runDev 0 (fun d => { d.leaveBalls with boot := { d.boot with pinLow := false } }.endReset) s

/-- DETECTOR_TRIP (R374, R376): of the base die (0), or of CD0 or CD1. -/
def execDetectorTrip (det : Fin 3) (s : State) : Host.Outcome State Fault Refusal :=
  runDev 0 (fun d =>
    if det = 0 then d.baseTrip 1
    else
      let die := det.val - 1
      let l := if d.boot.dieHeld.contains die then d.boot.dieHeld else d.boot.dieHeld ++ [die]
      { d with boot := { d.boot with dieHeld := l } }.aliveFalls die) s

/-- DETECTOR_RELEASE (R374, R379). -/
def execDetectorRelease (det : Fin 3) (s : State) : Host.Outcome State Fault Refusal :=
  runDev 0 (fun d =>
    if det = 0 then { d with boot := { d.boot with baseHeld := false } }.endReset
    else { d with boot := { d.boot with dieHeld := d.boot.dieHeld.filter (· ≠ det.val - 1) } }) s

/-- REFCLK_LOSS (R375, R376). -/
def execRefclkLoss (s : State) : Host.Outcome State Fault Refusal := runDev 0 (fun d => d.baseTrip 2) s

/-! ### Release of the domains -/

namespace Dev

/-- The gap before each release, in ns (R379): from the release of base control on, the timebase counts it. Log entry notes/assumptions/8.md (DESIGN CHOICE). -/
def domainGap (k : Nat) : Nat := ([0, 20000, 10000, 10000, 50000, 25000, 10000, 10000][k - 1]?).getD 0

/-- The release of base control (R381, R382): the straps are sampled, the timebase starts, and the boot ROM checks the fuses and draws the management
key-agreement key and key slot 4 (R177), or halts. Log entry notes/assumptions/42.md (DEDUCED). -/
def releaseBase (d : Dev) (straps : BitVec 20) (fuseOk : Bool) : Dev :=
  let v := straps.toNat
  let d := { d with now := 0 }.setWord .RST_STRAP 0 (BitVec.ofNat 64 v)
  let d := (d.put F.FAB_ID_ID 0 (bits v 0 16)).put F.TWIST_CFG_ROOT 0 (bits v 18 1)
  let d := (d.put F.ZQL_PORT_STAT_ADMIN (bits v 16 2) 1).monLine .banner [Config.serial.toNat, d.get F.RST_STAT_CAUSE]
  let d := d.putAll 0 [(F.RST_RAIL_STAT_RAILS, 255 - (d.boot.lowRails.map fun r => 2 ^ (5 + r)).sum), (F.RST_RAIL_STAT_HBM, 255),
    (F.RST_CLK_STAT_CD0_CLK, flag (d.boot.alive.contains 0)), (F.RST_CLK_STAT_CD1_CLK, flag (d.boot.alive.contains 1))]
  let d := if bits v 0 16 = 0xFFFF then d.raise .fabricIdNotUsable 7 0x800 0 else d
  if v.testBit 19 then d.putAll 0 [(F.MGMT_BOOT_HALTED, 1), (F.MGMT_BOOT_HALT_REASON, 2)]
  else if !fuseOk then d.putAll 0 [(F.MGMT_BOOT_HALTED, 1), (F.MGMT_BOOT_HALT_REASON, 1)]
  else
    let (k, d) := (d.drawAgree 4).free 512
    { d with hbm := { d.hbm with keys := d.hbm.keys.set 4 k } }

/-- A compute die's domain is released: its cores' clocks run from here (R131, R385). -/
def releaseDie (d : Dev) (die : Nat) : Dev :=
  let d := { d with dieReleased := d.dieReleased.set die d.now }
  d.put F.RST_STAT_DOMAINS 0 (putBits (d.get F.RST_STAT_DOMAINS) (4 + die) 1 1)

end Dev

/-- DOMAIN_RELEASE (R379 to R382): the gap before the next domain has been counted. From the second on LBI_DIE_STAT shows DIE_ALIVE. A compute die that is not alive is
passed over. The straps and the outcome
of the fuse check take effect with base control. -/
def execDomainRelease (straps : BitVec 20) (fuseOk : Bool) (s : State) : Host.Outcome State Fault Refusal :=
  runDev 0 (fun d =>
    let k := d.boot.domain + 1
    if d.boot.resetting || decide (8 < k) then d
    else
      let d := { d with boot := { d.boot with domain := k }, now := d.now + Dev.domainGap k }
      let set (d : Dev) : Dev := d.put F.RST_STAT_DOMAINS 0 (putBits (d.get F.RST_STAT_DOMAINS) (k - 1) 1 1)
      match k with
      | 1 => set (d.releaseBase straps fuseOk)
      | 2 => set ((List.range 2).foldl (fun (d : Dev) die => if d.boot.alive.contains die then d.put F.LBI_DIE_STAT_ALIVE die 1 else d) d)
      | 5 | 6 => if d.isSet F.LBI_DIE_STAT_ALIVE (k - 5) then d.releaseDie (k - 5) else d
      | 8 =>
        let d := { (set d).put F.RST_STAT_SEQ_DONE 0 1 with boot := { d.boot with seqAt := d.now } }
        if d.isSet F.MGMT_BOOT_HALTED then d else d.raise .awaitingImage 7 0x800 0
      | _ => set d) s

/-! ### Boot ROM -/

namespace Dev

/-- The self-test has found the physical core of logical number `c` bad (R75, R76): a repair record is burnt, or the number stays unmapped. Log entry notes/assumptions/44.md (DESIGN CHOICE). -/
def repairCore (d : Dev) (c : Nat) : Dev := (d.burnRepair c).getD ((d.put F.MTX_MAP_MISSING c 1).raise .spareExhausted 7 c (256 * c))

/-- Load the map entry of logical core `c` from the fuses (R14, R75, R79): the 64 physical cores from 512 up were built as spares; the entry of a number that is MISSING
names the physical core that it was to have (DESIGN CHOICE: R79 does not say what its fields then read). Log entry
notes/assumptions/44.md (DESIGN CHOICE). -/
def loadMap (d : Dev) (c : Nat) : Dev :=
  let x := d.fuses.phys c
  d.putAll c [(F.MTX_MAP_PHYS, x), (F.MTX_MAP_SPARE, flag (decide (512 ≤ x))), (F.MTX_MAP_REPAIRED, flag (d.fuses.repairs.any (·.1 = c)))]

/-- The self-test of a released die with the physical cores that have failed it, as 576 × die + core (R75): the repairs, then the map. -/
def testDie (d : Dev) (die : Nat) (bad : List Nat) : Dev :=
  let cores := (List.range 512).map (512 * die + ·)
  let d := { d with testFailed := d.testFailed.filter (· / 576 ≠ die) ++ bad.filter (· / 576 = die) }
  let d := cores.foldl (fun (d : Dev) c => d.put F.MTX_MAP_MISSING c 0) d
  let d := (cores.filter fun c => d.testFailed.contains (576 * die + d.fuses.phys c)).foldl repairCore d
  cores.foldl loadMap d

/-- The failed objects of the range of core `c` outnumber its spares (R23, R25). -/
def objectsShort (d : Dev) (c : Nat) : Bool := decide (4 < ((List.range 48).filter fun i => d.get F.SYNC_OBJ_LO_STATE (48 * c + i) = 2).length)

/-- A sync object has failed its test (R203); with a fifth one of a core's range no good spare is left (R23, R26). Log entry notes/assumptions/44.md (DEDUCED). -/
def failObject (d : Dev) (id : Nat) : Dev :=
  let had := d.objectsShort (id / 48)
  let d := (d.put F.SYNC_OBJ_LO_STATE id 2).put F.SYNC_FAILMAP_MAP (id / 64) (putBits (d.get F.SYNC_FAILMAP_MAP (id / 64)) (id % 64) 1 1)
  if id < 49152 && !had && d.objectsShort (id / 48) then d.raise .spareExhausted 7 0x800 (7 + 256 * (id / 48)) else d

/-- The domain of compute die `die` has been released. -/
def dieUp (d : Dev) (die : Nat) : Bool := (d.get F.RST_STAT_DOMAINS).testBit (4 + die)

end Dev

/-- Zero the stores of the logical cores of a die (R85, R382, R385). -/
def Work.zeroDie (w : Work) (die : Nat) : Work := ((List.range 512).map (512 * die + ·)).foldl zeroCore w

/-- The VCODE of a core rail that the fuses hold (R382, R393). Log entry notes/assumptions/44.md (DESIGN CHOICE). -/
def Dev.fusedCode (d : Dev) (die : Nat) : Nat := d.fuses.volt.get 0x64 die

/-- A core rail has been moved to its fused voltage (R382 step 2, R385 step 2). -/
def Dev.railMoved (d : Dev) (die : Nat) : Bool := d.get F.RST_VREQ_ACK die = d.fusedCode die

/-- The dies that ROM step 5 brings up: those released by the sequencer, and not by a rejoin (R382, R386). -/
def Dev.romDies (d : Dev) : List Nat := (List.range 2).filter fun die => d.dieUp die && !d.boot.late.contains die

/-- The training of a bond port at boot has ended: it is ACTIVE, or an attempt has failed or may not be made (R38, R41, R382 step 5). Log entry notes/assumptions/42.md (DEDUCED). -/
def Dev.bondTried (d : Dev) (n : Nat) : Bool :=
  d.bondState n = 6 || (d.bondState n = 0 && ((d.bport n).failures ≠ 0 || (d.bport n).locked || d.isSet F.LBI_PORT_CTL_DISABLE n))

/-- Every step of the boot ROM has ended but for the control ports (R382): the sequencer has passed domain 8, the rails have been moved, HBM is initialised, and the
training of the bond ports of the dies that it brings up has ended. Log entry notes/assumptions/42.md (DEDUCED). -/
def Dev.romEnded (d : Dev) : Bool :=
  d.isSet F.RST_STAT_SEQ_DONE && d.isSet F.HBM_STAT_READY && d.railMoved 0 && d.railMoved 1 &&
    (d.romDies.all fun die => (List.range 64).all fun i => d.bondTried (64 * die + i))

/-- When step 6 of the boot ROM has ended (R346, R382): at once if every control port is UP, else 1 ms after the release of domain 8. Log entry
notes/assumptions/8.md (DESIGN CHOICE) and notes/assumptions/42.md (DEDUCED). -/
def Dev.portsEnded (d : Dev) : Nat :=
  if (List.range 4).all fun p => d.get F.ZQL_PORT_STAT_STATE p = 2 then d.now else Nat.max d.now (d.boot.seqAt + 1000000)

/-- BOOT_ROM_DONE (R75, R203, R382, R384): every step has ended, with the sync objects and the physical cores (576 × die + core) that failed their tests. A die
that rejoins or has rejoined does not come up here (R386). An accepted image then runs. With a control port that is not UP the row moves the timebase to
the end of step 6. Log entry notes/assumptions/42.md (DEDUCED). -/
def execBootRomDone (badObjects : List (Fin 65536)) (bad : List (Fin 1152)) (s : State) : Host.Outcome State Fault Refusal :=
  runWork 0 (fun w =>
    let d := w.dev
    if !d.romEnded || d.isSet F.MGMT_BOOT_HALTED || d.isSet F.MGMT_BOOT_ROM_DONE then w
    else
      let w := w.on fun d => { d with now := d.portsEnded }
      let w := w.on fun d => badObjects.foldl (fun (d : Dev) (id : Fin 65536) => d.failObject id) d
      let w := (List.range 1024).foldl (fun (w : Work) c => w.write (.zero (underBase c) 0x180000)) w
      let w := d.romDies.foldl (fun (w : Work) die =>
        (w.on fun d => d.testDie die (bad.map (·.val))).zeroDie die |>.on fun d => if d.mayOpen die then d.openWrap die else d) w
      w.on fun d => (d.put F.MGMT_BOOT_ROM_DONE 0 1).runImage) s

/-! ### A compute die comes back -/

/-- Who runs the steps of a rejoin is running: the boot ROM before ROM_DONE unless it has halted, the firmware after (R385). -/
def Dev.rejoinRuns (d : Dev) : Bool :=
  !d.isSet F.MGMT_BOOT_HALTED && (!d.isSet F.MGMT_BOOT_ROM_DONE || decide (4 ≤ d.get F.MGMT_BOOT_FW))

/-- Step 3 of a rejoin, once (R385): the self-test, its repairs and the core map. Log entry notes/assumptions/42.md (DEDUCED). -/
def Dev.rejoinTest (d : Dev) (die : Nat) (bad : List (Fin 576)) : Dev :=
  if d.boot.tested.contains die then d
  else { d with boot := { d.boot with tested := d.boot.tested ++ [die] } }.testDie die (bad.map fun (x : Fin 576) => 576 * die + x.val)

/-- DIE_ALIVE_RISE (R379, R380, R385): the base network sees it from its release on; a die that was lost, or that the sequencer has passed, begins its rejoin: its domain is released after 50 µs, and its
self-test, with the physical cores that fail it, gives the core map. -/
def execDieAliveRise (die : Fin 2) (bad : List (Fin 576)) (s : State) : Host.Outcome State Fault Refusal :=
  runDev 0 (fun d =>
    if d.boot.resetting || d.boot.dieHeld.contains die.val || d.boot.alive.contains die.val then d
    else
      let d := { d with boot := { d.boot with alive := d.boot.alive ++ [die.val] } }.setDieClock die 1
      if !d.released 2 then d
      else
      let d := d.put F.LBI_DIE_STAT_ALIVE die 1
      if d.isSet F.LBI_DIE_STAT_LOST die || decide (5 + die.val ≤ d.boot.domain) then
        let b := { d.boot with rejoin := d.boot.rejoin ++ [die.val], late := d.boot.late.filter (· ≠ die.val) ++ [die.val] }
        let d := { d with now := d.now + 50000, boot := b }.releaseDie die
        if d.rejoinRuns then d.rejoinTest die bad else d
      else d) s

/-- DIE_REJOIN_RESUME (R385): steps 4 to 6, once no partition but a FREE one holds a core group of the die, its ports are trained and its rail is moved; step 3
before them if nobody has run it yet. -/
def execDieRejoinResume (die : Fin 2) (bad : List (Fin 576)) (s : State) : Host.Outcome State Fault Refusal :=
  runWork 2 (fun w =>
    let d := w.dev
    if !d.boot.rejoin.contains die.val || !d.rejoinRuns || !(d.partsOnDie die).isEmpty || !d.mayOpen die || !d.railMoved die then w
    else
      let w := (w.on fun d => d.rejoinTest die bad).zeroDie die
      w.on fun d =>
        let d := ((d.clearDie die).openWrap die).raise .dieRejoined 7 0x800 die
        let b := { d.boot with rejoin := d.boot.rejoin.filter (· ≠ die.val), tested := d.boot.tested.filter (· ≠ die.val) }
        { d with boot := b }.count .RST_DIE_RESETS die) s

/-! ### The rail request bus -/

namespace Dev

/-- A frame of the rail request bus: bytes 0 to 2, then their CRC-8 (R392). -/
def railFrame (die cmd data : Nat) : Nat :=
  let v := die + cmd * 16 + data * 2 ^ 8
  v + crc8 (leBytes 3 v) * 2 ^ 24

/-- Send the request of die `die` that is under way: the read of an alert, or its transaction. -/
def sendRail (d : Dev) (die : Nat) : Dev :=
  if d.boot.reading = some die then d.send .railBus die [railFrame die 4 0]
  else match d.boot.rails.find die with
  | some (cmd, v) => d.send .railBus die [railFrame die cmd (if cmd = 1 then v else 0)]
  | none => d

/-- The die whose transaction is on the bus. -/
def railBusy (d : Dev) : Option Nat :=
  d.boot.reading.or ((List.range 2).find? fun i => (d.boot.rails.find i).isSome && !d.boot.failed.contains i)

/-- Read the status of the next rail that an alert names, while the bus is free (R394), whether or not another transaction of the rail waits for its retry; a read
that has failed itself waits for its own. Log entry notes/assumptions/43.md (DEDUCED). -/
def pumpRail (d : Dev) : Dev :=
  if d.railBusy.isSome then d
  else match d.boot.alert.find? fun i => !d.boot.unread.contains i with
    | some i => { d with boot := { d.boot with reading := some i, tries := d.boot.tries.erase i } }.sendRail i
    | none => d

/-- The READ_STATUS of a rail (R392, R394): ALERT falls when it shows no fault; in an alert it rises with a fault, which is logged. An alert that no rail
explains is logged with the rail read last. Log entry notes/assumptions/43.md (DEDUCED). -/
def railStatus (d : Dev) (die data : Nat) : Dev :=
  let fault := decide (bits data 1 3 ≠ 0)
  let d := if fault then d else d.put F.RST_VREQ_ALERT die 0
  if !d.boot.alert.contains die then d
  else
    let l := d.boot.alert.filter (· ≠ die)
    let seen := d.boot.alertSeen || fault
    let d := { d with boot := { d.boot with alert := l, alertSeen := seen && !l.isEmpty } }
    let d := if fault then d.put F.RST_VREQ_ALERT die 1 else d
    if fault || (l.isEmpty && !seen) then d.raise .regulatorAlert 7 0x800 (die + bits data 0 4 * 2 ^ 8) else d

/-- A valid response (R392 to R394). -/
def railAnswer (d : Dev) (die cmd data : Nat) : Dev :=
  let b := { d.boot with tries := d.boot.tries.erase die }
  let d := { d with boot := if b.reading = some die then { b with reading := none } else { b with rails := b.rails.erase die } }
  (match cmd with
  | 1 => { d with boot := { d.boot with setAt := d.boot.setAt.set die d.now } }.putAll die [(F.RST_VREQ_ACK, bits data 0 8), (F.RST_VREQ_FAIL, 0)]
  | 3 => d.put F.RST_VREQ_CURRENT die data
  | 4 => d.railStatus die data
  | _ => d).pumpRail

/-- A missing or wrong response (R394): retried, and after the third the rail has failed. Log entry notes/assumptions/43.md (DEDUCED). -/
def railFailure (d : Dev) (die : Nat) : Dev :=
  let n := d.boot.tries.get 0 die + 1
  if n < 3 then { d with boot := { d.boot with tries := d.boot.tries.set die n } }.sendRail die
  else
    let b := { d.boot with tries := d.boot.tries.erase die }
    let d := { d with boot := if b.reading = some die then { b with reading := none, unread := b.unread ++ [die] } else { b with failed := b.failed ++ [die] } }
    (((d.put F.RST_VREQ_FAIL die 1).count .RST_RRB_ERR).raise .railBusFailed 7 0x800 die).pumpRail

/-- A SET of VCODE `v` moves a rail within its fused band or towards it (R393). Log entry notes/assumptions/44.md (DESIGN CHOICE). -/
def railInBand (d : Dev) (die ack v : Nat) : Bool :=
  let (lo, hi) := d.fuses.band.get (20, 120) die
  decide (lo ≤ v ∧ v ≤ hi) || decide (ack < v ∧ v < lo) || decide (v < ack ∧ hi < v)

end Dev

/-- RAIL_REQUEST (R392, R393): a SET keeps to the codes, the step, the spacing and the fused band of R393. CMD is 1 SET, 2 READ_V, 3 READ_I, 4 READ_STATUS. -/
def execRailRequest (die : Fin 2) (cmd : Fin 5) (v : Fin 256) (s : State) : Host.Outcome State Fault Refusal :=
  runDev 1 (fun d =>
    let ack := d.get F.RST_VREQ_ACK die
    let spaced := match d.boot.setAt.find die with
      | some t => decide (t + 50000 ≤ d.now)
      | none => true
    if d.boot.domain = 0 || cmd = 0 || d.railBusy.isSome || d.boot.failed.contains die.val then d
    else if cmd = 1 && (decide (v.val < 20 ∨ 120 < v.val ∨ ack + 4 < v.val ∨ v.val + 4 < ack) || !spaced || !d.railInBand die ack v) then d
    else
      let d := if cmd = 1 then d.put F.RST_VREQ_REQ die v else d
      { d with boot := { d.boot with rails := d.boot.rails.set die (cmd.val, v.val), tries := d.boot.tries.erase die } }.sendRail die) s

/-- RAIL_RESPONSE (R392, R394): the response of the transaction on the bus, or none. -/
def execRailResponse (resp : Option (BitVec 32)) (s : State) : Host.Outcome State Fault Refusal :=
  runDev 1 (fun d =>
    match d.railBusy with
    | none => d
    | some die =>
      let (cmd, _) := if d.boot.reading = some die then (4, 0) else (d.boot.rails.find die).getD (0, 0)
      match resp with
      | none => d.railFailure die
      | some x =>
        let v := x.toNat
        if bits v 0 4 = die ∧ bits v 4 4 = cmd ∧ bits v 24 8 = crc8 (leBytes 3 v) then d.railAnswer die cmd (bits v 8 16) else d.railFailure die) s

/-- RAIL_RETRY_TIMER (R394): 10 ms after a failed transaction the part tries it again. -/
def execRailRetryTimer (die : Fin 2) (s : State) : Host.Outcome State Fault Refusal :=
  runDev 1 (fun d =>
    if (d.boot.failed.contains die.val || d.boot.unread.contains die.val) && d.railBusy.isNone then
      ({ d with boot := { d.boot with failed := d.boot.failed.filter (· ≠ die.val), unread := d.boot.unread.filter (· ≠ die.val) } }.sendRail die).pumpRail
    else d) s

/-- RAIL_ALERT (R394): RRB_ALERT_N falls, and the part reads the status of both rails; each answer records its alert. Log entry notes/assumptions/43.md (DEDUCED). -/
def execRailAlert (s : State) : Host.Outcome State Fault Refusal :=
  runDev 1 (fun d => if d.boot.domain = 0 then d else { d with boot := { d.boot with alert := [0, 1], alertSeen := false, unread := [] } }.pumpRail) s

/-! ### The optical rails -/

/-- OPTICAL_RAIL_LOW (R395): VOPT (0), VHTR (1) or VLASER (2): every lane and every control port stops. -/
def execOpticalRailLow (r : Fin 3) (s : State) : Host.Outcome State Fault Refusal :=
  runDev 1 (fun d =>
    if d.boot.lowRails.contains r.val then d
    else
      let d := { d with boot := { d.boot with lowRails := d.boot.lowRails ++ [r.val] }, light := { d.light with railLow := true } }
      let d := d.put F.RST_RAIL_STAT_RAILS 0 (putBits (d.get F.RST_RAIL_STAT_RAILS) (5 + r.val) 1 0)
      let d := (List.range 4).foldl (fun (d : Dev) p =>
        (d.linkFail p).putAll p [(F.ZQL_PORT_STAT_STATE, 0), (F.ZQL_PORT_STAT_ALIGNED, 0)]) d
      d.raise .opticalRailLow 7 0x800 ((d.boot.lowRails.map (2 ^ ·)).sum)) s

/-- OPTICAL_RAIL_RETURN (R395): once all have returned, lanes resume as their rings verify and the control ports may train. -/
def execOpticalRailReturn (r : Fin 3) (s : State) : Host.Outcome State Fault Refusal :=
  runDev 1 (fun d =>
    if !d.boot.lowRails.contains r.val then d
    else
      let l := d.boot.lowRails.filter (· ≠ r.val)
      let d := { d with boot := { d.boot with lowRails := l }, light := { d.light with railLow := !l.isEmpty } }
      d.put F.RST_RAIL_STAT_RAILS 0 (putBits (d.get F.RST_RAIL_STAT_RAILS) (5 + r.val) 1 1)) s

end Sys2Proof.Machine
end

