-- ==== Sys2Proof/Machine/Monitor.lean ====
section
/-!
DEFINITION. The monitor (R414 to R421) and the test access port (R422 to R425).
-/

namespace Sys2Proof.Machine

namespace Dev

/-- Whether the mode refuses a command (R417): OFF every one but `hp`, READ_ONLY every one that writes. -/
def monClosed (d : Dev) (writes always : Bool) : Bool :=
  let mode := d.get F.DBG_MON_CTL_MODE
  !always && (mode = 2 || (mode = 1 && writes))

/-- The partition number that a monitor access to memory carries (R417): that of the partition which holds the address, while its debug unlock is held. -/
def monWho (d : Dev) (a : Nat) : Option Nat :=
  let p := match Region.of a with
    | .hbm a => d.partOfHbm a
    | .under c _ | .bobbin c _ => d.partOfCore c
    | _ => none
  match p with
  | some p => if d.isSet F.DBG_UNLOCK_HELD p then some p else none
  | none => none

end Dev

/-- A line of a command is taken: its mode may refuse it (R417), its arguments may break R420; else the body runs with them. Any complete line keeps a
switched baud rate (R415). Log entry notes/assumptions/40.md (DESIGN CHOICE). -/
def monRun {α : Type} (writes always : Bool) (args : Option α) (body : α → Work → Work) (w : Work) : Work :=
  let closed := w.dev.monClosed writes always
  let w := w.on fun d => { d with mon := { d.mon with switched := false } }
  if closed then w.on (·.monEnd .partitionDenied)
  else match args with
    | none => w.on (·.monEnd .formatFault)
    | some x => body x w

/-- Read one word for the monitor (R417). -/
def Work.monRead (w : Work) (a : Nat) : Work × Status × Nat :=
  match Region.of a with
  | .csr _ => let (s, v) := w.dev.readCsr .mgmt a 8; (w, s, v.toNat)
  | _ => let (w, s, _, bs) := w.load (w.dev.monWho a) 0x800 a 8; (w, s, leNat bs)

/-- Read words upward and print them; the first that fails ends the command (R421). -/
def monWords : Nat → Nat → Work → Work
  | 0, _, w => w.on (·.monEnd .ok)
  | n + 1, a, w =>
    match w.monRead a with
    | (w, .ok, v) => monWords n (a + 8) (w.on (·.monLine .word [a, v]))
    | (w, s, _) => w.on fun d => (d.monLine .failed [a, s.code]).monEnd s

/-- `pk` (R420, R421): words are read from an address upward. -/
def monPk (x : Nat × Nat) (w : Work) : Work := monWords x.2 x.1 w

/-- `po` (R420): one word is written. A register of a domain that is not released performs nothing, and the line says `ok`. Log entry notes/assumptions/14.md (DESIGN CHOICE). -/
def monPo (x : Nat × Nat) (w : Work) : Work :=
  match Region.of x.1 with
  | .csr _ => let w := w.putCsr .mgmt x.1 8 x.2; w.on fun d => d.monEnd d.reply.1
  | _ => let (w, s, _) := w.store (w.dev.monWho x.1) 0x800 x.1 (leBytes 8 x.2); w.on (·.monEnd s)

/-- `ev` (R420): the newest n entries, oldest first. -/
def monEv (n : Nat) (w : Work) : Work := w.on fun d =>
  let head := d.get F.EVT_LOG_HEAD_VALUE
  let n := Nat.min n head
  (d.monLines .log ((List.range n).map fun i =>
    let q := head - n + i
    q :: (List.range 4).map fun j => (d.word .EVT_LOG (4 * (q % 4096) + j)).toNat)).monEnd .ok

/-- `fz` (R411, R420): ARM or NOW is written to EVT_FRZ_CTL. -/
def monFz (now : Bool) (w : Work) : Work := w.on fun d =>
  let d := d.writeFrzCtl .mgmt (if now then 2 else 1)
  d.monEnd d.reply.1

/-- The snapshots of a window that the management processor may read, by offset (R409, R420). -/
def Dev.snapLines (d : Dev) (win : Nat) : List (List Nat) :=
  (Reg.all.filter fun r => r ≠ .EVT_LOG && decide (r.info.win ≤ win ∧ win < r.info.win + r.info.views)).flatMap fun r =>
    let n := r.info
    (List.range n.count).filterMap fun k =>
      let i := (if n.copies = 1 then 0 else (win - n.win) * n.count) + k
      if d.mayRead .mgmt r i then some [0x800000 + n.off + n.stride * k, (d.snaps.get (r.reset i) (r.addr i)).toNat] else none

/-- `sn` (R420). Log entry notes/assumptions/40.md (DESIGN CHOICE). -/
def monSn (win : Nat) (w : Work) : Work := w.on fun d =>
  ((d.monLine .frozen [d.get F.EVT_FRZ_CTL_STATE, d.get F.EVT_FRZ_CTL_SOURCE, (d.word .EVT_FRZ_TIME 0).toNat]).monLines .snapshot (d.snapLines win)).monEnd .ok

/-- What `ln` prints of a lane. -/
def Dev.laneLine_ (d : Dev) (e n : Nat) : List Nat :=
  let v := d.laneStat (288 * e + n)
  [n, bits v 0 8, bits v 8 8, bits v 16 3, bits v 19 1, bits v 20 1, bits v 21 1, bits v 22 1]

/-- `ln` (R420): one lane of an engine, or all 288. -/
def monLn (x : Nat × Option Nat) (w : Work) : Work := w.on fun d =>
  (d.monLines .lane (match x.2 with
    | some n => [d.laneLine_ x.1 n]
    | none => (List.range 288).map (d.laneLine_ x.1))).monEnd .ok

/-- Print object records upward; the first that may not be read ends the command with its status (R417, R420). -/
def monObjects : Nat → Nat → Dev → Dev
  | 0, _, d => d.monEnd .ok
  | n + 1, id, d =>
    if d.mayReachObj .mgmt id 1 then
      let lo := (d.word .SYNC_OBJ_LO id).toNat
      let hi := (d.word .SYNC_OBJ_HI id).toNat
      monObjects n (id + 1) (d.monLine .object [id, bits lo 0 32, bits lo 32 16, bits lo 48 2, bits hi 0 16, bits hi 16 12, bits hi 28 4, bits hi 32 32])
    else d.monEnd .partitionDenied

/-- `so` (R420). Log entry notes/assumptions/40.md (DESIGN CHOICE). -/
def monSo (x : Nat × Nat) (w : Work) : Work := w.on (monObjects x.2 x.1)

/-- `sr` (R214, R420). -/
def monSr (x : Nat × Nat) (w : Work) : Work := w.on fun d =>
  let d := d.writeObject .mgmt x.1 x.2
  d.monEnd d.reply.1

/-- `tt` (R420, R421). -/
def monTt (n : Nat) (w : Work) : Work := w.on fun d =>
  if d.align = 0 then d.monEnd .notLocked else d.setMon { d.mon with ttLeft := n, ttLines := [] }

/-- `mg` (R420, R421): the run is started unless the target is busy. -/
def monMg (x : Margin × Nat) (w : Work) : Work := w.on fun d =>
  let busy := match x.1 with
    | .hbm => d.isSet F.HBM_MRG_CTL_BUSY
    | .lane e => d.isSet F.LANE_MRG_CTL_BUSY e
    | .bond => d.isSet F.LBI_MRG_CTL_BUSY
  if busy then d.monEnd .formatFault
  else
    let d := match x.1 with
      | .hbm => d.writeHbmMrg .mgmt (Nat.lor x.2 1024)
      | .lane e => d.writeLaneMrg .mgmt e (Nat.lor x.2 512)
      | .bond => d.writeBondMrg .mgmt (Nat.lor x.2 512)
    if d.reply.1 = .ok then d.setMon { d.mon with margin := some x.1 } else d.monEnd d.reply.1

/-- `bd` (R415): the rate changes after the answer. -/
def monBd (code : Nat) (w : Work) : Work := w.on fun d =>
  let d := (d.monEnd .ok).put F.DBG_MON_CTL_BAUD 0 code
  { d with mon := { d.mon with switched := true } }

/-- `hp` (R417, R420): one line per command. -/
def monHp (w : Work) : Work := w.on fun d => (d.monLines .command ((List.range 12).map fun i => [i])).monEnd .ok

namespace Work

/-- A line is taken from the receiver (R416, R420): one that is discarded and one that names no command are answered with FORMAT_FAULT. Log entry notes/assumptions/40.md (DESIGN CHOICE). -/
def monCommand (w : Work) (x : RxLine) : Work :=
  if !x.whole then w.on (·.monEnd .formatFault)
  else match x.name with
    | none => w.on fun d => { d with mon := { d.mon with switched := false } }.monEnd .formatFault
    | some .pk => monRun false false (pkArgs x.args) monPk w
    | some .po => monRun true false (poArgs x.args) monPo w
    | some .ev => monRun false false (countArg 4096 16 x.args) monEv w
    | some .fz => monRun true false (fzArgs x.args) monFz w
    | some .sn => monRun false false (snArgs x.args) monSn w
    | some .ln => monRun false false (lnArgs x.args) monLn w
    | some .so => monRun false false (soArgs x.args) monSo w
    | some .sr => monRun true false (srArgs x.args) monSr w
    | some .tt => monRun false false (countArg 256 16 x.args) monTt w
    | some .mg => monRun true false (mgArgs x.args) monMg w
    | some .bd => monRun false false (bdArgs x.args) monBd w
    | some .hp => monRun false true (if x.args.isEmpty then some () else none) (fun _ => monHp) w

/-- A command whose memory a margin run holds back waits whole (R176). -/
def monHeld (w : Work) (x : RxLine) : Bool :=
  let held (a : Nat) : Bool := w.dev.margined (w.dev.monWho a) a 8
  x.whole && match x.name with
    | some .pk => !w.dev.monClosed false false && match pkArgs x.args with
      | some (a, n) => (List.range n).any fun i => held (a + 8 * i)
      | none => false
    | some .po => !w.dev.monClosed true false && match poArgs x.args with
      | some (a, _) => held a
      | none => false
    | _ => false

/-- Take lines from the buffer while no command runs (R416). -/
def drainMon : Nat → Work → Work
  | 0, w => w
  | n + 1, w => match w.dev.mon.rx with
    | [] => w
    | x :: t => if w.dev.monBusy || w.monHeld x then w else drainMon n ((w.on fun d => { d with mon := { d.mon with rx := t } }).monCommand x)

/-- A command has ended: the lines that wait have their turn. -/
def monTurn (w : Work) : Work := drainMon w.dev.mon.rx.length w

/-- A line arrives (R416): it is taken at once, or waits in the buffer while a command runs, other lines wait, or its memory is held back. Log entry notes/assumptions/40.md (DESIGN CHOICE). -/
def monLineIn (w : Work) (x : RxLine) : Work :=
  if w.dev.monBusy || !w.dev.mon.rx.isEmpty || w.monHeld x then (w.on (·.monTake x)).monTurn else w.monCommand x

end Work

/-- PK (R420, R421). -/
def execPk (a : Text) (rest : List Text) (s : State) : Host.Outcome State Fault Refusal := runWork 1 (fun w => w.monLineIn (.of .pk (a :: rest))) s

/-- PO (R420). -/
def execPo (a : Text) (rest : List Text) (s : State) : Host.Outcome State Fault Refusal := runWork 1 (fun w => w.monLineIn (.of .po (a :: rest))) s

/-- EV (R420). -/
def execEv (args : List Text) (s : State) : Host.Outcome State Fault Refusal := runWork 1 (fun w => w.monLineIn (.of .ev args)) s

/-- FZ (R411, R420). -/
def execFz (args : List Text) (s : State) : Host.Outcome State Fault Refusal := runWork 1 (fun w => w.monLineIn (.of .fz args)) s

/-- SN (R420). Log entry notes/assumptions/40.md (DESIGN CHOICE). -/
def execSn (args : List Text) (s : State) : Host.Outcome State Fault Refusal := runWork 1 (fun w => w.monLineIn (.of .sn args)) s

/-- LN (R420). -/
def execLn (e : Text) (rest : List Text) (s : State) : Host.Outcome State Fault Refusal := runWork 1 (fun w => w.monLineIn (.of .ln (e :: rest))) s

/-- SO (R420). Log entry notes/assumptions/40.md (DESIGN CHOICE). -/
def execSo (id : Text) (rest : List Text) (s : State) : Host.Outcome State Fault Refusal := runWork 1 (fun w => w.monLineIn (.of .so (id :: rest))) s

/-- SR (R214, R420). -/
def execSr (id : Text) (rest : List Text) (s : State) : Host.Outcome State Fault Refusal := runWork 1 (fun w => w.monLineIn (.of .sr (id :: rest))) s

/-- TT (R420, R421). -/
def execTt (args : List Text) (s : State) : Host.Outcome State Fault Refusal := runWork 1 (fun w => w.monLineIn (.of .tt args)) s

/-- MG (R420, R421). -/
def execMg (target : Text) (args : List Text) (s : State) : Host.Outcome State Fault Refusal := runWork 1 (fun w => w.monLineIn (.of .mg (target :: args))) s

/-- BD (R415). -/
def execBd (args : List Text) (s : State) : Host.Outcome State Fault Refusal := runWork 1 (fun w => w.monLineIn (.of .bd args)) s

/-- HP (R417, R420): one line per command, in every mode. -/
def execHp (s : State) : Host.Outcome State Fault Refusal := runWork 1 (fun w => w.monLineIn (.of .hp [])) s

/-- MONITOR_BREAK (R416): a break ends the running command, and the lines that wait have their turn. The row also carries the lines that name no command and those with
framing errors. -/
def execMonitorBreak (f : LineFault) (s : State) : Host.Outcome State Fault Refusal :=
  runWork 1 (fun w =>
    match f with
    | .break_ => (w.on fun d => (d.setMon { d.mon with ttLeft := 0, ttLines := [], margin := none }).monLine .aborted []).monTurn
    | .framing n chars => (w.on fun d => (List.range n).foldl (fun (d : Dev) _ => d.count .DBG_MON_ERR) d).monLineIn ⟨none, [], chars + 1, false⟩
    | .other line => w.monLineIn ⟨none, [], line.length + 1, decide (line.length ≤ 128)⟩) s

/-! ### Rows at whose end a monitor command may end -/

/-- TWIST_BOUNDARY (R185, R193): in FREE there are no boundaries (R189). The monitor's `tt` may end with it. Log entry notes/assumptions/60.md (DEDUCED). -/
def execTwistBoundary (s : State) : Host.Outcome State Fault Refusal :=
  runWork 2 (fun w => if w.dev.align = 0 then w else w.boundary.monTurn) s

/-- HBM_MARGIN_END (R175): the run ends with the steps to the edges of each of its 82 lanes, in order, of at most 63 steps. The monitor's `mg h` may end with it. -/
def execHbmMarginEnd (edges : List (Fin 64 × Fin 64)) (s : State) : Host.Outcome State Fault Refusal :=
  runWork 3 (fun w => (w.endHbmMargin edges).monTurn) s

/-- LANE_MARGIN_END (R276): the run ends with the steps to the low and high edge. The monitor's `mg l` may end with it. -/
def execLaneMarginEnd (e : Fin 8) (low high : Fin 32) (s : State) : Host.Outcome State Fault Refusal :=
  runWork 4 (fun w => (w.on (·.endLaneMargin e low high)).monTurn) s

/-- LBI_MARGIN_END (R42): the run ends with the steps to the edges of each of its 656 lanes, in order. The monitor's `mg b` may end with it. -/
def execLbiMarginEnd (edges : List (Fin 32 × Fin 32)) (s : State) : Host.Outcome State Fault Refusal :=
  runWork 2 (fun w => (w.on (·.endBondMargin edges)).monTurn) s

/-- BAUD_REVERT (R415): no command line in the 5 s after a switch. -/
def execBaudRevert (s : State) : Host.Outcome State Fault Refusal :=
  runDev 1 (fun d => if d.mon.switched then { d with mon := { d.mon with switched := false } }.put F.DBG_MON_CTL_BAUD 0 0 else d) s

/-! ### The test access port -/

namespace Dev

/-- Load an instruction: Capture-IR shifts out 1 (R422). -/
def loadIr (d : Dev) (code : Nat) : Dev := ({ d with tap := { d.tap with ir := code } }).send .tdo 0 [1]

/-- What the data register shifts out: its length and its captured value. -/
def shiftOut (d : Dev) (n v : Nat) : Dev := d.send .tdo n [v]

end Dev

/-- TAP_RESET (R422): the controller alone; IDCODE is selected. -/
def execTapReset (s : State) : Host.Outcome State Fault Refusal := runDev 0 (fun d => { d with tap := { d.tap with ir := 1 } }) s

/-- EXTEST (R422, R424): with PKG_RST_N low the balls are captured, the cells loaded and the drivers follow them; else it acts as BYPASS. -/
def execExtest (balls cells : BitVec 33) (s : State) : Host.Outcome State Fault Refusal :=
  runDev 0 (fun d =>
    let d := d.loadIr 0
    if d.boot.pinLow then ({ d with tap := { d.tap with boundary := cells } }.shiftOut 33 balls.toNat).takeBalls else d.shiftOut 1 0) s

/-- IDCODE (R422, R423). -/
def execIdcode (s : State) : Host.Outcome State Fault Refusal := runDev 0 (fun d => (d.loadIr 1).shiftOut 32 0x051214B7) s

/-- SAMPLE_PRELOAD (R424): observes the balls and loads the boundary register. -/
def execSamplePreload (balls cells : BitVec 33) (s : State) : Host.Outcome State Fault Refusal :=
  runDev 0 (fun d => { d.loadIr 2 with tap := { ir := 2, boundary := cells } }.shiftOut 33 balls.toNat) s

/-- CLAMP (R422, R424). -/
def execClamp (s : State) : Host.Outcome State Fault Refusal := runDev 0 (fun d => ((d.loadIr 3).shiftOut 1 0).takeBalls) s

/-- HIGHZ (R422, R424). -/
def execHighz (s : State) : Host.Outcome State Fault Refusal := runDev 0 (fun d => ((d.loadIr 4).shiftOut 1 0).takeBalls) s

/-- BYPASS (R422): its own code or any that is not decoded. -/
def execBypass (code : Fin 256) (s : State) : Host.Outcome State Fault Refusal := runDev 0 (fun d => (d.loadIr code).shiftOut 1 0) s

end Sys2Proof.Machine
end

