-- ==== Sys2Proof/Machine/Receive.lean ====
section
/-!
DEFINITION. The reception of a packet (R227): its checks in order, what it does here, and the messages of channel 2 (R245, R246).
-/

namespace Sys2Proof.Machine

/-- The byte that a packet's landing needs within LIMIT: OFF × 256 plus the payload, or for ply-8 the blocks it carries (R227 check 7, R282). -/
def Dev.landEnd (d : Dev) (n : Nat) (x : Packet) : Nat :=
  match d.plyReceive n with
  | some e => x.off * 256 + x.nblk ((e.headD 0).testBit 11) * 256
  | none => x.off * 256 + x.payload.length

/-- A channel-2 message for partition `p` acts as payload byte 0 names it (R245). It concerns the packet's own slice alone: a barrier of another partition is discarded and
logged (R17, R209). Log entry notes/assumptions/61.md (DEDUCED). -/
def Work.takeMessage (w : Work) (p : Nat) (x : Packet) : Work :=
  let kind := x.num 0 1
  let id := x.num 1 2
  let g := x.num 3 2
  if kind = 0x10 then (if id = x.slice && w.dev.hasPlan p then w.slipNotice p (x.num 3 8) else w)
  else if kind < 0x20 ∨ 0x23 < kind then w
  else w.on fun d =>
    if d.partOfSync id ≠ some p then d.discardBar id x.src g kind
    else if kind = 0x22 then d.releaseMessage x.src id g (Status.ofCode (x.num 5 1)) (x.num 6 8)
    else if kind = 0x23 then d.graceMessage x.src id g
    else d.arrivalMessage x.src id g (kind = 0x21 || (x.num 5 1).testBit 0) (kind = 0x21)

/-- Check 8 of R227 on a packet for memory: the landing writes complete, and a ring packet goes on (R246). -/
def Work.landPacket (w : Work) (p n : Nat) (x : Packet) (sender : Nat) : Work :=
  let d := w.dev
  match w.store (some p) (d.ctx n .localEp) (d.ctx n .land + 256 * x.off) x.payload with
  | (w, .ok, _) => w.on fun d => (d.landed n x sender).ringForward p n x
  | (w, s, _) => w.on (·.sendNak x sender s)

/-- Checks 5 to 8 of R227 on an authentic packet of a partition's slice, or of management (none), which the context that it names gives a partition (R17). -/
def Work.acceptPacket (w : Work) (who : Option Nat) (x : Packet) (sender : Nat) : Work :=
  let d := w.dev
  let n := x.rflow
  let p := d.ctx n .part
  if !d.ctxIs n 1 || who.any (· ≠ p) || d.ctx n .peer ≠ x.src || d.ctx n .peerFlow ≠ x.sflow || d.ctx n .ch ≠ x.ch || d.ctx n .slice ≠ x.slice then
    w.on (·.sendNak x sender .sliceDenied)
  else if p ∈ d.dead then w.on (·.sendNak x sender .isolated)
  else match d.inWindow n x.seq with
    | none => w
    | some false => w.on fun d => (d.setRx n { d.rxOf n with hop := sender }).sendAck n
    | some true =>
      if d.skewed n x.seq then w.on fun d => (d.noteSkew n x).sendNak x sender .versionSkew
      else if x.tag then w.on (·.tagPacket n x sender)
      else if x.ch = 2 then (w.on fun d => (d.landed n x sender).ringForward p n x).takeMessage p x
      else match d.plyReceive n with
        | some e =>
          if !(e.headD 0).testBit 12 && decide (d.ctx n .limit < d.landEnd n x) then w.on (·.sendNak x sender .formatFault)
          else w.on (·.plyLand n e x sender)
        | none =>
          if d.ctx n .limit < d.landEnd n x then w.on (·.sendNak x sender .formatFault)
          else w.landPacket p n x sender

/-- Checks 3 to 8 of R227 on a packet for this part. -/
def Work.receiveHere (w : Work) (x : Packet) (sender : Nat) : Work :=
  match w.dev.sliceHolder x.slice with
  | none => w.on (·.sendNak x sender .sliceDenied)
  | some (p, k) =>
    if k.dropped then w.on (·.sendNak x sender .keyRevoked)
    else if !k.live then w.on (·.sendNak x sender .sliceDenied)
    else if !x.authentic (w.dev.packetKey x) then
      w.on fun d => (d.count .FAB_AUTH).raise .packetAuth (Dev.evPart (if x.slice = 0 then none else some p)) 0x800 (x.src + x.slice * 2 ^ 16 + x.ch * 2 ^ 32)
    else w.acceptPacket (if x.slice = 0 then none else some p) (x.opened (w.dev.packetKey x)) sender

/-- PACKET_RECEIVE (R227): a packet arrives whole on a lane that delivers (R259), with whether its skein asks for a signal, which no header bit says (notes/assumptions/20.md). It is checked,
relayed, carried in transit, landed, queued for a Ply engine, held for combining or NAKed. A part strapped to 0xFFFF accepts none (R216). -/
def execPacketReceive (a : Arrival) (sig : Bool) (s : State) : Host.Outcome State Fault Refusal :=
  runWork 4 (fun w =>
    if !w.dev.delivers a then w
    else
      let w := w.on (·.countBlocks a)
      let x := a.packet sig
      if w.dev.fabId = 0xFFFF then w
      else if !a.packetOk then w.on (·.count .FAB_DROP)
      else if x.dst ≠ w.dev.fabId && x.dst ≠ 0xFFFF then w.on (·.relay x a.sender)
      else w.receiveHere x a.sender) s

end Sys2Proof.Machine
end

