-- ==== Sys2Proof/Machine/Scalar.lean ====
section
/-!
DEFINITION. Class S: the scalar instructions (R127 to R131), loads and stores with their completions (R122, R130), and the halts of R123.
-/

namespace Sys2Proof.Machine

/-- Result instructions of class S: RD takes `f` of s[RA] and the second operand (R128). -/
def Dev.arith (d : Dev) (c : Nat) (w : Word) (top : Nat) (f : Word → Word → Word) : Dev :=
  d.issueCore c w top fun k => (k.setReg (Op.rd w) (f (k.reg (Op.ra w)) (k.opB w))).advance

/-- SNOP does nothing (R127). -/
def execSnop (c : Fin 1024) (w : Word) (s : State) : Host.Outcome State Fault Refusal :=
  runDev (coreDom c) (fun d => d.issueCore c w 0x00 Core.advance) s

/-- SADD: `s[RD] = s[RA] + b` (R128). -/
def execSadd (c : Fin 1024) (w : Word) (s : State) : Host.Outcome State Fault Refusal :=
  runDev (coreDom c) (fun d => d.arith c w 0x01 fun a b => a + b) s

/-- SSUB: `s[RD] = s[RA] - b` (R128). -/
def execSsub (c : Fin 1024) (w : Word) (s : State) : Host.Outcome State Fault Refusal :=
  runDev (coreDom c) (fun d => d.arith c w 0x02 fun a b => a - b) s

/-- SMUL: the low 64 bits of the product (R128). -/
def execSmul (c : Fin 1024) (w : Word) (s : State) : Host.Outcome State Fault Refusal :=
  runDev (coreDom c) (fun d => d.arith c w 0x03 fun a b => a * b) s

/-- SAND (R127). -/
def execSand (c : Fin 1024) (w : Word) (s : State) : Host.Outcome State Fault Refusal :=
  runDev (coreDom c) (fun d => d.arith c w 0x04 fun a b => a &&& b) s

/-- SOR (R127). -/
def execSor (c : Fin 1024) (w : Word) (s : State) : Host.Outcome State Fault Refusal :=
  runDev (coreDom c) (fun d => d.arith c w 0x05 fun a b => a ||| b) s

/-- SXOR (R127). -/
def execSxor (c : Fin 1024) (w : Word) (s : State) : Host.Outcome State Fault Refusal :=
  runDev (coreDom c) (fun d => d.arith c w 0x06 fun a b => a ^^^ b) s

/-- SSHL: shift left by b[5:0] (R128). -/
def execSshl (c : Fin 1024) (w : Word) (s : State) : Host.Outcome State Fault Refusal :=
  runDev (coreDom c) (fun d => d.arith c w 0x07 fun a b => a <<< (b.toNat % 64)) s

/-- SSHR: shift right by b[5:0] with zero fill (R128). -/
def execSshr (c : Fin 1024) (w : Word) (s : State) : Host.Outcome State Fault Refusal :=
  runDev (coreDom c) (fun d => d.arith c w 0x08 fun a b => a >>> (b.toNat % 64)) s

/-- SSRA: shift right by b[5:0] with sign fill (R128). -/
def execSsra (c : Fin 1024) (w : Word) (s : State) : Host.Outcome State Fault Refusal :=
  runDev (coreDom c) (fun d => d.arith c w 0x09 fun a b => a.sshiftRight (b.toNat % 64)) s

/-- SSLT: 1 when s[RA] is less, signed (R127). -/
def execSslt (c : Fin 1024) (w : Word) (s : State) : Host.Outcome State Fault Refusal :=
  runDev (coreDom c) (fun d => d.arith c w 0x0A fun a b => if a.toInt < b.toInt then 1 else 0) s

/-- SSLTU: 1 when s[RA] is less, unsigned (R127). -/
def execSsltu (c : Fin 1024) (w : Word) (s : State) : Host.Outcome State Fault Refusal :=
  runDev (coreDom c) (fun d => d.arith c w 0x0B fun a b => if a.toNat < b.toNat then 1 else 0) s

/-- SLI: the sign-extended immediate (R128). -/
def execSli (c : Fin 1024) (w : Word) (s : State) : Host.Outcome State Fault Refusal :=
  runDev (coreDom c) (fun d => d.issueCore c w 0x0C fun k => (k.setReg (Op.rd w) (BitVec.ofInt 64 (Op.simm w))).advance) s

/-- SLIH: the immediate into s[RD][63:32], the low half kept (R128). -/
def execSlih (c : Fin 1024) (w : Word) (s : State) : Host.Outcome State Fault Refusal :=
  runDev (coreDom c) (fun d => d.issueCore c w 0x0D fun k =>
    (k.setReg (Op.rd w) (BitVec.ofNat 64 (putBits (k.reg (Op.rd w)).toNat 32 32 (Op.imm w)))).advance) s

/-- The size in bytes of an SLD or SST by FN (R130). -/
def accessSize (fn : Nat) : Nat := 2 ^ (if fn < 4 then fn else fn - 4)

/-- A loaded value as SLD writes it: zero-extended, or sign-extended for FN 4 to 6 (R130). -/
def extend (sx : Bool) (size v : Nat) : Word :=
  if sx then BitVec.ofInt 64 (signed (8 * size) v) else BitVec.ofNat 64 v

/-- An address lies in a store of core `c` itself (R122). -/
def ownStore (c a : Nat) : Bool :=
  match Region.of a with
  | .under x _ | .bobbin x _ => x = c
  | _ => false

/-- SLD (R130): a misaligned or undefined address, one outside the partition, or one that cannot be reached halts the core (R123). A load from
the core's own stores writes RD, once no earlier scalar access is on its way (R122); any other is on its way until `SCALAR_LOAD_COMPLETE`, with RD pending (R117). Log entry notes/assumptions/50.md (DEDUCED). -/
def execSld (c : Fin 1024) (w : Word) (s : State) : Host.Outcome State Fault Refusal :=
  runWork (coreDom c) (fun wk => wk.issue c w 0x0E fun k wk =>
    let a := k.address w
    let n := accessSize (Op.fn w)
    let who := wk.dev.partOfCore c
    if a % n ≠ 0 then wk.on (·.coreFault c .formatFault)
    else match wk.dev.reachFrom (some c) who a n with
      | (.ok, _) =>
        if ownStore c a then
          if !k.sq.isEmpty then wk
          else match wk.coreLoad c who a n with
          | (wk, .ok, _, bs) =>
            wk.on (·.setCore c (k.setReg (Op.rd w) (extend (decide (4 ≤ Op.fn w)) n (leNat bs))).advance)
          | (wk, st, _, _) => wk.on (·.coreFault c st)
        else
          wk.on (·.setCore c ({ k.await (Op.rd w) with
            sq := k.sq ++ [Remote.mk k.seq true a n (decide (4 ≤ Op.fn w)) (Op.rd w) 0 k.pc] }).bumpSeq.advance)
      | (st, _) => wk.on (·.coreFault c st)) s

/-- SST (R130): as SLD for its faults. A store to the core's own stores waits for the earlier scalar accesses and is then visible at once (R122), and one that meets an uncorrectable word halts
the core; any other is on its way until `SCALAR_STORE_COMPLETE`. -/
def execSst (c : Fin 1024) (w : Word) (s : State) : Host.Outcome State Fault Refusal :=
  runWork (coreDom c) (fun wk => wk.issue c w 0x0F fun k wk =>
    let a := k.address w
    let n := accessSize (Op.fn w)
    let v := (k.reg (Op.rb w)).toNat % 2 ^ (8 * n)
    let who := wk.dev.partOfCore c
    if a % n ≠ 0 then wk.on (·.coreFault c .formatFault)
    else match wk.dev.reachFrom (some c) who a n with
      | (.ok, _) =>
        if ownStore c a then
          if !k.sq.isEmpty then wk
          else match wk.coreStore c who a (leBytes n v) with
          | (wk, .ok, _) => wk.on (·.setCore c k.advance)
          | (wk, st, _) => wk.on (·.coreFault c st)
        else
          wk.on (·.setCore c { k with sq := k.sq ++ [Remote.mk k.seq false a n false 0 v k.pc] }.bumpSeq.advance)
      | (st, _) => wk.on (·.coreFault c st)) s

/-- A scalar access on its way has failed: the core halts at the instruction's index (R123). A core that is stopping already keeps the cause, status and PC of its
earlier halt (DESIGN CHOICE). Log entry notes/assumptions/50.md (DESIGN CHOICE). -/
def Dev.lateFault (d : Dev) (c : Nat) (r : Remote) (st : Status) : Dev :=
  d.modCore c fun k =>
    let k := if r.load then { k with pending := k.pending.filter (· ≠ r.reg) } else k
    if k.run = .run ∨ k.run = .wait then { k.stop 3 st with pc := r.pc } else k

/-- The oldest scalar access of the core, an SLD, returns its data: s[RD] is written, or the core halts (R123, R130). Log entry notes/assumptions/50.md (DEDUCED). -/
def execScalarLoadComplete (c : Fin 1024) (s : State) : Host.Outcome State Fault Refusal :=
  runWork (coreDom c) (fun wk =>
    match (wk.dev.core c).sq with
    | r :: t =>
      if r.load then wk.unheld (wk.dev.partOfCore c) r.addr r.size fun wk =>
        let wk := wk.on (·.modCore c fun k => { k with sq := t })
        match wk.coreLoad c (wk.dev.partOfCore c) r.addr r.size with
        | (wk, .ok, _, bs) => wk.on fun d => (d.modCore c (·.setReg r.reg (extend r.signed r.size (leNat bs)))).pump c
        | (wk, st, _, _) => wk.on fun d => (d.lateFault c r st).pump c
      else wk
    | [] => wk) s

/-- The oldest scalar access of the core, an SST, becomes visible (R122): SWAITQ on unit S and waiting Y instructions may go on. -/
def execScalarStoreComplete (c : Fin 1024) (s : State) : Host.Outcome State Fault Refusal :=
  runWork (coreDom c) (fun wk =>
    match (wk.dev.core c).sq with
    | r :: t =>
      if r.load then wk
      else wk.unheld (wk.dev.partOfCore c) r.addr r.size fun wk =>
        let wk := wk.on (·.modCore c fun k => { k with sq := t })
        match wk.coreStore c (wk.dev.partOfCore c) r.addr (leBytes r.size r.value) with
        | (wk, .ok, _) => wk.on (·.pump c)
        | (wk, st, _) => wk.on fun d => (d.lateFault c r st).pump c
    | [] => wk) s

/-- SBR: branch by IMM when the condition holds, else go on (R129); not taken at index 8,191 it flows past the end (R123). -/
def execSbr (c : Fin 1024) (w : Word) (s : State) : Host.Outcome State Fault Refusal :=
  runDev (coreDom c) (fun d => d.issue c w 0x10 fun k d =>
    if branchCond (Op.fn w) (k.reg (Op.ra w)) (k.reg (Op.rb w)) then d.jump c (k.pc + Op.simm w) k
    else d.jump c (k.pc + 1) k) s

/-- SJAL: RD takes pc + 1, and the core jumps by IMM (R129). -/
def execSjal (c : Fin 1024) (w : Word) (s : State) : Host.Outcome State Fault Refusal :=
  runDev (coreDom c) (fun d => d.issue c w 0x11 fun k d =>
    d.jump c (k.pc + Op.simm w) (k.setReg (Op.rd w) (BitVec.ofNat 64 (k.pc + 1)))) s

/-- SJALR: the core jumps to s[RA] + IMM and RD takes pc + 1; a target outside 0 to 8,191 halts (R129). -/
def execSjalr (c : Fin 1024) (w : Word) (s : State) : Host.Outcome State Fault Refusal :=
  runDev (coreDom c) (fun d => d.issue c w 0x12 fun k d =>
    d.jump c (k.address w : Int) (k.setReg (Op.rd w) (BitVec.ofNat 64 (k.pc + 1)))) s

/-- SWAITQ: issue goes on once the outstanding instructions of unit FN number at most IMM, unsigned (R131). -/
def execSwaitq (c : Fin 1024) (w : Word) (s : State) : Host.Outcome State Fault Refusal :=
  runDev (coreDom c) (fun d => d.issueCore c w 0x13 fun k =>
    if k.outstanding (Op.fn w) ≤ Op.imm w then k.advance else k) s

/-- SSTAT: once unit FN has no outstanding instruction, RD[7:0] takes its first-status and RD[8] its MORE bit, and both are cleared (R131).
The bits of RD above are a free value. -/
def execSstat (c : Fin 1024) (w : Word) (s : State) : Host.Outcome State Fault Refusal :=
  runDev (coreDom c) (fun d => d.issue c w 0x14 fun k d =>
    let u := Op.fn w
    if k.outstanding u ≠ 0 then d
    else
      let (x, d) := d.free 55
      let v := (k.first.get .ok u).code + 256 * flag (decide (u ∈ k.more)) + 512 * x
      d.setCore c { k.setReg (Op.rd w) (BitVec.ofNat 64 v) with
        first := k.first.set u .ok, more := k.more.filter (· ≠ u), pc := k.pc + 1 }) s

/-- Core cycles at 1.8 GHz since the release of the domain of core `c`'s die (R131). -/
def Dev.coreCycles (d : Dev) (c : Nat) : Nat := (d.now - d.dieReleased.get 0 (c / 512)) * 9 / 5

/-- SINFO: the logical core number, the partition, the fabric id, the core cycles, or the instruction set revision (R131). -/
def execSinfo (c : Fin 1024) (w : Word) (s : State) : Host.Outcome State Fault Refusal :=
  runDev (coreDom c) (fun d => d.issueCore c w 0x15 fun k =>
    let v := match Op.fn w with
      | 0 => c.val
      | 1 => (d.partOfCore c).getD 0xFFFFFFFFFFFFFFFF
      | 2 => d.get F.FAB_ID_ID
      | 3 => d.coreCycles c
      | _ => 0x0100
    (k.setReg (Op.rd w) (BitVec.ofNat 64 v)).advance) s

/-- SHALT: issue stops with cause SHALT and status OK; the PC holds the index (R131). -/
def execShalt (c : Fin 1024) (w : Word) (s : State) : Host.Outcome State Fault Refusal :=
  runDev (coreDom c) (fun d => d.issueCore c w 0x16 fun k => k.stop 1 .ok) s

/-- A stopping core whose queued instructions have all completed shows HALT (R151); a halt on a fault raises its event (R123). -/
def execCoreHaltComplete (c : Fin 1024) (s : State) : Host.Outcome State Fault Refusal :=
  runDev (coreDom c) (fun d =>
    let k := d.core c
    if k.run = .stopping ∧ k.quiet then
      let d := d.setCore c { k with run := .halt }
      if k.haltCause = 3 then d.raise .coreHalted (Dev.evPart (d.partOfCore c)) c k.pc k.haltStatus else d
    else d) s

/-- The scalar unit fetches a word with a reserved class or opcode, or with an uncorrectable error: the core halts (R123). -/
def execReservedOpcode (c : Fin 1024) (w : Word) (s : State) : Host.Outcome State Fault Refusal :=
  runDev (coreDom c) (fun d =>
    if (d.core c).pc ∈ (d.core c).ibad ∨ usedMask (Op.top w) = none then d.issueCore c w (Op.top w) id else d) s

end Sys2Proof.Machine
end

