-- ==== Sys2Proof/Machine/Dispatch.lean ====
section
/-!
DEFINITION. The meaning of every command: one arm per row of the opcode table.
-/

namespace Sys2Proof.Machine

/-- The effect of a command on everything but the queue. Log entry notes/assumptions/2.md (DESIGN CHOICE). -/
def exec (i : Instr) (s : State) : Host.Outcome State Fault Refusal :=
  match i with
  | .registerWrite q a size v => Sys2Proof.Machine.execRegisterWrite q a size v s
  | .snop c w => Sys2Proof.Machine.execSnop c w s
  | .sadd c w => Sys2Proof.Machine.execSadd c w s
  | .ssub c w => Sys2Proof.Machine.execSsub c w s
  | .smul c w => Sys2Proof.Machine.execSmul c w s
  | .sand c w => Sys2Proof.Machine.execSand c w s
  | .sor c w => Sys2Proof.Machine.execSor c w s
  | .sxor c w => Sys2Proof.Machine.execSxor c w s
  | .sshl c w => Sys2Proof.Machine.execSshl c w s
  | .sshr c w => Sys2Proof.Machine.execSshr c w s
  | .ssra c w => Sys2Proof.Machine.execSsra c w s
  | .sslt c w => Sys2Proof.Machine.execSslt c w s
  | .ssltu c w => Sys2Proof.Machine.execSsltu c w s
  | .sli c w => Sys2Proof.Machine.execSli c w s
  | .slih c w => Sys2Proof.Machine.execSlih c w s
  | .sld c w => Sys2Proof.Machine.execSld c w s
  | .scalarLoadComplete c => Sys2Proof.Machine.execScalarLoadComplete c s
  | .sst c w => Sys2Proof.Machine.execSst c w s
  | .sbr c w => Sys2Proof.Machine.execSbr c w s
  | .sjal c w => Sys2Proof.Machine.execSjal c w s
  | .sjalr c w => Sys2Proof.Machine.execSjalr c w s
  | .swaitq c w => Sys2Proof.Machine.execSwaitq c w s
  | .sstat c w => Sys2Proof.Machine.execSstat c w s
  | .sinfo c w => Sys2Proof.Machine.execSinfo c w s
  | .shalt c w => Sys2Proof.Machine.execShalt c w s
  | .coreHaltComplete c => Sys2Proof.Machine.execCoreHaltComplete c s
  | .mop c w chk => Sys2Proof.Machine.execMop c w chk s
  | .mopComplete c => Sys2Proof.Machine.execMopComplete c s
  | .mdrn c w chk => Sys2Proof.Machine.execMdrn c w chk s
  | .mdrnComplete c => Sys2Proof.Machine.execMdrnComplete c s
  | .mseed c w => Sys2Proof.Machine.execMseed c w s
  | .mtxTestStart r core => Sys2Proof.Machine.execMtxTestStart r core s
  | .mtxTestEnd bad => Sys2Proof.Machine.execMtxTestEnd bad s
  | .vadd c w => Sys2Proof.Machine.execVadd c w s
  | .vsub c w => Sys2Proof.Machine.execVsub c w s
  | .vmul c w => Sys2Proof.Machine.execVmul c w s
  | .vfma c w => Sys2Proof.Machine.execVfma c w s
  | .vmax c w => Sys2Proof.Machine.execVmax c w s
  | .vmin c w => Sys2Proof.Machine.execVmin c w s
  | .vabs c w => Sys2Proof.Machine.execVabs c w s
  | .vneg c w => Sys2Proof.Machine.execVneg c w s
  | .vbit c w => Sys2Proof.Machine.execVbit c w s
  | .vshl c w => Sys2Proof.Machine.execVshl c w s
  | .vshr c w => Sys2Proof.Machine.execVshr c w s
  | .vcmp c w => Sys2Proof.Machine.execVcmp c w s
  | .vsel c w => Sys2Proof.Machine.execVsel c w s
  | .vcvt c w => Sys2Proof.Machine.execVcvt c w s
  | .vqfp4 c w => Sys2Proof.Machine.execVqfp4 c w s
  | .vfn c w => Sys2Proof.Machine.execVfn c w s
  | .vscan c w => Sys2Proof.Machine.execVscan c w s
  | .vsred c w => Sys2Proof.Machine.execVsred c w s
  | .vsarg c w => Sys2Proof.Machine.execVsarg c w s
  | .vcmprs c w => Sys2Proof.Machine.execVcmprs c w s
  | .vexpnd c w => Sys2Proof.Machine.execVexpnd c w s
  | .vgath c w => Sys2Proof.Machine.execVgath c w s
  | .vscat c w => Sys2Proof.Machine.execVscat c w s
  | .vseed c w => Sys2Proof.Machine.execVseed c w s
  | .streamOpComplete c => Sys2Proof.Machine.execStreamOpComplete c s
  | .vrld c w => Sys2Proof.Machine.execVrld c w s
  | .vrst c w => Sys2Proof.Machine.execVrst c w s
  | .vrset c w => Sys2Proof.Machine.execVrset c w s
  | .vrget c w => Sys2Proof.Machine.execVrget c w s
  | .requestPromotion c => Sys2Proof.Machine.execRequestPromotion c s
  | .xdma c w => Sys2Proof.Machine.execXdma c w s
  | .xild c w => Sys2Proof.Machine.execXild c w s
  | .xcnt c w => Sys2Proof.Machine.execXcnt c w s
  | .dmaDescriptorStart c => Sys2Proof.Machine.execDmaDescriptorStart c s
  | .dmaDescriptorComplete c ix => Sys2Proof.Machine.execDmaDescriptorComplete c ix s
  | .ysig c w => Sys2Proof.Machine.execYsig c w s
  | .ywait c w => Sys2Proof.Machine.execYwait c w s
  | .ywaitTimeout c => Sys2Proof.Machine.execYwaitTimeout c s
  | .ybar c w => Sys2Proof.Machine.execYbar c w s
  | .yread c w => Sys2Proof.Machine.execYread c w s
  | .tread c w => Sys2Proof.Machine.execTread c w s
  | .twait c w => Sys2Proof.Machine.execTwait c w s
  | .tdue c w => Sys2Proof.Machine.execTdue c w s
  | .tdone c w => Sys2Proof.Machine.execTdone c w s
  | .tskein c w => Sys2Proof.Machine.execTskein c w s
  | .tphase c w => Sys2Proof.Machine.execTphase c w s
  | .coreStart r c entry => Sys2Proof.Machine.execCoreStart r c entry s
  | .coreStop r c entry => Sys2Proof.Machine.execCoreStop r c entry s
  | .coreLoad r c entry => Sys2Proof.Machine.execCoreLoad r c entry s
  | .coreLoadComplete c => Sys2Proof.Machine.execCoreLoadComplete c s
  | .flitReceive n up num vn words corrected bad => Sys2Proof.Machine.execFlitReceive n up num vn words corrected bad s
  | .bondNakReceive n up num => Sys2Proof.Machine.execBondNakReceive n up num s
  | .bondCreditReturn n up vn k => Sys2Proof.Machine.execBondCreditReturn n up vn k s
  | .networkMessage n up vn => Sys2Proof.Machine.execNetworkMessage n up vn s
  | .bondTrainingStart n => Sys2Proof.Machine.execBondTrainingStart n s
  | .laneTestEnd n up down => Sys2Proof.Machine.execLaneTestEnd n up down s
  | .capabilityBlock n w0 w1 w2 w3 => Sys2Proof.Machine.execCapabilityBlock n w0 w1 w2 w3 s
  | .repairMap n up map => Sys2Proof.Machine.execRepairMap n up map s
  | .widthBeacon n v => Sys2Proof.Machine.execWidthBeacon n v s
  | .widthBeaconSend n => Sys2Proof.Machine.execWidthBeaconSend n s
  | .retrainRetryTimer n => Sys2Proof.Machine.execRetrainRetryTimer n s
  | .lbiPortDisable r n => Sys2Proof.Machine.execLbiPortDisable r n s
  | .lbiPortRetrain r n => Sys2Proof.Machine.execLbiPortRetrain r n s
  | .lbiMarginStart r v => Sys2Proof.Machine.execLbiMarginStart r v s
  | .lbiMarginEnd edges => Sys2Proof.Machine.execLbiMarginEnd edges s
  | .dieAliveFall die => Sys2Proof.Machine.execDieAliveFall die s
  | .forwardedClockLoss die ports => Sys2Proof.Machine.execForwardedClockLoss die ports s
  | .dieAliveRise die bad => Sys2Proof.Machine.execDieAliveRise die bad s
  | .dieRejoinResume die bad => Sys2Proof.Machine.execDieRejoinResume die bad s
  | .lbiWrapOpen q die => Sys2Proof.Machine.execLbiWrapOpen q die s
  | .hbmRequest x => Sys2Proof.Machine.execHbmRequest x s
  | .hbmCreelGrant c pseudo elapsed blocked => Sys2Proof.Machine.execHbmCreelGrant c pseudo elapsed blocked s
  | .patrolScrub c => Sys2Proof.Machine.execPatrolScrub c s
  | .stackTempReading st temp => Sys2Proof.Machine.execStackTempReading st temp s
  | .stackNoReading st long => Sys2Proof.Machine.execStackNoReading st long s
  | .hbmInitComplete failed => Sys2Proof.Machine.execHbmInitComplete failed s
  | .hbmCfgWrite r v => Sys2Proof.Machine.execHbmCfgWrite r v s
  | .hbmPartWrite r p v => Sys2Proof.Machine.execHbmPartWrite r p v s
  | .hbmKeyDrop r mask => Sys2Proof.Machine.execHbmKeyDrop r mask s
  | .hbmMarginStart r v => Sys2Proof.Machine.execHbmMarginStart r v s
  | .hbmMarginEnd edges => Sys2Proof.Machine.execHbmMarginEnd edges s
  | .hbmCreelCommit r => Sys2Proof.Machine.execHbmCreelCommit r s
  | .laneCreelCommit r => Sys2Proof.Machine.execLaneCreelCommit r s
  | .twistBoundary => Sys2Proof.Machine.execTwistBoundary s
  | .planSlotStart => Sys2Proof.Machine.execPlanSlotStart s
  | .beaconReceive a arrival => Sys2Proof.Machine.execBeaconReceive a arrival s
  | .calibrationStart => Sys2Proof.Machine.execCalibrationStart s
  | .calibrationRequest a => Sys2Proof.Machine.execCalibrationRequest a s
  | .calibrationAnswer a => Sys2Proof.Machine.execCalibrationAnswer a s
  | .holdoverExpiry => Sys2Proof.Machine.execHoldoverExpiry s
  | .twistCfgWrite r v => Sys2Proof.Machine.execTwistCfgWrite r v s
  | .twistCommit r => Sys2Proof.Machine.execTwistCommit r s
  | .slipNotice slice c => Sys2Proof.Machine.execSlipNotice slice c s
  | .syncSignalApply bank => Sys2Proof.Machine.execSyncSignalApply bank s
  | .syncWaitStart bank => Sys2Proof.Machine.execSyncWaitStart bank s
  | .syncZeroStart r first count => Sys2Proof.Machine.execSyncZeroStart r first count s
  | .syncZeroEnd => Sys2Proof.Machine.execSyncZeroEnd s
  | .syncDieClear r mask => Sys2Proof.Machine.execSyncDieClear r mask s
  | .barrierLocalArrival b => Sys2Proof.Machine.execBarrierLocalArrival b s
  | .barrierArrival sender id gen heat => Sys2Proof.Machine.execBarrierArrival sender id gen heat s
  | .barrierDeadline b => Sys2Proof.Machine.execBarrierDeadline b s
  | .barrierRelease sender id gen status sw => Sys2Proof.Machine.execBarrierRelease sender id gen status sw s
  | .barrierLocalTimeout b => Sys2Proof.Machine.execBarrierLocalTimeout b s
  | .barrierAbort r b => Sys2Proof.Machine.execBarrierAbort r b s
  | .heatNoticeReceive sender id gen => Sys2Proof.Machine.execHeatNoticeReceive sender id gen s
  | .graceNotice sender id gen => Sys2Proof.Machine.execGraceNotice sender id gen s
  | .syncBarWrite r b v => Sys2Proof.Machine.execSyncBarWrite r b v s
  | .syncDbgWrite r p v => Sys2Proof.Machine.execSyncDbgWrite r p v s
  | .repairWrite r id v => Sys2Proof.Machine.execRepairWrite r id v s
  | .packetReceive a sig => Sys2Proof.Machine.execPacketReceive a sig s
  | .acknowledgement a => Sys2Proof.Machine.execAcknowledgement a s
  | .ackTimer n => Sys2Proof.Machine.execAckTimer n s
  | .gapTimer n => Sys2Proof.Machine.execGapTimer n s
  | .prime a => Sys2Proof.Machine.execPrime a s
  | .laneCreelGrant e f ix pos => Sys2Proof.Machine.execLaneCreelGrant e f ix pos s
  | .skeinAccept o addr => Sys2Proof.Machine.execSkeinAccept o addr s
  | .skeinComplete n => Sys2Proof.Machine.execSkeinComplete n s
  | .flowDeadline n => Sys2Proof.Machine.execFlowDeadline n s
  | .planPrepare r p => Sys2Proof.Machine.execPlanPrepare r p s
  | .planReady p => Sys2Proof.Machine.execPlanReady p s
  | .planArm r p bar => Sys2Proof.Machine.execPlanArm r p bar s
  | .planSwitchArrival p => Sys2Proof.Machine.execPlanSwitchArrival p s
  | .planStop r p => Sys2Proof.Machine.execPlanStop r p s
  | .planDiscard r p => Sys2Proof.Machine.execPlanDiscard r p s
  | .fabPmapWrite r k v => Sys2Proof.Machine.execFabPmapWrite r k v s
  | .fabFslotWrite r k v => Sys2Proof.Machine.execFabFslotWrite r k v s
  | .fabTrnWrite r j v => Sys2Proof.Machine.execFabTrnWrite r j v s
  | .pilotWindow e m dark pilots => Sys2Proof.Machine.execPilotWindow e m dark pilots s
  | .ringLockRequest e m feed => Sys2Proof.Machine.execRingLockRequest e m feed s
  | .seekSweepEnd e m found bias => Sys2Proof.Machine.execSeekSweepEnd e m found bias s
  | .captureSettled e m bias => Sys2Proof.Machine.execCaptureSettled e m bias s
  | .captureTimeout e m => Sys2Proof.Machine.execCaptureTimeout e m s
  | .ringDark e m => Sys2Proof.Machine.execRingDark e m s
  | .ringLightReturn e m feed => Sys2Proof.Machine.execRingLightReturn e m feed s
  | .laneRetry r e m => Sys2Proof.Machine.execLaneRetry r e m s
  | .laneRxpermWrite r e f v => Sys2Proof.Machine.execLaneRxpermWrite r e f v s
  | .laneMarginStart r e v => Sys2Proof.Machine.execLaneMarginStart r e v s
  | .laneMarginEnd e low high => Sys2Proof.Machine.execLaneMarginEnd e low high s
  | .distaffWarmDone e k => Sys2Proof.Machine.execDistaffWarmDone e k s
  | .distaffPowerReading e k powers => Sys2Proof.Machine.execDistaffPowerReading e k powers s
  | .distaffForceReading e k first second => Sys2Proof.Machine.execDistaffForceReading e k first second s
  | .optBaselineWrite r e m v => Sys2Proof.Machine.execOptBaselineWrite r e m v s
  | .optSwPlan r e g => Sys2Proof.Machine.execOptSwPlan r e g s
  | .optSwForce r e g => Sys2Proof.Machine.execOptSwForce r e g s
  | .switchTurnDone e => Sys2Proof.Machine.execSwitchTurnDone e s
  | .plyPslotWrite r e q v => Sys2Proof.Machine.execPlyPslotWrite r e q v s
  | .tileBind e p => Sys2Proof.Machine.execTileBind e p s
  | .plyAccumulate e p => Sys2Proof.Machine.execPlyAccumulate e p s
  | .plyConvert n => Sys2Proof.Machine.execPlyConvert n s
  | .plySelfContribution n => Sys2Proof.Machine.execPlySelfContribution n s
  | .plyCombine e p => Sys2Proof.Machine.execPlyCombine e p s
  | .combineHoldExpiry e p => Sys2Proof.Machine.execCombineHoldExpiry e p s
  | .tileFinish e p layer old => Sys2Proof.Machine.execTileFinish e p layer old s
  | .passTwo e p layer old => Sys2Proof.Machine.execPassTwo e p layer old s
  | .solverDone e p layer old => Sys2Proof.Machine.execSolverDone e p layer old s
  | .layerFinish e p layer old => Sys2Proof.Machine.execLayerFinish e p layer old s
  | .verdictSend e p => Sys2Proof.Machine.execVerdictSend e p s
  | .groupMessage e p => Sys2Proof.Machine.execGroupMessage e p s
  | .verdictResult e p => Sys2Proof.Machine.execVerdictResult e p s
  | .groupResult e p => Sys2Proof.Machine.execGroupResult e p s
  | .groupResultTimeout p => Sys2Proof.Machine.execGroupResultTimeout p s
  | .plySubmit r p => Sys2Proof.Machine.execPlySubmit r p s
  | .plyCommit r p => Sys2Proof.Machine.execPlyCommit r p s
  | .plyRollback r p => Sys2Proof.Machine.execPlyRollback r p s
  | .plyStepWrite r p v => Sys2Proof.Machine.execPlyStepWrite r p v s
  | .plyLsWrite r p v => Sys2Proof.Machine.execPlyLsWrite r p v s
  | .verifyRunStart r e p v => Sys2Proof.Machine.execVerifyRunStart r e p v s
  | .verifyRunEnd e p => Sys2Proof.Machine.execVerifyRunEnd e p s
  | .phaseTimerTick => Sys2Proof.Machine.execPhaseTimerTick s
  | .zqlTrainingStart p => Sys2Proof.Machine.execZqlTrainingStart p s
  | .trainFrame p f => Sys2Proof.Machine.execTrainFrame p f s
  | .zqlNak p f => Sys2Proof.Machine.execZqlNak p f s
  | .read p f => Sys2Proof.Machine.execRead p f s
  | .write p f => Sys2Proof.Machine.execWrite p f s
  | .sqDoorbell p f => Sys2Proof.Machine.execSqDoorbell p f s
  | .cqDoorbell p f => Sys2Proof.Machine.execCqDoorbell p f s
  | .signal p f => Sys2Proof.Machine.execSignal p f s
  | .wait p f => Sys2Proof.Machine.execWait p f s
  | .hostWaitTimeout p tag => Sys2Proof.Machine.execHostWaitTimeout p tag s
  | .identity p f => Sys2Proof.Machine.execIdentity p f s
  | .attest p f => Sys2Proof.Machine.execAttest p f s
  | .fwBegin p f => Sys2Proof.Machine.execFwBegin p f s
  | .fwData p f => Sys2Proof.Machine.execFwData p f s
  | .fwEnd p f => Sys2Proof.Machine.execFwEnd p f s
  | .svnRaise p f => Sys2Proof.Machine.execSvnRaise p f s
  | .activate p f => Sys2Proof.Machine.execActivate p f s
  | .reclaim p f => Sys2Proof.Machine.execReclaim p f s
  | .release p f => Sys2Proof.Machine.execRelease p f s
  | .reclaimDeadline p => Sys2Proof.Machine.execReclaimDeadline p s
  | .keySlice p f => Sys2Proof.Machine.execKeySlice p f s
  | .keyMgmt p f => Sys2Proof.Machine.execKeyMgmt p f s
  | .keyDrop p f => Sys2Proof.Machine.execKeyDrop p f s
  | .queueEntryStart p => Sys2Proof.Machine.execQueueEntryStart p s
  | .queueEntryComplete p ix => Sys2Proof.Machine.execQueueEntryComplete p ix s
  | .zqlSqWrite r q ix v => Sys2Proof.Machine.execZqlSqWrite r q ix v s
  | .zqlCqWrite r q ix v => Sys2Proof.Machine.execZqlCqWrite r q ix v s
  | .eventSend p => Sys2Proof.Machine.execEventSend p s
  | .pkgReset => Sys2Proof.Machine.execPkgReset s
  | .pkgResetRelease => Sys2Proof.Machine.execPkgResetRelease s
  | .detectorTrip det => Sys2Proof.Machine.execDetectorTrip det s
  | .detectorRelease det => Sys2Proof.Machine.execDetectorRelease det s
  | .refclkLoss => Sys2Proof.Machine.execRefclkLoss s
  | .domainRelease straps fuseOk => Sys2Proof.Machine.execDomainRelease straps fuseOk s
  | .bootRomDone badObjects bad => Sys2Proof.Machine.execBootRomDone badObjects bad s
  | .railRequest die cmd v => Sys2Proof.Machine.execRailRequest die cmd v s
  | .railResponse resp => Sys2Proof.Machine.execRailResponse resp s
  | .railRetryTimer die => Sys2Proof.Machine.execRailRetryTimer die s
  | .railAlert => Sys2Proof.Machine.execRailAlert s
  | .opticalRailLow r => Sys2Proof.Machine.execOpticalRailLow r s
  | .opticalRailReturn r => Sys2Proof.Machine.execOpticalRailReturn r s
  | .eventLogWrite => Sys2Proof.Machine.execEventLogWrite s
  | .freezeArm r => Sys2Proof.Machine.execFreezeArm r s
  | .freezeNow r => Sys2Proof.Machine.execFreezeNow r s
  | .freezePin => Sys2Proof.Machine.execFreezePin s
  | .freezeDriveEnd => Sys2Proof.Machine.execFreezeDriveEnd s
  | .pk a rest => Sys2Proof.Machine.execPk a rest s
  | .po a rest => Sys2Proof.Machine.execPo a rest s
  | .ev args => Sys2Proof.Machine.execEv args s
  | .fz args => Sys2Proof.Machine.execFz args s
  | .sn args => Sys2Proof.Machine.execSn args s
  | .ln e rest => Sys2Proof.Machine.execLn e rest s
  | .so id rest => Sys2Proof.Machine.execSo id rest s
  | .sr id rest => Sys2Proof.Machine.execSr id rest s
  | .tt args => Sys2Proof.Machine.execTt args s
  | .mg target args => Sys2Proof.Machine.execMg target args s
  | .bd args => Sys2Proof.Machine.execBd args s
  | .hp => Sys2Proof.Machine.execHp s
  | .monitorBreak f => Sys2Proof.Machine.execMonitorBreak f s
  | .baudRevert => Sys2Proof.Machine.execBaudRevert s
  | .dbgMonCtlWrite r v => Sys2Proof.Machine.execDbgMonCtlWrite r v s
  | .dbgUnlockWrite r p v => Sys2Proof.Machine.execDbgUnlockWrite r p v s
  | .tapReset => Sys2Proof.Machine.execTapReset s
  | .extest balls cells => Sys2Proof.Machine.execExtest balls cells s
  | .idcode => Sys2Proof.Machine.execIdcode s
  | .samplePreload balls cells => Sys2Proof.Machine.execSamplePreload balls cells s
  | .clamp => Sys2Proof.Machine.execClamp s
  | .highz => Sys2Proof.Machine.execHighz s
  | .bypass code => Sys2Proof.Machine.execBypass code s
  | .blockAlignmentTaken l => Sys2Proof.Machine.execBlockAlignmentTaken l s
  | .blockAlignmentLoss l => Sys2Proof.Machine.execBlockAlignmentLoss l s
  | .clockStepEnd n active standby => Sys2Proof.Machine.execClockStepEnd n active standby s
  | .bondAcknowledgement n up num => Sys2Proof.Machine.execBondAcknowledgement n up num s
  | .scalarStoreComplete c => Sys2Proof.Machine.execScalarStoreComplete c s
  | .reservedOpcode c w => Sys2Proof.Machine.execReservedOpcode c w s
  | .hbmKeyDropDone => Sys2Proof.Machine.execHbmKeyDropDone s
  | .planLoadComplete p => Sys2Proof.Machine.execPlanLoadComplete p s
  | .controlPortPrbsEnd p => Sys2Proof.Machine.execControlPortPrbsEnd p s
  | .hbmRailOutOfTolerance st => Sys2Proof.Machine.execHbmRailOutOfTolerance st s

end Sys2Proof.Machine
end

