-- ==== Sys2Proof/Safety.lean ====
section
/-!
DEFINITION. What the statements speak of: the states in which a core issues a word, the shape of a command's answer, and what it means that a step is safe.
-/

namespace Sys2Proof.Machine

/-- The outcome of a command or a step. -/
abbrev Answer := Host.Outcome State Fault Refusal

/-- The state with the device changed and nothing else. -/
def State.on (s : State) (f : Dev → Dev) : State := { s with dev := f s.dev }

/-- The state with core `c` replaced and nothing else. -/
def State.withCore (s : State) (c : Nat) (k : Core) : State := s.on fun d => d.setCore c k

/-- A core that has written `v` to the register that RD names and goes on to the next index (R117, R128). -/
def Core.result (k : Core) (w : Word) (v : Word) : Core := (k.setReg (Op.rd w) v).advance

/-- The scalar unit of core `c` issues the word `w` with the top byte `top` (R117, R123, R125, R138): the die's domain is released, the core exists and runs, no instruction of
it is stalled, the word stands at its PC free of error and is not being loaded, the word is legal, every register that it names is free, and flow does not leave the store. -/
abbrev Issues (s : State) (c : Fin 1024) (w : Word) (top : Nat) : Prop :=
  let k := s.dev.core c
  s.dev.released (coreDom c) = true ∧ s.dev.hasCore c = true ∧ k.run = .run ∧ k.stall = .none ∧ k.loadingIndex k.pc = false ∧
    k.pc ∉ k.ibad ∧ k.istore.get 0 k.pc = w ∧ Op.top w = top ∧ wordOk w = true ∧ (∀ r ∈ namedRegs w, r ∉ k.pending) ∧
    (k.pc ≠ 8191 ∨ (0x10 ≤ top ∧ top ≤ 0x12) ∨ top = 0x16)

/-- A word of a core that is met at its PC with an error that halts the core (R123, R125): an uncorrectable word, a reserved code or an unused bit set. -/
abbrev Faults (s : State) (c : Fin 1024) (w : Word) (st : Status) : Prop :=
  let k := s.dev.core c
  s.dev.released (coreDom c) = true ∧ s.dev.hasCore c = true ∧ k.run = .run ∧ k.stall = .none ∧ k.loadingIndex k.pc = false ∧
    ((k.pc ∈ k.ibad ∧ st = .eccUncorrected) ∨ (k.pc ∉ k.ibad ∧ k.istore.get 0 k.pc = w ∧ wordOk w = false ∧ st = .formatFault))

/-- A command completes with the effect `f` on the device: the queue and the memory stay. -/
abbrev Does (c : Instr) (s : State) (f : Dev → Dev) : Prop := exec c s = .next (s.on f)

/-- The state after an effect on memory and device: memory changes by the effect's list of changes (R84, R398), the queue stays; while a margin run holds a
read of the effect back, nothing happens (R176). -/
def State.work (s : State) (f : Work → Work) : State :=
  let w := f ⟨s.mem, [], s.dev, false⟩
  if w.held then s else { s with mem := s.mem.applyAll w.log.reverse, dev := w.dev }

/-- A command completes with the effect `f` on memory and device. -/
abbrev Works (c : Instr) (s : State) (f : Work → Work) : Prop := exec c s = .next (s.work f)

/-- A command answers with a next state that keeps the queue and the memory, and in which `p` holds of the device. -/
def Gives (c : Instr) (s : State) (p : Dev → Prop) : Prop :=
  ∃ d, exec c s = .next { s with dev := d } ∧ p d

/-- The registers whose block gives a write an operation of its own; a write of any other takes the value in its fields (R7, R8, R407). -/
def Reg.hasWrite (r : Reg) : Bool :=
  r ∈ [.LBI_WRAP_CTL, .LBI_PORT_CTL, .LBI_MRG_CTL, .MTX_TEST_CTL, .CORE_CTL, .HBM_CFG, .CREEL_COMMIT_HBM, .HBM_PART, .HBM_KEY_CTL, .HBM_MRG_CTL, .TWIST_CFG, .TWIST_COMMIT,
    .SYNC_DBG, .SYNC_ZERO, .SYNC_DIE_CTL, .SYNC_BAR, .SYNC_BAR_CTL, .SYNC_OBJ_LO, .CREEL_COMMIT_FAB, .FAB_PLAN_CTL, .FAB_PMAP, .FAB_FSLOT, .FAB_TRN, .OPT_SW_CTL, .OPT_BASELINE,
    .LANE_CTL, .LANE_MRG_CTL, .LANE_RXPERM, .PLY_PSLOT, .PLY_STEP, .PLY_STEP_CTL, .PLY_LS, .PLY_VRF_CTL, .TWIST_PHASE_BASE, .ZQL_SQ, .ZQL_CQ, .ZQL_QPTR, .ZQL_PCTL, .ZQL_PGRP,
    .ZQL_PFLOW, .ZQL_PSYNC, .EVT_FRZ_CTL, .DBG_MON_CTL, .DBG_UNLOCK]

/-- The invariant of a step: memory has its canonical form. -/
def State.Inv (s : State) : Prop := s.mem.wf = true

/-- A read of `n` bytes at `a` by core `via`, or by a unit of the base die, is served: it may reach its bytes (R13, R17, R40, R153, R158) and no margin run holds it back (R176). -/
abbrev Dev.serves (d : Dev) (via who : Option Nat) (a n : Nat) : Prop := (d.reachFrom via who a n).1 = .ok ∧ d.inMargin a n = false

/-- No word of memory that `n` bytes at `a` touch has an error (R84, R167). -/
abbrev Clean (m : Mem) (a n : Nat) : Prop :=
  (∀ w ∈ m.bad, ¬ (4 * w < a + n ∧ a < 4 * w + 4)) ∧ ∀ w ∈ m.soft, ¬ (4 * w < a + n ∧ a < 4 * w + 4)

/-- The `n` bytes from `a` up lie in the address range of the stores (R152). -/
abbrev InStores (a n : Nat) : Prop := 0x10000000000 ≤ a ∧ a + n ≤ 0x14020000000

/-- A core whose stream operation has given `o`: the generator and, where the operation updates one, a roving's COUNT (R67, R103, R105). -/
def Core.streamed (k : Core) (o : VOut) : Core :=
  let k := { k with vgen := BitVec.ofNat 64 o.gen }
  match o.count with
  | some (i, n) => k.setCount i n
  | none => k

/-- The stream operation `i`, whose plan is `plan`, runs in memory without errors once its checks hold (R90 to R93): every byte of memory is what the plan's element writes leave over
what it was, the outcome waits in the engine's queue, and nothing else changes but the core. A NaN in an integer destination gives the free value of these operands (R94). -/
def StreamRuns (top : Nat) (srd : Bool) (plan : Word → Core → Mem → (Nat → Nat) → VPlan) (i : Fin 1024 → Word → Instr) : Prop :=
  ∀ (s : State) (c : Fin 1024) (w : Word),
    let k := s.dev.core c
    let p := plan w k s.mem (Config.nanInt w (k.operands w s.mem))
    let o := p.run p.n
    s.Inv → Issues s c w top → k.vq.length < 8 → s.dev.keyStatus (s.dev.partOfCore c) = .ok → s.mem.bad = [] → s.mem.soft = [] → p.valid c = true →
      o.status ≠ .eccUncorrected →
      ∃ m : Mem, exec (i c w) s = .next { s with
        mem := m
        dev := s.dev.setCore c ((k.streamed o).pushV
          { seq := k.seq, status := o.status, flags := mkFlags o.nan o.ovf o.isat o.trunc false (o.status = Status.formatFault)
            result := if srd then some (Op.srd w, BitVec.ofNat 64 (o.result.getD 0)) else none }) } ∧
        ∀ a, m.byte a = (overlay s.mem o.writes.reverse).get (s.mem.byte a) a

/-- The stream operation `i` whose checks fail completes with FORMAT_FAULT and writes nothing (R90 to R92); what it reports as its count is a free value of
its operands (R94). -/
def StreamFaults (top : Nat) (srd : Bool) (plan : Word → Core → Mem → (Nat → Nat) → VPlan) (i : Fin 1024 → Word → Instr) : Prop :=
  ∀ (s : State) (c : Fin 1024) (w : Word),
    let k := s.dev.core c
    Issues s c w top → k.vq.length < 8 → (plan w k s.mem (Config.nanInt w (k.operands w s.mem))).valid c = false →
      exec (i c w) s = .next (s.on fun d => d.setCore c (k.pushV
        { seq := k.seq, status := .formatFault, flags := 32
          result := if srd then some (Op.srd w, BitVec.ofNat 64 (Config.failedCount w (k.operands w s.mem) 0 % 2 ^ 32)) else none }))

/-- The frame `f` goes to the host of control port `p`: it leaves at once under the next LSEQ and is kept until it is acknowledged, or it waits behind those that wait (R347, R348). -/
abbrev Dev.tells (d d' : Dev) (p : Nat) (f : Frame) : Prop :=
  if d.canSend p && (d.zport p).queue.isEmpty then
    d'.out = d.out ++ [⟨.frame, p, d.frameBody p (d.zport p).txNext f⟩] ∧ (d'.zport p).unacked = (d.zport p).unacked ++ [((d.zport p).txNext, f)]
  else d'.out = d.out ∧ (d'.zport p).queue = (d.zport p).queue ++ [f]

/-- A core that waits for the last instruction of its sync port goes on, with the status in RD[7:0] (R140, R142, R143). -/
abbrev Core.goesOn (k k' : Core) (y : YOp) (st : Status) : Prop :=
  k'.yq = [] ∧ k'.run = .run ∧ k'.stall = .none ∧ k'.pc = k.pc + 1 ∧ (y.rd ≠ 0 → (k'.reg y.rd).toNat % 256 = st.code) ∧ ∀ i, i ≠ y.rd → k'.reg i = k.reg i

/-- A channel-2 packet with the bytes `l` waits to leave for part `dst`: as remainder, or as a message of a send context (R245). -/
abbrev Dev.messages (d : Dev) (dst : Nat) (l : List Byte) : Prop :=
  let is (x : Packet) : Prop := x.ch = 2 ∧ x.dst = dst ∧ x.payload = takePad 256 0 l
  (∃ q ∈ d.fab.rem, ∃ x, q.packet = some x ∧ is x) ∨ ∃ k ∈ d.fab.skeins, ∃ x ∈ k.ready, is x

/-- Element `i` of a layer's version at `base`: w, m and v, the moments widened exactly; rule 0 has no v (R303, R304). -/
def Mem.element (m : Mem) (rule base i : Nat) : Nat × Nat × Nat :=
  let a := base + i / 64 * recordSize rule
  (m.nat (a + 4 * (i % 64)) 4, widen16 (m.nat (a + 256 + 2 * (i % 64)) 2), if rule = 0 then 0 else widen16 (m.nat (a + 384 + 2 * (i % 64)) 2))

/-- Element `i` of a layer's version at `base` holds w as FP32 and the moments as BF16 codes; rule 0 has no v (R303). -/
abbrev Mem.holds (m : Mem) (rule base i wCode mCode vCode : Nat) : Prop :=
  let a := base + i / 64 * recordSize rule
  m.nat (a + 4 * (i % 64)) 4 = wCode % 2 ^ 32 ∧ m.nat (a + 256 + 2 * (i % 64)) 2 = mCode % 2 ^ 16 ∧ (rule ≠ 0 → m.nat (a + 384 + 2 * (i % 64)) 2 = vCode % 2 ^ 16)

/-- A step is safe when it answers a next state: it neither faults nor refuses. -/
def State.Safe (s : State) : Prop := ∃ t, step s = .next t

end Sys2Proof.Machine
end

