-- ==== Sys2Proof/Certificates/Slice0/Obligations.lean ====
section
/-!
DEFINITION. The statements for the provers. Each docstring names the rules that it rests on.
-/

section Statements

open Sys2Proof Sys2Proof.Machine


/-- R116, R127, R128: The result instructions of class S write RD and go on; everything else of the machine stays. S0 reads as zero and a write to it is discarded; any other
register holds what was written, and its neighbours stay. -/
def Obligations.ScalarArithmetic : Prop :=
  (∀ (s : State) (c : Fin 1024) (w : Word),
     let k := s.dev.core c
     let a := k.reg (Op.ra w)
     let b := k.opB w
     let gives (v : Word) : Answer := .next (s.withCore c (k.result w v))
     (Issues s c w 0x00 → exec (.snop c w) s = .next (s.withCore c k.advance)) ∧
     (Issues s c w 0x01 → exec (.sadd c w) s = gives (a + b)) ∧
     (Issues s c w 0x02 → exec (.ssub c w) s = gives (a - b)) ∧
     (Issues s c w 0x03 → exec (.smul c w) s = gives (a * b)) ∧
     (Issues s c w 0x04 → exec (.sand c w) s = gives (a &&& b)) ∧
     (Issues s c w 0x05 → exec (.sor c w) s = gives (a ||| b)) ∧
     (Issues s c w 0x06 → exec (.sxor c w) s = gives (a ^^^ b)) ∧
     (Issues s c w 0x07 → exec (.sshl c w) s = gives (a <<< (b.toNat % 64))) ∧
     (Issues s c w 0x08 → exec (.sshr c w) s = gives (a >>> (b.toNat % 64))) ∧
     (Issues s c w 0x09 → exec (.ssra c w) s = gives (a.sshiftRight (b.toNat % 64))) ∧
     (Issues s c w 0x0A → exec (.sslt c w) s = gives (if a.toInt < b.toInt then 1 else 0)) ∧
     (Issues s c w 0x0B → exec (.ssltu c w) s = gives (if a.toNat < b.toNat then 1 else 0)) ∧
     (Issues s c w 0x0C → exec (.sli c w) s = gives (BitVec.ofInt 64 (Op.simm w))) ∧
     (Issues s c w 0x0D → exec (.slih c w) s = gives (BitVec.ofNat 64 ((k.reg (Op.rd w)).toNat % 2 ^ 32 + Op.imm w * 2 ^ 32)))) ∧
  (∀ (k : Core) (i j : Nat) (v : Word),
     (k.setReg i v).reg 0 = 0 ∧ (i ≠ 0 → (k.setReg i v).reg i = v) ∧ (i = 0 → (k.setReg i v).sregs = k.sregs) ∧
       (j ≠ i → (k.setReg i v).reg j = k.reg j))

/-- R129, R131: Branches and jumps, in range and out of it. A target outside 0 to 8,191 halts the core with the PC where it was. Waiting for a unit, reading its first status, which
waits for the unit's outstanding work, reading identity, halting; R151: the halt completes once the queues are empty. SINFO 3 gives the time since the release of the core's die in
cycles of 1.8 GHz by log entry notes/assumptions/50.md (DEDUCED). -/
def Obligations.ScalarControl : Prop :=
  (∀ (s : State) (c : Fin 1024) (w : Word),
     let k := s.dev.core c
     let goes (t : Int) (k : Core) : Answer :=
       if 0 ≤ t ∧ t ≤ 8191 then .next (s.withCore c { k with pc := t.toNat }) else .next (s.withCore c ((s.dev.core c).stop 3 .formatFault))
     let link := k.setReg (Op.rd w) (BitVec.ofNat 64 (k.pc + 1))
     (Issues s c w 0x10 → exec (.sbr c w) s =
       goes (if branchCond (Op.fn w) (k.reg (Op.ra w)) (k.reg (Op.rb w)) then (k.pc : Int) + Op.simm w else (k.pc : Int) + 1) k) ∧
     (Issues s c w 0x11 → exec (.sjal c w) s = goes ((k.pc : Int) + Op.simm w) link) ∧
     (Issues s c w 0x12 → exec (.sjalr c w) s = goes (k.reg (Op.ra w) + BitVec.ofInt 64 (Op.simm w)).toNat link)) ∧
  (∀ (s : State) (c : Fin 1024) (w : Word),
     let k := s.dev.core c
     (Issues s c w 0x13 → k.outstanding (Op.fn w) ≤ Op.imm w → exec (.swaitq c w) s = .next (s.withCore c k.advance)) ∧
     (Issues s c w 0x13 → Op.imm w < k.outstanding (Op.fn w) → exec (.swaitq c w) s = .next (s.withCore c k)) ∧
     (Issues s c w 0x14 → k.outstanding (Op.fn w) = 0 → ∃ v : Word,
       exec (.sstat c w) s = .next { s with dev := { s.dev with
         fresh := s.dev.fresh + 1
         cores := s.dev.cores.set c { k.result w v with
           first := k.first.set (Op.fn w) .ok, more := k.more.filter (· ≠ Op.fn w) } } } ∧
       v.toNat % 256 = (k.first.get .ok (Op.fn w)).code ∧ v.toNat / 256 % 2 = flag (decide (Op.fn w ∈ k.more))) ∧
     (Issues s c w 0x14 → k.outstanding (Op.fn w) ≠ 0 → exec (.sstat c w) s = .next s) ∧
     (Issues s c w 0x15 → exec (.sinfo c w) s = .next (s.withCore c (k.result w (BitVec.ofNat 64
       (if Op.fn w = 0 then c.val
        else if Op.fn w = 1 then (s.dev.partOfCore c).getD (2 ^ 64 - 1)
        else if Op.fn w = 2 then s.dev.get F.FAB_ID_ID
        else if Op.fn w = 3 then (s.dev.now - s.dev.dieReleased.get 0 (c / 512)) * 9 / 5
        else 0x0100))))) ∧
     (Issues s c w 0x16 → exec (.shalt c w) s = .next (s.withCore c { k with
       run := .stopping, haltCause := 1, haltStatus := .ok, due := none })) ∧
     (s.dev.released (coreDom c) → k.run = .stopping → k.quiet = true → k.haltCause ≠ 3 →
       exec (.coreHaltComplete c) s = .next (s.withCore c { k with run := .halt })) ∧
     (s.dev.released (coreDom c) → k.run = .stopping → k.quiet = true → k.haltCause = 3 →
       exec (.coreHaltComplete c) s = .next (s.on fun d =>
         (d.setCore c { k with run := .halt }).raise .coreHalted (Dev.evPart (d.partOfCore c)) c k.pc k.haltStatus)))

/-- R123, R125: A word with a reserved class or opcode, or with an uncorrectable error, halts the core where it stands. A word that breaks the rules of its opcode (an unused bit
set, a reserved code in a field) halts the core at its index, whichever instruction it is. -/
def Obligations.IllegalWordsHalt : Prop :=
  (∀ (s : State) (c : Fin 1024) (w : Word) (st : Status),
     Faults s c w st → (st = .eccUncorrected ∨ usedMask (Op.top w) = none) →
       exec (.reservedOpcode c w) s = .next (s.withCore c ((s.dev.core c).stop 3 st))) ∧
  (∀ (s : State) (c : Fin 1024) (w : Word) (st : Status) (i : Instr) (chk : Option ArrayCheck),
     Faults s c w st →
       i ∈ [Instr.snop c w, .sadd c w, .ssub c w, .smul c w, .sand c w, .sor c w, .sxor c w, .sshl c w, .sshr c w, .ssra c w, .sslt c w, .ssltu c w, .sli c
         w, .slih c w, .sld c w, .sst c w, .sbr c w, .sjal c w, .sjalr c w, .swaitq c w, .sstat c w, .sinfo c w, .shalt c w, .mseed c w, .vadd c w, .vsub c w,
         .vmul c w, .vfma c w, .vmax c w, .vmin c w, .vabs c w, .vneg c w, .vbit c w, .vshl c w, .vshr c w, .vcmp c w, .vsel c w, .vcvt c w, .vqfp4 c w, .vfn c
         w, .vscan c w, .vsred c w, .vsarg c w, .vcmprs c w, .vexpnd c w, .vgath c w, .vscat c w, .vseed c w, .vrld c w, .vrst c w, .vrset c w, .vrget c w,
         .xdma c w, .xild c w, .xcnt c w, .ysig c w, .ywait c w, .ybar c w, .yread c w, .tread c w, .twait c w, .tdue c w, .tdone c w, .tskein c w, .tphase c
         w, .mop c w chk, .mdrn c w chk] →
       i.wellFormed = true → exec i s = .next (s.withCore c ((s.dev.core c).stop 3 st)))

/-- R122, R130, R176: Loads and stores. An access of the core's own stores waits for those on their way and then takes effect at once; any other is on its way until its completion.
A misaligned one halts the core. The memory of a store changes in the bytes stored to and nowhere else. That an access of the core's own stores waits for those on their way is log
entry notes/assumptions/50.md (DEDUCED), and that another one takes effect at its completion row is log entry notes/assumptions/9.md (DESIGN CHOICE). The oldest access on its way
completes, unless a margin run holds it back: a load writes its register with the bytes at its address, a store changes them; then the sync port goes on. -/
def Obligations.ScalarLoadsAndStores : Prop :=
  (∀ (s : State) (c : Fin 1024) (w : Word),
     let k := s.dev.core c
     let a := k.address w
     let n := accessSize (Op.fn w)
     let who := s.dev.partOfCore c
     let sx := decide (4 ≤ Op.fn w)
     let v := (k.reg (Op.rb w)).toNat % 2 ^ (8 * n)
     (Issues s c w 0x0E → a % n = 0 → s.dev.serves (some c.val) who a n → ownStore c a = true → k.sq = [] → Clean s.mem a n →
       exec (.sld c w) s = .next (s.withCore c (k.result w (extend sx n (s.mem.nat a n))))) ∧
     (Issues s c w 0x0E → a % n = 0 → (s.dev.reachFrom (some c.val) who a n).1 = .ok → ownStore c a = false →
       exec (.sld c w) s = .next (s.withCore c { (k.await (Op.rd w)).advance with
         seq := k.seq + 1, sq := k.sq ++ [⟨k.seq, true, a, n, sx, Op.rd w, 0, k.pc⟩] })) ∧
     (Issues s c w 0x0E ∨ Issues s c w 0x0F → a % n = 0 → (s.dev.reachFrom (some c.val) who a n).1 = .ok → ownStore c a = true → k.sq ≠ [] → (Issues s c w 0x0E → exec (.sld c w) s = .next s) ∧ (Issues s c w 0x0F → exec (.sst c w) s = .next s)) ∧
     (Issues s c w 0x0E → a % n ≠ 0 → exec (.sld c w) s = .next (s.withCore c (k.stop 3 .formatFault))) ∧
     (Issues s c w 0x0F → a % n = 0 → (s.dev.reachFrom (some c.val) who a n).1 = .ok → ownStore c a = true → k.sq = [] → Clean s.mem (a / 16 * 16) 16 →
       exec (.sst c w) s = .next { s with mem := s.mem.apply (.bytes a (leBytes n v)), dev := s.dev.setCore c k.advance }) ∧
     (Issues s c w 0x0F → a % n = 0 → (s.dev.reachFrom (some c.val) who a n).1 = .ok → ownStore c a = false →
       exec (.sst c w) s = .next (s.withCore c { k.advance with
         seq := k.seq + 1, sq := k.sq ++ [⟨k.seq, false, a, n, false, 0, v, k.pc⟩] })) ∧
     (Issues s c w 0x0F → a % n ≠ 0 → exec (.sst c w) s = .next (s.withCore c (k.stop 3 .formatFault)))) ∧
  (∀ (s : State) (c : Fin 1024) (r : Remote) (t : List Remote),
     let k := s.dev.core c
     let who := s.dev.partOfCore c
     (s.dev.released (coreDom c) → k.sq = r :: t → r.load = true → s.dev.margined who r.addr r.size = false → (s.dev.reachFrom (some c.val) who r.addr r.size).1 = .ok → Clean s.mem (Region.target r.addr) r.size →
       exec (.scalarLoadComplete c) s = .next (s.on fun d =>
         (d.setCore c ({ k with sq := t }.setReg r.reg (extend r.signed r.size (leNat (s.mem.seen r.addr r.size))))).pump c)) ∧
     (s.dev.released (coreDom c) → k.sq = r :: t → r.load = false → r.size ∈ [1, 2, 4, 8] → r.addr % r.size = 0 → s.dev.margined who r.addr r.size = false → (s.dev.reachFrom (some c.val) who r.addr r.size).1 = .ok →
       Clean s.mem (r.addr / 32 * 32) 32 →
       exec (.scalarStoreComplete c) s = .next { s with
         mem := s.mem.apply (.bytes r.addr (leBytes r.size r.value)), dev := (s.dev.setCore c { k with sq := t }).pump c }) ∧
     (k.sq = r :: t → s.dev.margined who r.addr r.size = true → exec (.scalarLoadComplete c) s = .next s ∧ exec (.scalarStoreComplete c) s = .next s))

/-- R49, R55, R57 to R59, R66, R67, R70, R72: A MOP that passes the checks of R132 runs into its bank and waits in the queue; one that does not leaves the bank and waits with
FORMAT_FAULT; a bank or array that has failed gives ECC_UNCORRECTED (R57, R78), and stores whose key is dropped KEY_REVOKED (R181). A check that fails in the middle is logged and
marks the bank (R77). That an operation computes and writes at issue is log entry notes/assumptions/9.md (DESIGN CHOICE); that a check takes effect at issue, that row i of a
drain-add lies at D + 512 i (DESIGN CHOICE), and that FAILED is met before the formats (DEDUCED), is log entry notes/assumptions/51.md. A row reduction of an intact bank writes its
32 records of 8 bytes and no other byte, and leaves the bank and everything of the device but the queue as it was. An MDRN that passes its checks runs and waits in the queue,
whatever its mode. A STORE without stochastic rounding writes the converted rows of the bank, a drain-add each word with the bank's added or compared, an update each record with
the row's candidates; no other byte changes, and the bank stays. A parity check that fails ends it. -/
def Obligations.MatrixOperation : Prop :=
  (∀ (s : State) (c : Fin 1024) (w : Word),
     let k := s.dev.core c
     let m := k.mopArgs w
     let b := k.bank m.bank
     Issues s c w 0x20 → k.mq.length < 8 →
     (k.mopOk c w = true → s.dev.isSet F.MTX_STAT_FAILED c = false → (m.acc = true → b.tag ≠ .failed ∧ b.tag = m.tag) →
       s.dev.keyStatus (s.dev.partOfCore c) = .ok → (∀ r ∈ m.reads, Clean s.mem r.1 r.2) →
       (∀ chk : Option ArrayCheck, chk.filter (fun x => x.parity || m.kind = 0 || m.kind = 2) = none →
         exec (.mop c w chk) s = .next (s.withCore c ((k.setBank m.bank (m.run s.mem b).1).pushM { seq := k.seq, flags := (m.run s.mem b).2 }))) ∧
       (∀ x : ArrayCheck, (x.parity || m.kind = 0 || m.kind = 2) = true → exec (.mop c w (some x)) s = .next (s.on fun d =>
         (d.arrayFail c x).modCore c fun k => (k.setBank m.bank { b with tag := .failed }).pushM { seq := k.seq, status := .eccUncorrected }))) ∧
     (s.dev.isSet F.MTX_STAT_FAILED c = false → (m.acc = true → b.tag ≠ .failed) → k.mopOk c w = false ∨ (m.acc = true ∧ b.tag ≠ m.tag) → ∀ chk, exec (.mop c w chk) s = .next (s.withCore c ((k.setBank m.bank b).pushM
       { seq := k.seq, status := .formatFault }))) ∧
     (s.dev.isSet F.MTX_STAT_FAILED c = false → (m.acc = true → b.tag ≠ .failed ∧ b.tag = m.tag) → k.mopOk c w = true → s.dev.keyStatus (s.dev.partOfCore c) ≠ .ok → ∀ chk,
       exec (.mop c w chk) s = .next (s.withCore c ((k.setBank m.bank b).pushM { seq := k.seq, status := .keyRevoked }))) ∧
     (s.dev.isSet F.MTX_STAT_FAILED c = true ∨ (m.acc = true ∧ b.tag = .failed) → ∀ chk,
       exec (.mop c w chk) s = .next (s.withCore c ((k.setBank m.bank b).pushM { seq := k.seq, status := .eccUncorrected })))) ∧
  (∀ (s : State) (c : Fin 1024) (w : Word),
     let k := s.dev.core c
     let m := k.drnArgs w
     let b := k.bank m.bank
     s.Inv → Issues s c w 0x21 → k.mq.length < 8 → drnFieldsOk w = true → s.dev.isSet F.MTX_STAT_FAILED c = false → b.tag ≠ .failed →
       m.ok c b.tag = true → s.dev.keyStatus (s.dev.partOfCore c) = .ok → (m.mode = 4 ∨ m.mode = 5) → s.mem.bad = [] → s.mem.soft = [] →
       ∃ t : Mem, exec (.mdrn c w none) s = .next { s with
           mem := t, dev := s.dev.setCore c (k.pushM { seq := k.seq, drain := true }) } ∧
         (∀ i < 32, t.nat (m.d + 8 * i) 8 = reduceRow m b i none) ∧
         ∀ a, a < m.d ∨ m.d + 256 ≤ a → t.byte a = s.mem.byte a) ∧
  (∀ (s : State) (c : Fin 1024) (w : Word),
     let k := s.dev.core c
     let m := k.drnArgs w
     let b := k.bank m.bank
     let row (i : Nat) : Nat := if m.mode = 0 then m.d + i * m.drow else if m.mode ≤ 3 then m.d + 512 * i else m.d + 8 * i
     let len : Nat := if m.mode = 0 then 128 * m.out.bytes else if m.mode ≤ 3 then 512 else 8
     s.Inv → Issues s c w 0x21 → k.mq.length < 8 → drnFieldsOk w = true → s.dev.isSet F.MTX_STAT_FAILED c = false → b.tag ≠ .failed →
       m.ok c b.tag = true → s.dev.keyStatus (s.dev.partOfCore c) = .ok → s.mem.bad = [] → s.mem.soft = [] →
       (∀ chk : Option ArrayCheck, chk.filter (·.parity) = none → ∃ (t : Mem) (g : Word) (fl : Nat),
         exec (.mdrn c w chk) s = .next { s with mem := t, dev := s.dev.setCore c ({ k with mgen := g }.pushM { seq := k.seq, drain := true, flags := fl }) } ∧
           (m.sr = false ∨ m.mode ≠ 0 → g = k.mgen) ∧
           (m.mode = 0 → m.sr = false → ∀ i < 32, ∀ j < len, t.byte (row i + j) = ((m.row b i k.mgen.toNat).1[j]?).getD 0) ∧
           (1 ≤ m.mode → m.mode ≤ 3 → ∀ i < 32, ∀ col < 128,
             t.nat (row i + 4 * col) 4 = (drainAdd m.mode b.tag (s.mem.nat (row i + 4 * col) 4) (b.cells.get 0 (128 * i + col))).1 % 2 ^ 32) ∧
           (6 ≤ m.mode → ∀ i < 32, t.nat (row i) 8 = reduceRow m b i (some (s.mem.nat (row i) 8)) % 2 ^ 64) ∧
           ∀ a, (∀ i < 32, a < row i ∨ row i + len ≤ a) → t.byte a = s.mem.byte a) ∧
       (∀ x : ArrayCheck, x.parity = true → ∃ (t : Mem) (d : Dev), exec (.mdrn c w (some x)) s = .next { s with mem := t, dev := d } ∧
         ((d.core c).bank m.bank).tag = .failed ∧ ∃ y, (d.core c).mq = k.mq ++ [y] ∧ y.status = .eccUncorrected))

/-- R134: MSEED loads the generator from s[RA]; a zero seed completes with FORMAT_FAULT and leaves it. That it completes by itself is log entry notes/assumptions/51.md (DEDUCED).
-/
def Obligations.MatrixSeed : Prop :=
  ∀ (s : State) (c : Fin 1024) (w : Word),
    let k := s.dev.core c
    let v := k.reg (Op.ra w)
    Issues s c w 0x22 → k.mq.length < 8 →
      exec (.mseed c w) s = .next (s.on fun d => Dev.retireAuto 8 c 0 (d.setCore c
        ({ k with mgen := if v = 0 then k.mgen else v }.pushM
          { seq := k.seq, auto := true, status := if v = 0 then .formatFault else .ok })))

/-- R93, R117 to R119, R124: The oldest matrix instruction completes and shows its status and flags; later ones that complete by themselves follow, which is log entry
notes/assumptions/51.md (DEDUCED), and the sync port goes on. The oldest stream operation completes with its status, count and flags; R83: a promotion is counted. A full queue
holds the instruction at issue: nothing changes. -/
def Obligations.UnitCompletion : Prop :=
  (∀ (s : State) (c : Fin 1024) (x : Staged) (t : List Staged),
     let k := s.dev.core c
     let done : State := s.on fun d => (Dev.retireAuto 8 c 0 ((d.setCore c { k with mq := t }).publish c 0 x)).pump c
     s.dev.released (coreDom c) → k.mq = x :: t →
       (x.drain = false → exec (.mopComplete c) s = .next done) ∧ (x.drain = true → exec (.mdrnComplete c) s = .next done)) ∧
  (∀ (s : State) (c : Fin 1024) (x : Staged) (t : List Staged),
     let k := s.dev.core c
     s.dev.released (coreDom c) →
     (k.vq = x :: t → exec (.streamOpComplete c) s = .next (s.on fun d =>
       (Dev.retireAuto 8 c 1 ((d.setCore c { k with vq := t }).publish c 1 x)).pump c)) ∧
     exec (.requestPromotion c) s = .next (s.on fun d => d.count .STR_PROMO c)) ∧
  (∀ (s : State) (c : Fin 1024) (w : Word) (top : Nat) (i : Instr) (chk : Option ArrayCheck),
     let k := s.dev.core c
     Issues s c w top →
       ((8 ≤ k.mq.length ∧ (top, i) ∈ [(0x20, Instr.mop c w chk), (0x21, .mdrn c w chk), (0x22, .mseed c w)]) ∨
         (8 ≤ k.vq.length ∧ (top, i) ∈ [(0x40, Instr.vadd c w), (0x41, .vsub c w), (0x42, .vmul c w), (0x43, .vfma c w), (0x44, .vmax c w), (0x45, .vmin c w), (0x46, .vabs c w),
           (0x47, .vneg c w), (0x48, .vbit c w), (0x49, .vshl c w), (0x4A, .vshr c w), (0x4B, .vcmp c w), (0x4C, .vsel c w), (0x4D, .vcvt c w), (0x4E, .vqfp4 c
           w), (0x4F, .vfn c w), (0x50, .vscan c w), (0x51, .vsred c w), (0x52, .vsarg c w), (0x53, .vcmprs c w), (0x54, .vexpnd c w), (0x55, .vgath c w), (0x56,
           .vscat c w), (0x57, .vseed c w), (0x58, .vrld c w), (0x59, .vrst c w), (0x5A, .vrset c w), (0x5B, .vrget c w)]) ∨
         (16 ≤ k.xq.length ∧ (top, i) = (0x60, Instr.xdma c w)) ∨
         (16 ≤ k.yq.length ∧ (top, i) ∈ [(0x80, Instr.ysig c w), (0x81, .ywait c w), (0x82, .ybar c w), (0x83, .yread c w)])) →
       exec i s = .next s)

/-- R90 to R92, R95 to R98, R100, R102 to R107: The arithmetic stream operations. That an operation of class V computes and writes at issue is log entry notes/assumptions/9.md
(DESIGN CHOICE). The bitwise, shifting, comparing, selecting and quantising stream operations. The scans, the reductions, and the operations that move elements. A stream operation
that breaks a check completes with FORMAT_FAULT and writes nothing; its count is the free value of log entry notes/assumptions/7.md (DESIGN CHOICE). -/
def Obligations.StreamOperations : Prop :=
  (StreamRuns 0x40 false (fun w => planBinary w FV.add (· + ·)) .vadd ∧
   StreamRuns 0x41 false (fun w => planBinary w FV.sub (· - ·)) .vsub ∧
   StreamRuns 0x42 false (fun w => planBinary w FV.mul (· * ·)) .vmul ∧
   StreamRuns 0x43 false planVfma .vfma ∧
   StreamRuns 0x44 false (fun w => planBinary w FV.max max) .vmax ∧
   StreamRuns 0x45 false (fun w => planBinary w FV.min min) .vmin ∧
   StreamRuns 0x46 false (fun w => planUnary w FV.abs fun a => a.natAbs) .vabs ∧
   StreamRuns 0x47 false (fun w => planUnary w FV.neg fun a => -a) .vneg ∧
   StreamRuns 0x4D false planVcvt .vcvt ∧
   StreamRuns 0x4F false planVfn .vfn) ∧
  (StreamRuns 0x48 false planVbit .vbit ∧ StreamRuns 0x49 false (fun w => planShift w shiftLeft) .vshl ∧
   StreamRuns 0x4A false (fun w => planShift w shiftRight) .vshr ∧ StreamRuns 0x4B false planVcmp .vcmp ∧
   StreamRuns 0x4C false planVsel .vsel ∧ StreamRuns 0x4E false planVqfp4 .vqfp4) ∧
  (StreamRuns 0x50 false planVscan .vscan ∧ StreamRuns 0x51 true planVsred .vsred ∧ StreamRuns 0x52 true planVsarg .vsarg ∧
   StreamRuns 0x53 true planVcmprs .vcmprs ∧ StreamRuns 0x54 true planVexpnd .vexpnd ∧
   StreamRuns 0x55 false planVgath .vgath ∧ StreamRuns 0x56 false planVscat .vscat) ∧
  (StreamFaults 0x40 false (fun w => planBinary w FV.add (· + ·)) .vadd ∧
   StreamFaults 0x41 false (fun w => planBinary w FV.sub (· - ·)) .vsub ∧
   StreamFaults 0x42 false (fun w => planBinary w FV.mul (· * ·)) .vmul ∧
   StreamFaults 0x43 false planVfma .vfma ∧
   StreamFaults 0x44 false (fun w => planBinary w FV.max max) .vmax ∧
   StreamFaults 0x45 false (fun w => planBinary w FV.min min) .vmin ∧
   StreamFaults 0x46 false (fun w => planUnary w FV.abs fun a => a.natAbs) .vabs ∧
   StreamFaults 0x47 false (fun w => planUnary w FV.neg fun a => -a) .vneg ∧
   StreamFaults 0x4D false planVcvt .vcvt ∧
   StreamFaults 0x4F false planVfn .vfn ∧
   StreamFaults 0x48 false planVbit .vbit ∧
   StreamFaults 0x49 false (fun w => planShift w shiftLeft) .vshl ∧
   StreamFaults 0x4A false (fun w => planShift w shiftRight) .vshr ∧
   StreamFaults 0x4B false planVcmp .vcmp ∧
   StreamFaults 0x4C false planVsel .vsel ∧
   StreamFaults 0x4E false planVqfp4 .vqfp4 ∧
   StreamFaults 0x50 false planVscan .vscan ∧
   StreamFaults 0x51 true planVsred .vsred ∧
   StreamFaults 0x52 true planVsarg .vsarg ∧
   StreamFaults 0x53 true planVcmprs .vcmprs ∧
   StreamFaults 0x54 true planVexpnd .vexpnd ∧
   StreamFaults 0x55 false planVgath .vgath ∧
   StreamFaults 0x56 false planVscat .vscat)

/-- R99, R136: The generator and the rovings. `queued` puts an instruction that completes by itself into the engine's queue: log entry notes/assumptions/51.md (DEDUCED), with the
STR_STAT bits of log entry notes/assumptions/52.md. -/
def Obligations.StreamRovings : Prop :=
  ∀ (s : State) (c : Fin 1024) (w : Word),
    let k := s.dev.core c
    let gives (k : Core) : Answer := .next (s.on fun d => d.pushAutoV c k .ok)
    let faults : Answer := .next (s.on fun d => d.pushAutoV c k .formatFault)
    let v := k.reg (Op.srs w)
    let a := k.rovAddress w
    let f := rovField (Op.fn w)
    let x := bits (k.rovWord (Op.srcA w) f.1) f.2.1 f.2.2
    s.Inv → k.vq.length < 8 →
    (Issues s c w 0x57 → v ≠ 0 → exec (.vseed c w) s = gives { k with vgen := v }) ∧
    (Issues s c w 0x57 → v = 0 → exec (.vseed c w) s = faults) ∧
    (Issues s c w 0x58 → a % 32 = 0 → inOwn c a 32 = true → s.dev.serves (some c.val) (s.dev.partOfCore c) a 32 → Clean s.mem a 32 →
      exec (.vrld c w) s = gives ((List.range 4).foldl (fun k j => k.setRovWord (Op.dst w) j (s.mem.nat (a + 8 * j) 8)) k)) ∧
    (Issues s c w 0x58 → a % 32 ≠ 0 ∨ inOwn c a 32 = false → exec (.vrld c w) s = faults) ∧
    (Issues s c w 0x59 → a % 32 = 0 → inOwn c a 32 = true → (s.dev.reachFrom (some c.val) (s.dev.partOfCore c) a 32).1 = .ok → Clean s.mem a 32 →
      ∃ m : Mem, exec (.vrst c w) s = .next { s with mem := m, dev := s.dev.pushAutoV c k .ok } ∧
        (∀ j < 4, m.nat (a + 8 * j) 8 = k.rovWord (Op.srcA w) j) ∧ ∀ b, b < a ∨ a + 32 ≤ b → m.byte b = s.mem.byte b) ∧
    (Issues s c w 0x59 → a % 32 ≠ 0 ∨ inOwn c a 32 = false → exec (.vrst c w) s = faults) ∧
    (Issues s c w 0x5A → v.toNat < 2 ^ f.2.2 → exec (.vrset c w) s =
      gives (k.setRovWord (Op.dst w) f.1 (putBits (k.rovWord (Op.dst w) f.1) f.2.1 f.2.2 v.toNat))) ∧
    (Issues s c w 0x5A → 2 ^ f.2.2 ≤ v.toNat → exec (.vrset c w) s = faults) ∧
    (Issues s c w 0x5B → exec (.vrget c w) s = .next (s.on fun d => d.pushAutoV c k .ok
      (some (Op.srd w, if Op.fn w = 4 then BitVec.ofInt 64 (signed 32 x) else BitVec.ofNat 64 x))))

/-- R109 to R114, R137 to R139: Queueing a descriptor, loading instructions, counting. A bad address of XDMA is recorded with FORMAT_FAULT and nothing is queued; bad operands of
XILD halt the core. The mover starts its oldest descriptor when fewer than four run. One that breaks the rules of R110 moves nothing and carries FORMAT_FAULT, with a free value as
its FAULT_ADDR (log entry notes/assumptions/7.md, DESIGN CHOICE); a COPY of one row between clean memory moves its bytes. A COPY of several rows, a GATHER and a SCATTER move row
after row, each by the index list as it then stands. That a descriptor moves its data at its start row is log entry notes/assumptions/9.md (DESIGN CHOICE). A COPY with XPOSE
between clean stores, of which neither part is out of reach and no source row meets a destination row, puts element (i, j) of its source to (j, i) of its destination, and changes
no other byte. A descriptor whose last write has landed leaves the mover with its status, after its completion record where COMP_EN asks for one; one with a signal sends it and
waits for its answer. XILD reads its words into the instruction store at its start row and leaves the mover at its completion. -/
def Obligations.DataMover : Prop :=
  (∀ (s : State) (c : Fin 1024) (w : Word),
     let k := s.dev.core c
     let a := (k.reg (Op.ra w)).toNat
     let n := (k.reg (Op.rb w)).toNat
     let start := bits (Op.imm w) 0 13
     let bad := bits (Op.imm w) 13 19 ≠ 0 ∨ n = 0 ∨ 8192 < n ∨ 8192 < start + n ∨ a % 8 ≠ 0 ∨
       s.dev.reachAt (s.dev.partOfCore c) a = .formatFault ∨ s.dev.reachAt (s.dev.partOfCore c) a = .partitionDenied
     (Issues s c w 0x60 → k.xq.length < 16 → a % 32 = 0 → inBobbin c a 32 = true →
       exec (.xdma c w) s = .next (s.withCore c { k.advance with seq := k.seq + 1, xq := k.xq ++ [{ seq := k.seq, addr := a }] })) ∧
     (Issues s c w 0x60 → k.xq.length < 16 → a % 32 ≠ 0 ∨ inBobbin c a 32 = false →
       exec (.xdma c w) s = .next (s.withCore c (k.record 2 .formatFault).advance)) ∧
     (Issues s c w 0x61 → k.xq.length < 16 → ¬ bad →
       exec (.xild c w) s = .next (s.withCore c { k.advance with
         seq := k.seq + 1, xq := k.xq ++ [{ seq := k.seq, addr := a, load := some (start, n, a) }] })) ∧
     (Issues s c w 0x61 → bad → exec (.xild c w) s = .next (s.withCore c (k.stop 3 .formatFault))) ∧
     (Issues s c w 0x62 → exec (.xcnt c w) s = .next (s.withCore c (k.result w (BitVec.ofNat 64 k.xq.length))))) ∧
  (∀ (s : State) (c : Fin 1024) (x : Dma) (t : List Dma),
     let k := s.dev.core c
     let who := s.dev.partOfCore c
     let words := (List.range 4).map fun i => s.mem.nat (x.addr + 8 * i) 8
     let e := Desc.of words
     let serves (a n : Nat) : Prop := InStores a n ∧ s.dev.serves (some c.val) who a n
     s.Inv → s.dev.released (coreDom c) → k.xq = x :: t → (∀ y ∈ t, y.running = false ∧ y.seq ≠ x.seq) → x.running = false → x.load = none →
       s.dev.serves (some c.val) who x.addr 32 → s.mem.bad = [] → s.mem.soft = [] →
       (e.ok c = false → exec (.dmaDescriptorStart c) s = .next (s.on fun d =>
         { d with fresh := d.fresh + 1 }.setCore c { k with xq :=
           { x with running := true, words, status := .formatFault, faultAddr := Config.freeValue d.fresh % 2 ^ 48 } :: t })) ∧
       (e.ok c = true → e.kind = 0 → e.xpose = 0 → e.rows = 1 → serves e.src e.rowlen → serves e.dst e.rowlen →
         ∃ m : Mem, exec (.dmaDescriptorStart c) s = .next { s with
             mem := m
             dev := s.dev.setCore c { k with xq := { x with running := true, words, status := .ok, bytes := e.rowlen, faultAddr := 0, bonds := ([e.src, e.src + e.rowlen - 1, e.dst, e.dst + e.rowlen - 1].flatMap (Dev.bondsOf (some c.val))).eraseDups } :: t } } ∧
           (∀ i < e.rowlen, m.byte (e.dst + i) = s.mem.byte (e.src + i)) ∧
           ∀ a, a < e.dst ∨ e.dst + e.rowlen ≤ a → m.byte a = s.mem.byte a) ∧
       (let from_ (m : Mem) (q : Nat) : Int := if e.kind = 0 then e.src + q * e.sstride else if e.kind = 1 then e.src + (m.nat (e.idx + 4 * q) 4 * e.rowlen : Nat) else e.src + (q * e.rowlen : Nat)
        let to_ (m : Mem) (q : Nat) : Int := if e.kind = 0 then e.dst + q * e.dstride else if e.kind = 1 then e.dst + (q * e.rowlen : Nat) else e.dst + (m.nat (e.idx + 4 * q) 4 * e.rowlen : Nat)
        let after (n : Nat) : Mem := (List.range n).foldl (fun m q => m.puts (to_ m q).toNat (m.read (from_ m q).toNat e.rowlen)) s.mem
        e.ok c = true → e.xpose = 0 → (∀ q < e.rows, 0 ≤ from_ (after q) q ∧ 0 ≤ to_ (after q) q ∧ serves (from_ (after q) q).toNat e.rowlen ∧ serves (to_ (after q) q).toNat e.rowlen ∧
           (e.kind ≠ 0 → s.dev.serves (some c.val) who (e.idx + 4 * q) 4)) →
         ∃ (m : Mem) (l : List Nat), exec (.dmaDescriptorStart c) s = .next { s with
             mem := m
             dev := s.dev.setCore c { k with xq := { x with running := true, words, status := .ok, bytes := e.rows * e.rowlen, faultAddr := 0, bonds := l } :: t } } ∧
           ∀ a, m.byte a = (after e.rows).byte a)) ∧
  (∀ (s : State) (c : Fin 1024) (x : Dma) (t : List Dma),
     let k := s.dev.core c
     let who := s.dev.partOfCore c
     let words := (List.range 4).map fun i => s.mem.nat (x.addr + 8 * i) 8
     let e := Desc.of words
     let b := e.xpose
     let cols := e.rowlen / b
     let src (i : Nat) : Nat := (e.src + i * e.sstride).toNat
     let dst (j : Nat) : Nat := (e.dst + j * e.dstride).toNat
     let serves (a n : Nat) : Prop := InStores a n ∧ s.dev.serves (some c.val) who a n
     s.Inv → s.dev.released (coreDom c) → k.xq = x :: t → (∀ y ∈ t, y.running = false ∧ y.seq ≠ x.seq) → x.running = false → x.load = none →
       s.dev.serves (some c.val) who x.addr 32 → s.mem.bad = [] → s.mem.soft = [] → e.ok c = true → e.kind = 0 → e.xpose ≠ 0 →
       (∀ i < e.rows, 0 ≤ e.src + i * e.sstride ∧ ∀ q < cols / 32, serves (src i + 32 * b * q) (32 * b)) →
       (∀ j < cols, 0 ≤ e.dst + j * e.dstride ∧ ∀ q < e.rows / 32, serves (dst j + 32 * b * q) (32 * b)) →
       (∀ i < e.rows, ∀ j < cols, src i + e.rowlen ≤ dst j ∨ dst j + e.rows * b ≤ src i) →
       ∃ (m : Mem) (l : List Nat), exec (.dmaDescriptorStart c) s = .next { s with
           mem := m
           dev := s.dev.setCore c { k with xq := { x with running := true, words, status := .ok, bytes := e.rows * e.rowlen, faultAddr := 0, bonds := l } :: t } } ∧
         (∀ i < e.rows, ∀ j < cols, ∀ q < b, m.byte (dst j + b * i + q) = s.mem.byte (src i + b * j + q)) ∧
         ∀ a, (∀ j < cols, a < dst j ∨ dst j + e.rows * b ≤ a) → m.byte a = s.mem.byte a) ∧
  (∀ (s : State) (c : Fin 1024) (x : Dma) (t : List Dma),
     let k := s.dev.core c
     let e := Desc.of x.words
     let at_ := bobbinBase c + 16 * e.comp
     s.dev.released (coreDom c) → k.xq = x :: t → x.sent = false → (∀ y ∈ t, y.seq ≠ x.seq) →
       (x.running = true → x.load = none → x.readable = true → e.compEn = false →
         (e.sig = false → exec (.dmaDescriptorComplete c 0) s = .next (s.on fun d =>
           ({ d with fresh := d.fresh + 1 }.setCore c k).retireDma c x.seq .ok)) ∧
         (e.sig = true → s.dev.partOfSync e.sync = s.dev.partOfCore c → exec (.dmaDescriptorComplete c 0) s = .next (s.on fun d =>
           let d' := { d with fresh := d.fresh + 1 }.setCore c { k with xq := { x with sent := true } :: t }
           { d' with sync := { d.sync with arrivals := d.sync.arrivals ++
             [.signal e.sync 1 ((d.partOfCore c).getD 4) c 0xF (d.get F.FAB_ID_ID) (.dma c x.seq)] } }))) ∧
       (x.running = true → x.load = none → x.readable = true → e.compEn = true → e.sig = false → s.Inv → s.mem.bad = [] → s.mem.soft = [] → (s.dev.reachFrom (some c.val) (s.dev.partOfCore c) at_ 16).1 = .ok →
         ∃ m : Mem, exec (.dmaDescriptorComplete c 0) s = .next { s with mem := m, dev := ({ s.dev with fresh := s.dev.fresh + 1 }.setCore c k).retireDma c x.seq .ok } ∧
           m.nat at_ 8 = (x.status.code + x.bytes * 2 ^ 16) % 2 ^ 64 ∧ m.nat (at_ + 8) 8 = (if x.status = .ok then 0 else x.faultAddr % 2 ^ 64) ∧
           ∀ a, a < at_ ∨ at_ + 16 ≤ a → m.byte a = s.mem.byte a) ∧
       (∀ start n src, x.load = some (start, n, src) →
         (x.running = true → exec (.dmaDescriptorComplete c 0) s = .next (s.on fun d => d.retireDma c x.seq .ok)) ∧
         (x.running = false → (∀ y ∈ t, y.running = false) → s.dev.margined (s.dev.partOfCore c) src (8 * n) = false →
           (∀ j < n, s.dev.serves (some c.val) (s.dev.partOfCore c) (src + 8 * j) 8 ∧ Clean s.mem (Region.target (src + 8 * j)) 8 ∧ isView (src + 8 * j) = false) →
           ∃ (i : Tab Word) (b l : List Nat), exec (.dmaDescriptorStart c) s = .next (s.withCore c { k with
               istore := i, ibad := b, xq := { x with running := true, status := .ok, bonds := l } :: t }) ∧
             (∀ j < n, i.get 0 (start + j) = BitVec.ofNat 64 (s.mem.nat (src + 8 * j) 8) ∧ start + j ∉ b) ∧
             ∀ q, q < start ∨ start + n ≤ q → i.get 0 q = k.istore.get 0 q ∧ (q ∈ b ↔ q ∈ k.ibad))))

/-- R140 to R148: A class Y instruction enters the sync port with its object, value, destination and mask, and YWAIT and YBAR stall issue. What the port can send at once it sends.
A YWAIT whose timeout has run out gives up with DEADLINE_MISSED, leaves the object's waiters and lets its core go on. The twist instructions and the handing over of a skein. That
the FN field of TSKEIN is its unit mask is log entry notes/assumptions/50.md (DEDUCED). -/
def Obligations.SyncAndTwistInstructions : Prop :=
  (∀ (s : State) (c : Fin 1024) (w : Word),
     let k := s.dev.core c
     let id := k.objectId w
     let op (kind : YKind) (x mask : Nat) : YOp :=
       { seq := k.seq, kind, id, x, rd := Op.rd w, mask, eq := decide (Op.fn w = 1), timeout := Op.timeout w, refused := s.dev.yRefusal c kind id }
     let enters (y : YOp) (k' : Core) : Answer := .next (s.on fun d => (d.setCore c { k'.await (Op.rd w) with seq := k.seq + 1, yq := k.yq ++ [y] }).pump c)
     k.yq.length < 16 →
     (Issues s c w 0x80 → exec (.ysig c w) s = enters (op .sig (k.yValue w) (Op.fn w)) k.advance) ∧
     (Issues s c w 0x81 → exec (.ywait c w) s = enters (op .wait (k.yValue w) 0) { k with stall := .sync id, run := .wait }) ∧
     (Issues s c w 0x82 → exec (.ybar c w) s = enters (op .bar 0 (Op.fn w)) { k with stall := .barrier id }) ∧
     (Issues s c w 0x83 → exec (.yread c w) s = enters (op .read 0 0) k.advance)) ∧
  (∀ (s : State) (c : Fin 1024) (x : Waiter) (rd seq : Nat),
     s.dev.released (coreDom c) →
     s.dev.sync.waiters.find? (fun y => match y.reply with
       | .core c' _ n => decide (c' = c.val ∧ y.left = some 0) && s.dev.awaits c n
       | _ => false) = some x → x.reply = .core c rd seq →
       exec (.ywaitTimeout c) s = .next (s.on fun d => ((d.dropWaiter x).yStatus c .deadlineMissed).pump c)) ∧
  (∀ (s : State) (c : Fin 1024) (w : Word),
     let k := s.dev.core c
     let gives (k : Core) : Answer := .next (s.withCore c k)
     (Issues s c w 0xA0 → exec (.tread c w) s = gives (k.result w (BitVec.ofInt 64
       (if Op.fn w = 0 then (s.dev.get F.TWIST_CNT_CNT : Int)
        else if Op.fn w = 1 then s.dev.corePlanTwist c
        else if Op.fn w = 2 then (((s.dev.partOfCore c).map fun p => s.dev.slips p).getD 0 : Nat)
        else (s.dev.tw.slot : Nat))))) ∧
     (Issues s c w 0xA1 → k.twistArg w ≤ s.dev.corePlanTwist c → exec (.twait c w) s = gives k.advance) ∧
     (Issues s c w 0xA1 → s.dev.corePlanTwist c < k.twistArg w → exec (.twait c w) s = gives { k with stall := .twist (k.twistArg w) }) ∧
     (Issues s c w 0xA2 → exec (.tdue c w) s = gives { k.advance with due := some (k.twistArg w) }) ∧
     (Issues s c w 0xA3 → exec (.tdone c w) s = gives { k.advance with due := none }) ∧
     (Issues s c w 0xA4 → k.tq.length < 8 → exec (.tskein c w) s = gives { (k.await (Op.rd w)).advance with
       seq := k.seq + 1, tq := k.tq ++ [⟨k.seq, (k.reg (Op.ra w)).toNat, Op.rd w, Op.fn w⟩] }) ∧
     (Issues s c w 0xA4 → 8 ≤ k.tq.length → exec (.tskein c w) s = gives k) ∧
     (Issues s c w 0xA5 → exec (.tphase c w) s = gives { k.advance with phase := some (Op.fn w) }))

/-- R13, R40, R144: YREAD in an empty sync port after every store writes the object's value to RD[31:0], zero when the status is not OK, its status to RD[39:32] and zero to
RD[63:40], and the core goes on. With no ACTIVE bond port left on the core's die the status is ISOLATED. -/
def Obligations.SyncReadResult : Prop :=
  ∀ (s : State) (c : Fin 1024) (w : Word),
    let k := s.dev.core c
    let id := k.objectId w
    let st := if s.dev.objStatus (s.dev.partOfCore c) id = .ok ∧ s.dev.offBond (c / 512) = true then .isolated else s.dev.objStatus (s.dev.partOfCore c) id
    Issues s c w 0x83 → k.yq = [] → k.sq = [] → ∃ v : Word,
      exec (.yread c w) s = .next (s.withCore c { k.advance with
        sregs := if Op.rd w = 0 then k.sregs else k.sregs.set (Op.rd w) v, pending := k.pending, seq := k.seq + 1 }) ∧
      v.toNat % 2 ^ 32 = (if st = .ok then s.dev.objValue id else 0) ∧ v.toNat / 2 ^ 32 % 256 = st.code ∧ v.toNat / 2 ^ 40 = 0

/-- R78, R79, R138, R150, R151, R342: START, STOP and LOAD, by a requester that may write the core's registers; and the end of a load. That START clears the first-status registers
and the halt record, and that LOAD answers OK whatever its source, is log entry notes/assumptions/50.md (DEDUCED). The core that START leaves runs from ENTRY with a clean record,
in no phase and with no due twist. The end of a load of one instruction from clean memory puts the word into the store and gives the core its earlier state back. The in-service
self-test of a core in no partition starts and leaves its banks EMPTY; it ends with PASS and ARRAY, and a failure declares the array failed. A core of a closed die answers ISOLATED
by log entry notes/assumptions/14.md (DEDUCED). -/
def Obligations.CoreControl : Prop :=
  (∀ (s : State) (c : Fin 1024) (r : Requester) (entry : Fin 8192),
     let k := s.dev.core c
     s.dev.released 2 → s.dev.mayWriteCore r c = true → s.dev.revoked r = false → s.dev.dieClosed c = false →
     (k.run = .idle ∨ k.run = .halt → exec (.coreStart r c entry) s = .next (s.on fun d =>
       ((d.put F.CORE_CTL_ENTRY c entry).startCore c).answer .ok)) ∧
     (k.run = .run ∨ k.run = .wait → exec (.coreStart r c entry) s = .next (s.on fun d => d.answer .formatFault)) ∧
     exec (.coreStop r c entry) s = .next (s.on fun d => ((d.put F.CORE_CTL_ENTRY c entry).stopCore c).answer .ok) ∧
     (k.run = .idle ∨ k.run = .halt → exec (.coreLoad r c entry) s = .next (s.on fun d =>
       ((d.put F.CORE_CTL_ENTRY c entry).startLoad c).answer .ok))) ∧
  (∀ (d : Dev) (c : Fin 1024) (entry : Fin 8192),
     let k := ((d.put F.CORE_CTL_ENTRY c entry).startCore c).core c
     k.run = .run ∧ k.pc = entry ∧ k.first = ⟨[]⟩ ∧ k.more = [] ∧ k.due = none ∧ k.phase = none ∧ k.haltCause = 0 ∧ k.haltStatus = .ok ∧
       k.sregs = (d.core c).sregs ∧ k.istore = (d.core c).istore) ∧
  (∀ (s : State) (c : Fin 1024) (src : Nat),
     let k := s.dev.core c
     s.dev.released (coreDom c) → k.run = .loading → k.loadFrom = (src, 1) → s.dev.serves (some c.val) (s.dev.partOfCore c) src 8 → Clean s.mem src 8 →
       exec (.coreLoadComplete c) s = .next (s.withCore c { k with
         istore := k.istore.set 0 (BitVec.ofNat 64 (s.mem.nat src 8)), ibad := k.ibad.filter (· ≠ 0), run := k.beforeLoad, loadStatus := .ok })) ∧
  (∀ (s : State) (c : Fin 1024) (a : Fin 4),
     let empty (k : Core) : Core := { k with a0 := {}, a1 := {} }
     s.dev.released 1 →
     (∀ r, r = Requester.mgmt ∨ r = Requester.owner → s.dev.dieClosed c = true → exec (.mtxTestStart r c) s = .next (s.on fun d => d.answer .isolated)) ∧
     (s.dev.isSet F.MTX_TEST_CTL_BUSY = false → s.dev.partOfCore c = none → s.dev.dieClosed c = false → ∀ r, r = Requester.mgmt ∨ r = Requester.owner →
       exec (.mtxTestStart r c) s = .next (s.on fun d =>
         ({ d.putAll 0 [(F.MTX_TEST_CTL_CORE, c.val), (F.MTX_TEST_CTL_BUSY, 1)] with testCore := some c.val }.modCore c empty).answer .ok)) ∧
     (∀ p, s.dev.revoked (.part p) = false → exec (.mtxTestStart (.part p) c) s = .next (s.on fun d => d.answer .partitionDenied)) ∧
     (s.dev.testCore = some c.val →
       exec (.mtxTestEnd none) s = .next (s.on fun d =>
         ({ d with testCore := none }.modCore c empty).putAll 0 [(F.MTX_TEST_CTL_BUSY, 0), (F.MTX_TEST_CTL_PASS, 1)]) ∧
       exec (.mtxTestEnd (some a)) s = .next (s.on fun d =>
         (({ d with testCore := none }.modCore c empty).putAll 0
           [(F.MTX_TEST_CTL_BUSY, 0), (F.MTX_TEST_CTL_PASS, 0), (F.MTX_TEST_CTL_ARRAY, a.val)]).declareFailed c a)))

/-- R36, R38, R39, R41: The steps of training a bond port, each from the state in which it is awaited. -/
def Obligations.BondTraining : Prop :=
  ∀ (s : State) (n : Fin 128),
    let d := s.dev
    let st := d.bondState n
    let x := d.bport n
    d.released 2 →
    (d.mayTrain n = true → x.failures < 16 → Does (.bondTrainingStart n) s fun d => d.startTraining n) ∧
    (d.mayTrain n = true → 16 ≤ x.failures → Does (.retrainRetryTimer n) s fun d => d.startTraining n) ∧
    (∀ a b : BitVec 4, st = 1 → a &&& b = 0 → Does (.clockStepEnd n a b) s fun d => (d.put F.LBI_PORT_STAT_CLK_ALT n a.toNat).setBond n 2) ∧
    (∀ a b : BitVec 4, st = 1 → a &&& b ≠ 0 → Does (.clockStepEnd n a b) s fun d => d.bondDown n 1) ∧
    (∀ u v : List (Fin 4 × Fin 165), st = 2 → Does (.laneTestEnd n u v) s fun d =>
      (((d.setBport n { x with failedUp := u.map fun y => (y.1.val, y.2.val), failedDown := v.map fun y => (y.1.val, y.2.val) }).setBond n 3).send
        .bondCap n baseCap).send .bondCap (128 + n) computeCap) ∧
    (∀ w0 w1 w2 w3 : Word, st = 3 → capCrcOk ([w0, w1, w2, w3].map (·.toNat)) = false → x.capRetries < 4 →
      Does (.capabilityBlock n w0 w1 w2 w3) s fun d => (d.setBport n { x with capRetries := x.capRetries + 1 }).send .bondCap n baseCap) ∧
    (∀ (w0 w1 w2 w3 : Word) (a : Agreement), st = 3 → capCrcOk ([w0, w1, w2, w3].map (·.toNat)) = true →
      settleCap ([w0, w1, w2, w3].map (·.toNat)) = some a → (∀ i < 64, (d.bport (64 * (n.val / 64) + i)).agreed = none ∨ (d.bport (64 * (n.val / 64) + i)).agreed = some a) →
      Gives (.capabilityBlock n w0 w1 w2 w3) s fun d' => d'.bondState n = 4 ∧ (d'.bport n).agreed = some a ∧
        ([w0, w1, w2, w3].zipIdx.all fun y => d'.word .LBI_CAP (4 + 4 * (n.val / 64) + y.2) = y.1) = true) ∧
    (∀ map : List Byte, st = 4 → (∀ g < 4, (groupFailed x.failedUp g).length ≤ 8) → x.mapDown = none →
      Does (.repairMap n true map) s fun d => (d.setBport n { x with mapUp := some (map.map (·.toNat)) }).put F.LBI_PORT_STAT_SPARES_UP n
        (sparesUsed x.failedUp)) ∧
    (∀ map : List Byte, st = 4 → (∀ g < 4, (groupFailed x.failedDown g).length ≤ 8) → x.mapUp ≠ none →
      Gives (.repairMap n false map) s fun d' => d'.bondState n = 5 ∧ (d'.bport n).mapDown = some (map.map (·.toNat)))

/-- R30, R38 to R42: What the states of training leave in the registers: STATE, SEQ and REASON, and 64 credits for each virtual network of a port that has just become ACTIVE. No
other port changes. The margin runs of the bond; while no line waits at the monitor, nothing else happens at a run's end. -/
def Obligations.BondPortStates : Prop :=
  (∀ (s : State) (n : Fin 128),
     let d := s.dev
     d.released 2 →
     (d.mayTrain n = true → (d.bport n).failures < 16 → Gives (.bondTrainingStart n) s fun d' =>
       d'.bondState n = 1 ∧ d'.get F.LBI_PORT_STAT_SEQ n = ((d.bport n).seq + 1) % 256 ∧ ∀ m : Fin 128, m ≠ n → d'.bport m = d.bport m ∧ d'.bondState m = d.bondState m) ∧
     (∀ v : Word, d.bondState n = 5 → v.toNat = d.widthBeacon n → (d.bport n).beacons = 2 → Gives (.widthBeacon n v) s fun d' =>
       d'.bondState n = 6 ∧ (d'.bport n).failures = 0 ∧ (d'.bport n).up.credits = ⟨[(0, 64), (1, 64)]⟩ ∧ (d'.bport n).down.credits = ⟨[(0, 64), (1, 64)]⟩) ∧
     (∀ v : Word, d.bondState n = 5 → v.toNat = d.widthBeacon n → (d.bport n).beacons < 2 → Does (.widthBeacon n v) s fun d =>
       d.setBport n { d.bport n with beacons := (d.bport n).beacons + 1 }) ∧
     (∀ v : Word, d.bondState n = 5 ∨ d.bondState n = 6 → v.toNat ≠ d.widthBeacon n → Gives (.widthBeacon n v) s fun d' =>
       d'.bondState n = 0 ∧ d'.get F.LBI_PORT_STAT_REASON n = 5) ∧
     (d.bondState n = 6 → Does (.widthBeaconSend n) s fun d => d.send .bondBeacon n [d.widthBeacon n]) ∧
     (∀ r : Requester, Dev.whole r = true → d.bondState n ≠ 7 ∨ d.isSet F.LBI_DIE_STAT_ALIVE (n.val / 64) = true → Gives (.lbiPortDisable r n) s fun d' =>
       d'.isSet F.LBI_PORT_CTL_DISABLE n = true ∧ d'.bondState n = 0 ∧ d'.get F.LBI_PORT_STAT_REASON n = 8 ∧ d'.reply = (.ok, [])) ∧
     (∀ r : Requester, Dev.whole r = true → d.canTrain n = true → Gives (.lbiPortRetrain r n) s fun d' => d'.bondState n = 1 ∧ d'.isSet F.LBI_PORT_CTL_DISABLE n = false) ∧
     (∀ p, d.revoked (.part p) = false → Does (.lbiPortDisable (.part p) n) s (·.answer .partitionDenied) ∧ Does (.lbiPortRetrain (.part p) n) s (·.answer .partitionDenied))) ∧
  (∀ (s : State) (r : Requester) (v : Word) (a : Agreement) (edges : List (Fin 32 × Fin 32)),
     let n := bits v.toNat 0 7
     s.dev.released 2 →
     (Dev.whole r = true → s.dev.bondState n = 6 → s.dev.isSet F.LBI_MRG_CTL_BUSY = false → bits v.toNat 12 8 ≠ 0 →
       (s.dev.bport n).agreed = some a → a.feat.testBit 5 = true → Gives (.lbiMarginStart r v) s fun d' =>
         d'.isSet F.LBI_MRG_CTL_BUSY = true ∧ d'.isSet F.LBI_MRG_CTL_DONE = false ∧ d'.get F.LBI_MRG_CTL_PORT = n ∧
           d'.get F.LBI_MRG_CTL_DWELL = bits v.toNat 12 8 ∧ d'.reply = (.ok, [])) ∧
     (Dev.whole r = true → s.dev.bondState n ≠ 6 → Does (.lbiMarginStart r v) s (·.answer .isolated)) ∧
     (s.dev.isSet F.LBI_MRG_CTL_BUSY = true → s.dev.mon.rx = [] → Gives (.lbiMarginEnd edges) s fun d' =>
       d'.isSet F.LBI_MRG_CTL_BUSY = false ∧ d'.isSet F.LBI_MRG_CTL_DONE = true ∧ d'.get F.LBI_MRG_CTL_STATUS = 0 ∧
         ∀ k < 656, d'.get F.LBI_MRG_RES_LOW k = ((edges[k]?).getD (0, 0)).1 ∧ d'.get F.LBI_MRG_RES_HIGH k = ((edges[k]?).getD (0, 0)).2))

/-- R29 to R32: Flits, acknowledgements, replay and credits of an ACTIVE port. The oldest whole message of a virtual network is performed and leaves its buffers. A read of clean
memory that may be made answers with the bytes at its address; a write changes the bytes that it carries, where a view shows them (R164), and no other. That the response carries
the request's ADDR, SRC, PART and SYNC is the model's choice (notes/assumptions/31.md, DESIGN CHOICE), that a read's length is that of its payload is read from the rules (31,
DEDUCED), and so is what a flit meets at closed wrappers (34, DEDUCED). -/
def Obligations.BondTraffic : Prop :=
  (∀ (s : State) (n : Fin 128) (up : Bool) (num : Nat) (vn : Fin 2),
     let x := portDir (s.dev.bport n) up
     let other := portDir (s.dev.bport n) (!up)
     s.dev.released 2 → s.dev.bondState n = 6 → (x.parts.get [] vn).length < 64 →
     (∀ (words : List (BitVec 32)) (k : Nat), num = x.rxNext → Gives (.flitReceive n up num vn words k false) s fun d' =>
       let y := portDir (d'.bport n) up
       y.rxNext = num + 1 ∧ y.parts.get [] vn =
           (if s.dev.isSet F.LBI_DIE_STAT_WRAP_CLOSED (n.val / 64) then x.parts.get [] vn else x.parts.get [] vn ++ [words.map (·.toNat)]) ∧ y.discarding = false ∧
         portDir (d'.bport n) (!up) = other ∧ d'.regs = s.dev.regs ∧ d'.out = s.dev.out ++ [⟨.bondAck, n, [flag up, num]⟩]) ∧
     (∀ (words : List (BitVec 32)) (k : Nat) (bad : Bool), num ≠ x.rxNext → exec (.flitReceive n up num vn words k bad) s = .next s) ∧
     (∀ (words : List (BitVec 32)) (k : Nat), num = x.rxNext → up = false → Gives (.flitReceive n up num vn words k true) s fun d' =>
       (portDir (d'.bport n) up) = { x with discarding := true } ∧ d'.out = s.dev.out ++ [⟨.bondNak, n, [0, num]⟩]) ∧
     (up = true → x.unacked.any (·.1 = num) = true → Does (.bondNakReceive n up num) s fun d =>
       ((x.unacked.dropWhile (·.1 ≠ num)).foldl (fun (d : Dev) y => d.send .bondFlit n ([1, y.1, y.2.vn] ++ y.2.words)) d).count .LBI_REPLAY n) ∧
     (x.waiting = [] → Gives (.bondAcknowledgement n up num) s fun d' =>
       (portDir (d'.bport n) up).unacked = x.unacked.filter (num < ·.1) ∧ portDir (d'.bport n) (!up) = other ∧ d'.regs = s.dev.regs) ∧
     (∀ k : Fin 65, x.waiting = [] → Gives (.bondCreditReturn n up vn k) s fun d' =>
       (portDir (d'.bport n) up).credits.get 0 vn = min 64 (x.credits.get 0 vn + k) ∧ (portDir (d'.bport n) up).unacked = x.unacked ∧
         portDir (d'.bport n) (!up) = other ∧ d'.regs = s.dev.regs)) ∧
  (∀ (s : State) (n : Fin 128) (up : Bool) (vn : Fin 2) (m : NetMsg) (rest : List (List Nat)),
     let x := portDir (s.dev.bport n) up
     let freed (d : Dev) : Dev :=
       (d.modBport n fun p => modDir p up fun x => { x with taken := x.taken.set vn [], parts := x.parts.set vn rest }).send .bondCredit n
         [flag up, vn.val, (x.parts.get [] vn).length - rest.length]
     s.Inv → s.dev.released 2 → s.dev.bondState n = 6 → x.taken.get [] vn = [] → wholeMessage (x.parts.get [] vn) = some (m, rest) → m.payload.length ≠ 0 →
     (m.op = 1 → s.dev.serves none (some m.part) m.addr m.payload.length → Clean s.mem (Region.target m.addr) m.payload.length →
       Does (.networkMessage n up vn) s fun d => (freed d).postMessage n (!up) 1
         ({ m with op := 3, status := 0, payload := s.mem.seen m.addr m.payload.length, sig := false } : NetMsg)) ∧
     (m.op = 2 → m.sig = false → s.dev.serves none (some m.part) m.addr m.payload.length → s.mem.bad = [] → s.mem.soft = [] →
       ∃ t : Mem, exec (.networkMessage n up vn) s = .next { s with
           mem := t
           dev := (freed s.dev).postMessage n (!up) 1 ({ m with op := 4, status := 0, payload := [], len := 0, sig := false } : NetMsg) } ∧
         (∀ i < m.payload.length, t.byte (Region.target m.addr + i) = (m.payload[Region.seen m.addr i - Region.target m.addr]?).getD 0) ∧
         ∀ a, a < Region.target m.addr ∨ Region.target m.addr + m.payload.length ≤ a → t.byte a = s.mem.byte a))

/-- R44 to R46: The fall of DIE_ALIVE closes the wrappers of its die, records the cause and isolates its ports; clocks lost on eight ports or more do the same with cause 2, and on
fewer take those ports down. A store of a die with closed wrappers answers ISOLATED to its partition. A wait on a frozen object, with either condition and any timeout, and a signal
to one answer ISOLATED to the core or the port that asked, and the object stays as it is. The wrappers open again once the die is alive, a port is ACTIVE and all ports have settled
on one agreement (R48); else the command answers ISOLATED. When clocks are lost the registers of the die's cores stay (notes/assumptions/34.md, DEDUCED). -/
def Obligations.DieLoss : Prop :=
  ∀ (s : State) (die : Fin 2),
    let lost (cause : Nat) (d' : Dev) : Prop := d'.isSet F.LBI_DIE_STAT_WRAP_CLOSED die = true ∧ d'.isSet F.LBI_DIE_STAT_LOST die = true ∧
      d'.get F.LBI_DIE_STAT_CAUSE die = cause ∧ d'.get F.LBI_DIE_STAT_PORTS_ACTIVE die = 0 ∧ ∀ i < 64, d'.bondState (64 * die + i) = 7
    (s.dev.isSet F.LBI_DIE_STAT_ALIVE die = true → Gives (.dieAliveFall die) s fun d' =>
      lost 1 d' ∧ d'.isSet F.LBI_DIE_STAT_ALIVE die = false ∧ d'.released (5 + die) = false ∧ d'.boot.alive = s.dev.boot.alive.filter (· ≠ die.val)) ∧
    (s.dev.isSet F.LBI_DIE_STAT_ALIVE die = false → Does (.dieAliveFall die) s fun d =>
      { d with boot := { d.boot with alive := d.boot.alive.filter (· ≠ die.val) } }.setDieClock die 0) ∧
    (∀ ports : BitVec 64, s.dev.released 2 →
      let many := 8 ≤ ((List.range 64).filter fun i => ports.getLsbD i).length
      (s.dev.isSet F.LBI_DIE_STAT_LOST die = false → s.dev.isSet F.LBI_DIE_STAT_ALIVE die = true → many → Gives (.forwardedClockLoss die ports) s fun d' =>
        lost 2 d' ∧ d'.isSet F.LBI_DIE_STAT_ALIVE die = true ∧ d'.released (5 + die) = s.dev.released (5 + die) ∧
          ∀ c : Fin 1024, c / 512 = die.val → d'.word .MTX_STAT c = s.dev.word .MTX_STAT c) ∧
      (s.dev.isSet F.LBI_DIE_STAT_ALIVE die = true → (s.dev.isSet F.LBI_DIE_STAT_LOST die = true ∨ ¬ many) → Gives (.forwardedClockLoss die ports) s fun d' =>
        ∀ i < 64, if ports.getLsbD i ∧ s.dev.bondState (64 * die + i) ≠ 0 ∧ s.dev.bondState (64 * die + i) ≠ 7
          then d'.bondState (64 * die + i) = 0 ∧ d'.get F.LBI_PORT_STAT_REASON (64 * die + i) = 1
          else d'.bondState (64 * die + i) = s.dev.bondState (64 * die + i)) ∧
      (s.dev.isSet F.LBI_DIE_STAT_ALIVE die = false → Does (.forwardedClockLoss die ports) s fun d => d)) ∧
    (∀ r : Requester, s.dev.released 2 → Dev.whole r = true →
      (s.dev.mayOpen die = true → Gives (.lbiWrapOpen r die) s fun d' =>
        d'.isSet F.LBI_DIE_STAT_WRAP_CLOSED die = false ∧ d'.isSet F.LBI_DIE_STAT_LOST die = false ∧ d'.reply = (.ok, [])) ∧
      (s.dev.mayOpen die = false → Does (.lbiWrapOpen r die) s (·.answer .isolated))) ∧
    (∀ p, s.dev.released 2 → s.dev.revoked (.part p) = false → Does (.lbiWrapOpen (.part p) die) s (·.answer .partitionDenied)) ∧
    (∀ a c o : Nat, (Region.of a = .under c o ∨ Region.of a = .bobbin c o) → c / 512 = die → s.dev.isSet F.LBI_DIE_STAT_WRAP_CLOSED die = true →
      s.dev.reachAt (s.dev.partOfCore c) a = .isolated) ∧
    (∀ (id part : Nat), id < 65536 → s.dev.partOfSync id = Dev.whoOf part → s.dev.objState id = 1 →
      (∀ x src ch fab : Nat, s.dev.applySignal id x part src ch fab = (s.dev, .isolated)) ∧
      (∀ (bank : Fin 64) (x : Nat) (d' : Dev), s.dev.released 2 →
        (∀ (eq : Bool) (timeout : Option Nat) (p tag : Nat), s.dev.nextOp bank = some (.wait id x eq part timeout (.port p tag), d') →
          Does (.syncWaitStart bank) s fun _ => d'.portFrame p { type := 4, tag, status := Status.isolated.code, val := 0 }) ∧
        (∀ (eq : Bool) (timeout : Option Nat) (c rd seq : Nat), s.dev.nextOp bank = some (.wait id x eq part timeout (.core c rd seq), d') → d'.awaits c seq = true →
          Does (.syncWaitStart bank) s fun _ => (d'.yStatus c .isolated).pump c) ∧
        (∀ src ch fab p tag : Nat, s.dev.nextOp bank = some (.signal id x part src ch fab (.port p tag), d') →
          Does (.syncSignalApply bank) s fun _ => d'.portFrame p { type := 4, tag, status := Status.isolated.code, val := 0 }) ∧
        ∀ src ch fab c rd seq : Nat, s.dev.nextOp bank = some (.signal id x part src ch fab (.core c rd seq), d') → d'.awaits c seq = true →
          Does (.syncSignalApply bank) s fun _ => (d'.yStatus c .isolated).pump c))

/-- R17, R158 to R160, R162, R163, R167 to R169, R181: A request that its interface refuses, or whose request is spoilt on the way, answers at once and does nothing; any other is
split at 256-byte boundaries. A request of one entry waits where its queue or its port's share is full; else it enters the queue of its channel with what it reads; a write of whole
units is in memory and acknowledged at once; one that its target refuses answers with the target's status. Of a request of several pieces each enters its channel's queue, a read
with the bytes of its piece, and a write of whole units is acknowledged once. That an entry is decided when its channel accepts it and waits where a share is full is read from the
rules (notes/assumptions/33.md, DEDUCED). The Creel of a channel starts the burst that it picks, which it does only while the throttle level leaves a start in these four cycles and
none has started in this one. With the last burst of an entry the entry leaves its queue, and with the last entry of a request the request answers with its tag, its status and the
bytes that its entries have read, in the order of its addresses; an earlier one only adds what it has read. The patrol scrub competes in class 7: where it is picked it goes through
a channel 32 bytes at a time and corrects single-bit errors, else it waits. -/
def Obligations.HbmRequests : Prop :=
  (∀ (s : State) (x : HbmAccess),
     let d := s.dev
     let a := Region.target x.addr
     let c := d.channelOf a
     let ch := d.chan c
     let st := (d.reach (x.who.map (·.val)) x.addr x.len).1
     let id := d.hbm.nextId
     let o : HbmOpen := { id, src := x.src, tag := x.tag, addr := x.addr, len := x.len, left := 1, respBad := x.respBad }
     let staple := Dev.isStaple x.addr x.len
     let y : HbmPart := { id, src := x.src, who := x.who.map (·.val), cls := x.cls, port := x.port, addr := a, len := x.len, staple
                          data := x.data.map fun bs => (List.range x.len).map fun i => (bs[Region.seen x.addr i - a]?).getD 0 }
     let r (write : Bool) (data : List Byte) : HbmReq :=
       { id, src := x.src, cls := x.cls, addr := a, len := x.len, write, port := x.port, status := .ok, data, arrival := ch.cycle, bursts := (a + x.len - 1) / 32 - a / 32 + 1 }
     let numbered (d : Dev) : Dev := d.modHbm fun h => { h with nextId := id + 1 }
     let open_ (d : Dev) : Dev := (numbered d).modHbm fun h => { h with requests := h.requests ++ [o] }
     let enters (y : HbmReq) (d : Dev) : Dev := d.setChan c (if staple then { ch with staple := ch.staple ++ [y] } else { ch with bulk := ch.bulk ++ [y] })
     let single : Prop := a / 256 = (a + x.len - 1) / 256
     let back : Status := if x.respBad then .eccUncorrected else .ok
     d.released 3 → 0 < x.len → (∀ z ∈ d.hbm.requests, z.id < id) →
     (∀ q ∈ x.pieces, 0 < q.2 ∧ q.1 / 256 = (q.1 + q.2 - 1) / 256) ∧ (x.pieces.map (·.2)).sum = x.len ∧
     (hbmTop ≤ a → Does (.hbmRequest x) s fun d => d.hbmAnswer x.src x.tag .formatFault []) ∧
     (a < hbmTop → Dev.refused st = true → Does (.hbmRequest x) s fun d => d.hbmAnswer x.src x.tag st []) ∧
     (a < hbmTop → Dev.refused st = false → x.reqBad = true → Does (.hbmRequest x) s fun d => d.hbmAnswer x.src x.tag .eccUncorrected []) ∧
     (a < hbmTop → Dev.refused st = false → x.reqBad = false → ∃ t : State, exec (.hbmRequest x) s = .next t ∧ t.pending = s.pending ∧ t.dev.hbm.nextId = id + 1) ∧
     (a < hbmTop → single → st = .ok → x.reqBad = false → d.hbmRoom y = false → Does (.hbmRequest x) s fun d => (open_ d).modHbm fun h => { h with waiting := h.waiting ++ [y] }) ∧
     (a < hbmTop → single → st = .ok → x.reqBad = false → d.hbmRoom y = true → x.data = none → Clean s.mem a x.len →
       Does (.hbmRequest x) s fun d => enters (r false (s.mem.seen x.addr x.len)) (open_ d)) ∧
     (∀ bs, a < hbmTop → single → st = .ok → x.reqBad = false → d.hbmRoom y = true → s.Inv → s.mem.bad = [] → s.mem.soft = [] → x.data = some bs → a % 32 = 0 → x.len % 32 = 0 →
       isView x.addr = false → bs.length = x.len →
       ∃ t : Mem, exec (.hbmRequest x) s = .next { s with mem := t, dev := (enters (r true []) (numbered d)).hbmAnswer x.src x.tag back [] } ∧
         (∀ i (h : i < bs.length), t.byte (a + i) = bs[i]) ∧ ∀ b, b < a ∨ a + x.len ≤ b → t.byte b = s.mem.byte b) ∧
     (a < hbmTop → single → st ≠ .ok → Dev.refused st = false → x.reqBad = false → d.hbmRoom y = true → x.data = none →
       Does (.hbmRequest x) s fun d => (numbered d).hbmAnswer x.src x.tag st []) ∧
     (let entries (write : Bool) (data : Nat × Nat → List Byte) (k : Nat) : List HbmReq := (x.pieces.filter fun p => d.channelOf p.1 = k).map fun p =>
        { id, src := x.src, cls := x.cls, addr := p.1, len := p.2, write, port := x.port, status := .ok, data := data p, arrival := (d.chan k).cycle
          bursts := (p.1 + p.2 - 1) / 32 - p.1 / 32 + 1 }
      a < hbmTop → 1 < x.pieces.length → st = .ok → x.reqBad = false → d.hbm.waiting = [] → d.isSet F.HBM_MRG_CTL_BUSY = false →
       (∀ k, (d.chan k).bulk.length + x.pieces.length ≤ 256 ∧ Dev.portShare (d.chan k).bulk x.port + x.pieces.length ≤ 16) →
       (x.data = none → Clean s.mem a x.len → Gives (.hbmRequest x) s fun d' =>
         d'.hbm.requests = d.hbm.requests ++ [{ o with left := x.pieces.length }] ∧ d'.hbm.waiting = [] ∧ d'.out = d.out ∧
         ∀ k, (d'.chan k).bulk = (d.chan k).bulk ++ entries false (fun p => s.mem.read p.1 p.2) k ∧ (d'.chan k).staple = (d.chan k).staple) ∧
       ∀ bs, s.Inv → s.mem.bad = [] → s.mem.soft = [] → x.data = some bs → a % 32 = 0 → x.len % 32 = 0 → isView x.addr = false → bs.length = x.len →
         ∃ (t : Mem) (d' : Dev), exec (.hbmRequest x) s = .next { s with mem := t, dev := d' } ∧ d'.hbm.requests = d.hbm.requests ∧
           (∀ k, (d'.chan k).bulk = (d.chan k).bulk ++ entries true (fun _ => []) k) ∧ ((Dev.coreUnit x.src).any d.dieClosed = false → d'.out = d.out ++ [⟨.hbmReply, x.src, [x.tag, back.code]⟩]) ∧
           (∀ i (h : i < bs.length), t.byte (a + i) = bs[i]) ∧ ∀ b, b < a ∨ a + x.len ≤ b → t.byte b = s.mem.byte b)) ∧
  (∀ (s : State) (c : Fin 256),
     let d := s.dev
     let ch := d.chan c
     let a := hbmAddress (d.isSet F.HBM_CFG_HASH) c ch.patrol
     let due : Chan := { ch with scrub := some (ch.scrub.getD ch.cycle) }
     d.released 3 → d.channelStatus c = .ok →
     (∀ (pseudo : Fin 2) (n : Nat) (blocked : List (Fin 385)),
       let recent := ch.recent.mapValues fun _ l => Dev.ageStarts n l
       let old := recent.get [] pseudo
       let aged : Chan := { ch with cycle := ch.cycle + n, recent := recent }
       let picked := (d.setChan c aged).hbmPick c pseudo (blocked.map (·.val))
       (picked = none → Does (.hbmCreelGrant c pseudo n blocked) s fun d => d.setChan c aged) ∧
       ∀ (r : HbmReq) (i : Nat), picked = some (r, i) →
         (old.filter id).length + d.level c < 4 ∧ old.head? ≠ some true ∧ d.underMargin c = false ∧
         (i ≠ 384 → d.hbm.waiting = [] → Does (.hbmCreelGrant c pseudo n blocked) s fun d => ((d.setChan c aged).markStart c pseudo).burst c r) ∧
         (i ≠ 384 → Works (.hbmCreelGrant c pseudo n blocked) s fun w => (w.on fun d => ((d.setChan c aged).markStart c pseudo).burst c r).pumpHbm) ∧
         (i ≠ 384 → d.hbm.waiting = [] → 1 < r.bursts → Gives (.hbmCreelGrant c pseudo n blocked) s fun d' =>
           (d'.chan c).bulk = ch.bulk.map (fun y => if y = r then { y with bursts := y.bursts - 1 } else y) ∧ d'.out = d.out ∧ d'.hbm.requests = d.hbm.requests) ∧
         ∀ q : HbmOpen, i ≠ 384 → d.hbm.waiting = [] → r.bursts ≤ 1 → r.write = false → d.hbm.requests.find? (·.id = r.id) = some q →
           let parts := q.parts ++ [(r.addr, r.data)]
           let st := (q.status.orElse r.status).orElse (if q.respBad then .eccUncorrected else .ok)
           let byte (b : Nat) : Byte := (parts.findSome? fun p => if p.1 ≤ b then p.2[b - p.1]? else none).getD 0
           let data : List Byte := if st ≠ .ok ∨ parts.all (·.2.isEmpty) then [] else (List.range q.len).map fun j => byte (Region.seen q.addr j)
           Gives (.hbmCreelGrant c pseudo n blocked) s fun d' => (d'.chan c).bulk = ch.bulk.erase r ∧ (d'.chan c).staple = ch.staple.erase r ∧
             (q.left ≤ 1 → d'.hbm.requests = d.hbm.requests.filter (·.id ≠ r.id) ∧
               ((Dev.coreUnit q.src).any d.dieClosed = false → d'.reply = (st, data.map BitVec.toNat) ∧
                 d'.out = d.out ++ [⟨.hbmReply, q.src, [q.tag, st.code] ++ data.map BitVec.toNat⟩])) ∧
             (1 < q.left → d'.out = d.out ∧ d'.hbm.requests = d.hbm.requests.map fun z =>
               if z.id = r.id then { q with left := q.left - 1, status := q.status.orElse r.status, parts } else z)) ∧
     (d.isSet F.HBM_STAT_READY = true → ((d.setChan c due).hbmPick c (ch.patrol / 32 % 2) []).map (·.2) = some 384 → (∀ w ∈ s.mem.bad, w / 8 ≠ a / 32) → ∃ (t : Mem) (d' : Dev),
       exec (.patrolScrub c) s = .next { s with mem := t, dev := d' } ∧ (d'.chan c).patrol = (ch.patrol + 32) % 2 ^ 31 ∧ (d'.chan c).scrub = none ∧
         t.cells = s.mem.cells ∧ t.bad = s.mem.bad ∧ t.soft = s.mem.soft.filter (fun w => w / 8 ≠ a / 32)) ∧
     (d.isSet F.HBM_STAT_READY = true → ((d.setChan c due).hbmPick c (ch.patrol / 32 % 2) []).map (·.2) ≠ some 384 → Does (.patrolScrub c) s fun d => d.setChan c due))

/-- R169, R170, R172, R395: Readings, of which one at CRITICAL changes the level too, missing readings, and stacks that leave service. -/
def Obligations.HbmHeat : Prop :=
  ∀ (s : State) (k : Fin 8),
    let d := s.dev
    let lv := d.get F.HBM_THERM_LEVEL k
    let x := d.therm k
    let hot : Int := d.get F.HBM_THERM_CFG_THROTTLE
    let out (d' : Dev) : Prop := d'.isSet F.HBM_THERM_CRIT k = true ∧ (d'.therm k).down = true ∧ ∀ c < 256, c % 8 = k → d'.channelStatus c = .isolated
    d.released 3 →
    (∀ temp : Int, Gives (.stackTempReading k temp) s fun d' =>
      d'.get F.HBM_THERM_TEMP k = field 8 temp ∧ d'.isSet F.HBM_THERM_NO_READING k = false ∧ (temp < d.get F.HBM_THERM_CFG_CRITICAL → (d'.therm k).down = x.down) ∧
        d'.get F.HBM_THERM_LEVEL k =
          (if hot ≤ temp ∧ lv < 3 ∧ 10 ≤ x.since + 1 then lv + 1
           else if 0 < lv ∧ temp < hot - d.get F.HBM_THERM_CFG_HYST ∧ 100 ≤ x.cool + 1 ∧ 100 ≤ x.since + 1 then lv - 1 else lv)) ∧
    (∀ temp : Int, (d.get F.HBM_THERM_CFG_CRITICAL : Int) ≤ temp → x.down = false → Gives (.stackTempReading k temp) s out) ∧
    (x.silent = false → Gives (.stackNoReading k false) s fun d' => d'.isSet F.HBM_THERM_NO_READING k = true ∧ d'.get F.HBM_THERM_LEVEL k = 3) ∧
    (x.down = false → Gives (.stackNoReading k true) s out) ∧
    (x.down = false → Gives (.hbmRailOutOfTolerance k) s fun d' => out d' ∧ (d.released 1 → (d'.get F.RST_RAIL_STAT_HBM).testBit k = false))

/-- R157, R162, R173, R174, R176, R177, R180, R181: The hash, the ranges, the keys and the biases of HBM. A destroyed key leaves the ciphertext in the arrays as it was. That a
range of SIZE 0 answers FORMAT_FAULT is read from the rules (notes/assumptions/33.md, DEDUCED), and so is that contents are drawn anew when VALID is cleared
(notes/assumptions/6.md, DEDUCED). Initialisation ends with READY and the failed channels recorded, and leaves every HBM byte unspecified; the margin runs of the channels, at whose
end, while no line waits at the monitor, nothing else happens. -/
def Obligations.HbmConfiguration : Prop :=
  (∀ (s : State) (r : Requester) (p : Fin 4) (v : Word) (mask : Fin 16),
     let d := s.dev
     let base := bits v.toNat 1 5
     let size := bits v.toNat 6 6
     d.released 3 → Dev.whole r = true →
     (d.live p = true → Does (.hbmPartWrite r p v) s (·.answer .writeRefused)) ∧
     (d.isSet F.HBM_CFG_LOCK = false → (r = .owner → 4 ≤ d.get F.MGMT_BOOT_FW) →
       (bits v.toNat 0 1 = d.get F.HBM_CFG_HASH → Does (.hbmCfgWrite r v) s fun d => (d.put F.HBM_CFG_HASH 0 (bits v.toNat 0 1)).answer .ok) ∧
       (bits v.toNat 0 1 ≠ d.get F.HBM_CFG_HASH → exec (.hbmCfgWrite r v) s = .next { s with
         mem := s.mem.applyAll ((List.range 32).map .forget)
         dev := ((d.modHbm fun h => { h with kept := ⟨[]⟩, zeroed := false, vague := [] }).put F.HBM_CFG_HASH 0 (bits v.toNat 0 1)).answer .ok })) ∧
     (d.isSet F.HBM_CFG_LOCK = true → Does (.hbmCfgWrite r v) s (·.answer .writeRefused)) ∧
     (v.toNat.testBit 0 = true → d.live p = false → d.isSet F.HBM_PART_VALID p = false → size ≠ 0 → base + size ≤ 32 → d.rangeTaken p base size = false → ∃ d' : Dev,
       exec (.hbmPartWrite r p v) s = .next { s with mem := s.mem.applyAll ((List.range size).map fun i => .forget (base + i)), dev := d' } ∧
         d'.isSet F.HBM_PART_VALID p = true ∧ d'.get F.HBM_PART_BASE p = base ∧ d'.get F.HBM_PART_SIZE p = size ∧
           d'.isSet F.HBM_PART_KEY_LIVE p = true ∧ (d'.hbm.keys.find p).isSome = true ∧ p.val ∉ d'.hbm.revoked ∧ d'.reply = (.ok, [])) ∧
     (v.toNat.testBit 0 = true → d.live p = false → d.isSet F.HBM_PART_VALID p = false → size = 0 ∨ 32 < base + size ∨ d.rangeTaken p base size = true →
       Does (.hbmPartWrite r p v) s (·.answer .formatFault)) ∧
     (v.toNat.testBit 0 = false → d.live p = false → d.isSet F.HBM_PART_VALID p = true → d.isSet F.HBM_PART_KEY_LIVE p = false → ∃ d' : Dev,
       exec (.hbmPartWrite r p v) s = .next { s with mem := s.mem.applyAll ((List.range (d.get F.HBM_PART_SIZE p)).map fun i => .forget (d.get F.HBM_PART_BASE p + i)), dev := d' } ∧
         d'.isSet F.HBM_PART_VALID p = false ∧ d'.reply = (.ok, [])) ∧
     (d.isSet F.HBM_PART_VALID p = true → v.toNat.testBit 0 = true ∨ d.isSet F.HBM_PART_KEY_LIVE p = true → Does (.hbmPartWrite r p v) s (·.answer .writeRefused)) ∧
     Gives (.hbmKeyDrop r mask) s (fun d' => d'.reply = (.ok, []) ∧
       ∀ q : Fin 4, mask.val.testBit q = true → d.isSet F.HBM_PART_KEY_LIVE q = true → q.val ∈ d'.hbm.revoked ∧ q.val ∈ d'.hbm.dropping ∧ d'.isSet F.HBM_KEY_CTL_BUSY = true) ∧
     ((∀ q ∈ d.hbm.dropping, q < 4) → Gives .hbmKeyDropDone s fun d' => d'.isSet F.HBM_KEY_CTL_BUSY = false ∧ d'.hbm.dropping = [] ∧
       ∀ q : Fin 4, q.val ∈ d.hbm.dropping → d'.isSet F.HBM_PART_KEY_LIVE q = false) ∧
     ((∀ q ∈ d.hbm.dropping, q < 4 ∧ (d.hbm.keys.find q).isSome = true) → rising d.hbm.keys.entries = true → ∃ t : State, exec .hbmKeyDropDone s = .next t ∧
       ∀ a, t.cipherUnit a = s.cipherUnit a) ∧
     Gives (.hbmCreelCommit r) s (fun d' => d'.regs = d.regs ∧ d'.reply = (.ok, []) ∧ ∀ k < 8, d'.hbm.bias.get 0 k = d.get F.CREEL_BIAS_HBM_BIAS k)) ∧
  (∀ (s : State) (r : Requester) (v : Word) (edges : List (Fin 64 × Fin 64)) (failed : List (Fin 256 × List (Fin 82))),
     let d := s.dev
     d.released 3 →
     (d.isSet F.HBM_STAT_READY = false → exec (.hbmInitComplete failed) s = .next { s with
         mem := s.mem.applyAll ((List.range 32).map .forget)
         dev := (failed.foldl (fun (d : Dev) x => d.repairChannel x.1 (x.2.map (·.val))) (d.modHbm fun h => { h with kept := ⟨[]⟩, zeroed := true, vague := [] })).put F.HBM_STAT_READY 0 1 }) ∧
     (∀ p, d.revoked (.part p) = false → Does (.hbmMarginStart (.part p) v) s (·.answer .partitionDenied)) ∧
     (Dev.whole r = true → d.validParts ≠ [] → Does (.hbmMarginStart r v) s (·.answer .writeRefused)) ∧
     (Dev.whole r = true → d.validParts = [] → bits v.toNat 16 8 ≠ 0 → d.isSet F.HBM_MRG_CTL_BUSY = false → Gives (.hbmMarginStart r v) s fun d' =>
       d'.isSet F.HBM_MRG_CTL_BUSY = true ∧ d'.isSet F.HBM_MRG_CTL_DONE = false ∧ d'.get F.HBM_MRG_CTL_CHANNEL = bits v.toNat 0 8 ∧
         d'.get F.HBM_MRG_CTL_DWELL = bits v.toNat 16 8 ∧ d'.hbm.run = (bits v.toNat 0 8, bits v.toNat 8 1) ∧ d'.reply = (.ok, [])) ∧
     (d.isSet F.HBM_MRG_CTL_BUSY = true → d.hbm.waiting = [] → d.mon.rx = [] → ∃ d' : Dev, exec (.hbmMarginEnd edges) s = .next { s with
         mem := s.mem.apply (.forgetChannel (d.isSet F.HBM_CFG_HASH) d.hbm.run.1), dev := d' } ∧
       d'.isSet F.HBM_MRG_CTL_BUSY = false ∧ d'.isSet F.HBM_MRG_CTL_DONE = true ∧
         ∀ k < 82, d'.get F.HBM_MRG_RES_LOW k = ((edges[k]?).getD (0, 0)).1 ∧ d'.get F.HBM_MRG_RES_HIGH k = ((edges[k]?).getD (0, 0)).2))

/-- R183 to R185, R191, R193: A boundary moves the counter on by one, the last boundary by one period, and applies a period announced for that count; it is followed by the work of
the boundary, and by the lines that wait at the monitor. A slot start moves to the next slot. In FREE neither happens. -/
def Obligations.TwistBoundaries : Prop :=
  ∀ s : State,
    let d := s.dev
    let t := d.tw.boundary + d.tw.period * 1000
    d.released 2 →
    (d.align ≠ 0 → Works .twistBoundary s (fun w => w.boundary.monTurn) ∧
      (d.nextTwist t).word .TWIST_CNT 0 = BitVec.ofNat 64 (d.get F.TWIST_CNT_CNT + 1) ∧ (d.nextTwist t).tw.boundary = t ∧
      (∀ p n, d.tw.next = some (p, n) → n = d.get F.TWIST_CNT_CNT + 1 → (d.nextTwist t).tw.period = p ∧ (d.nextTwist t).tw.next = none) ∧
      (d.tw.next = none → (d.nextTwist t).tw.period = d.tw.period ∧ (d.nextTwist t).cores = d.cores)) ∧
    (d.align ≠ 0 → d.tw.slot < 63 → Gives .planSlotStart s fun d' =>
      d'.tw.slot = d.tw.slot + 1 ∧ d'.tw.boundary = d.tw.boundary ∧ d'.cores = d.cores ∧ ((∀ e < 8, (d.swOf e).quiet = false) → d'.regs = d.regs) ∧
        d.tw.boundary + d.slotStart (d.tw.slot + 1) ≤ d'.now) ∧
    (d.align = 0 → exec .twistBoundary s = .next s ∧ exec .planSlotStart s = .next s)

/-- R187 to R191, R194, R195, R223, R257, R259: What a beacon of the source does in each state of alignment, and the end of HOLDOVER. `chosen` says that the part takes the beacon.
A bad unit only has its blocks counted, and a lane that delivers nothing brings none. Calibration. A source that is not calibrated, or 4,096 twists after the last time, gets a
request on a lane that is lit, or waits without one; a request for this part is answered with the times of receipt and answer; the sixteenth answer gives DELAY. That an answer's t2
equals its t3 is read from the rules (notes/assumptions/60.md, DEDUCED); the lane that a calibration unit takes is the model's choice (notes/assumptions/22.md, DESIGN CHOICE).
Enabling and disabling the twist, scheduling a period, and slip notices. A free root starts from the greater of its counter and TWIST_CNT_INIT, and its first boundary comes one
period after ENABLE: both are read from the rules (notes/assumptions/60.md, DEDUCED). -/
def Obligations.TwistAlignment : Prop :=
  (∀ (s : State) (a : Arrival) (arrival : Int),
     let d := s.dev.countBlocks a
     let b := a.beacon
     let chosen : Prop := d.freeRoot = false ∧ d.beaconOk b = true ∧ d.isSource b = true
     let err := d.beaconError b arrival
     let calibrated : Prop := d.isSet F.TWIST_CAL_VALID = true ∧ ∃ x, d.tw.source = some x ∧ x.sender = b.sender
     s.dev.released 2 →
     (s.dev.delivers a = false → exec (.beaconReceive a arrival) s = .next s) ∧
     (s.dev.delivers a = true → a.control 0xB5 222 = false → Does (.beaconReceive a arrival) s (·.countBlocks a)) ∧
     (s.dev.delivers a = true → a.control 0xB5 222 = true →
       (d.align = 1 → chosen → d.get F.TWIST_CNT_CNT ≤ b.count → Gives (.beaconReceive a arrival) s fun d' =>
         d'.word .TWIST_CNT 0 = BitVec.ofNat 64 b.count ∧ d'.tw.period = b.period ∧ d'.tw.source = some b ∧
           d'.get F.TWIST_ALIGN_SOURCE = b.sender % 2 ^ 16 ∧ d'.get F.TWIST_ALIGN_HOPS = b.hops % 2 ^ 8 ∧ (d'.align = 1 ∨ d'.align = 2)) ∧
       (d.align = 2 ∨ d.align = 3 → chosen → b.count = d.get F.TWIST_CNT_CNT → b.period = d.tw.period → calibrated → -8000 ≤ err → err ≤ 8000 →
         Gives (.beaconReceive a arrival) s fun d' => d'.align = 2 ∧ d'.get F.TWIST_ALIGN_ERROR = field 16 (err / 125) ∧
           d'.word .TWIST_CNT 0 = d.word .TWIST_CNT 0 ∧ d'.tw.period = d.tw.period) ∧
       (d.align = 2 ∨ d.align = 3 → chosen → b.count ≠ d.get F.TWIST_CNT_CNT → ∃ t, exec (.beaconReceive a arrival) s = .next t ∧
         t.dev.align = 4 ∧ t.dev.get F.TWIST_ALIGN_REASON = 3) ∧
       (¬ chosen ∨ d.align = 0 → Does (.beaconReceive a arrival) s (·.countBlocks a))) ∧
     (s.dev.align = 3 → s.dev.get F.TWIST_CFG_HOLD ≤ s.dev.tw.held ∨ 100000000 ≤ s.dev.now - s.dev.tw.heldAt → ∃ t, exec .holdoverExpiry s = .next t ∧
       t.dev.align = 4 ∧ t.dev.get F.TWIST_ALIGN_REASON = 1)) ∧
  (∀ (s : State) (a : Arrival) (b : Beacon) (t1 : Nat) (l : List Int),
     let d := s.dev.countBlocks a
     let u := a.cal
     let l' := l ++ [((d.now : Int) - t1) - ((u.t3 : Int) - u.t2)]
     let fits (d : Dev) (_ _ start guard : Nat) : Bool := decide (start - d.fab.slotBase + 2 ≤ d.slotBlocks guard (start - d.fab.slotBase))
     s.dev.released 2 →
     (s.dev.tw.source = some b → s.dev.tw.cal = none → s.dev.isSet F.TWIST_CAL_VALID = false ∨ 4096 ≤ s.dev.tw.sinceCal →
       (∀ lane start, s.dev.openLane b.sender (fits s.dev) = some (lane, start) → Does .calibrationStart s fun d =>
         let x := d.sendControl .calRequest lane start (withCrc 168 (0xCA + d.fabId % 2 ^ 16 * 2 ^ 8 + b.sender % 2 ^ 16 * 2 ^ 24))
         { x with tw := { x.tw with cal := some (d.now, []) } }) ∧
       (s.dev.openLane b.sender (fits s.dev) = none → exec .calibrationStart s = .next s)) ∧
     (s.dev.delivers a = false → exec (.calibrationRequest a) s = .next s ∧ exec (.calibrationAnswer a) s = .next s) ∧
     (s.dev.delivers a = true → a.control 0xCA 168 = true → u.target = d.fabId →
       (∀ lane start, d.openLane u.sender (fits d) = some (lane, start) → Does (.calibrationRequest a) s fun d =>
         let d := d.countBlocks a
         d.sendControl .calAnswer lane start (withCrc 168 (0xCB + d.fabId % 2 ^ 16 * 2 ^ 8 + u.sender * 2 ^ 24 + d.now % 2 ^ 64 * 2 ^ 40 + d.now % 2 ^ 64 * 2 ^ 104))) ∧
       (d.openLane u.sender (fits d) = none → Does (.calibrationRequest a) s (·.countBlocks a))) ∧
     (s.dev.delivers a = true → a.control 0xCA 168 = false ∨ u.target ≠ d.fabId → Does (.calibrationRequest a) s (·.countBlocks a)) ∧
     (s.dev.delivers a = true → a.control 0xCB 168 = true → d.tw.source = some b → d.tw.cal = some (t1, l) → u.target = d.fabId → u.sender = b.sender →
       (l'.length < 16 → Does (.calibrationAnswer a) s fun d => (d.countBlocks a).requestCal b.sender l') ∧
       (16 ≤ l'.length → Gives (.calibrationAnswer a) s fun d' => d'.get F.TWIST_CAL_DELAY = field 32 (d.calDelay l') ∧
         d'.isSet F.TWIST_CAL_VALID = true ∧ d'.tw.cal = none ∧ d'.tw.sinceCal = 0 ∧ d'.get F.TWIST_CAL_ASYM = d.get F.TWIST_CAL_ASYM))) ∧
  (∀ (s : State) (r : Requester) (v c : Word) (slice : Fin 65536) (p : Nat),
     let d := s.dev
     let cnt := d.get F.TWIST_CNT_CNT
     let ok : Prop := Dev.whole r = true ∧ (v.toNat.testBit 2 = true → d.isSet F.TWIST_CFG_ROOT = true) ∧ bits v.toNat 19 6 ≠ 0
     d.released 2 →
     (ok → v.toNat.testBit 1 = true → d.isSet F.TWIST_CFG_ENABLE = false → d.tw.stuck = false → Gives (.twistCfgWrite r v) s fun d' =>
       d'.isSet F.TWIST_CFG_ENABLE = true ∧ d'.get F.TWIST_CFG_HOLD = bits v.toNat 19 6 ∧ d'.tw.boundary = d.now ∧ d'.reply = (.ok, []) ∧
         (if d.isSet F.TWIST_CFG_ROOT && !v.toNat.testBit 2 then d'.align = 2 ∧ d'.word .TWIST_CNT 0 = BitVec.ofNat 64 (max cnt (d.get F.TWIST_CNT_INIT_INIT))
          else d'.align = 1 ∧ d'.word .TWIST_CNT 0 = d.word .TWIST_CNT 0)) ∧
     (ok → v.toNat.testBit 1 = false → d.isSet F.TWIST_CFG_ENABLE = true → (∀ q < 4, d.hasPlan q = false) → Gives (.twistCfgWrite r v) s fun d' =>
       d'.align = 0 ∧ d'.isSet F.TWIST_CFG_ENABLE = false ∧ d'.word .TWIST_CNT 0 = d.word .TWIST_CNT 0) ∧
     (Dev.whole r = true → d.isSet F.TWIST_CFG_ROOT = true → cnt + 16 ≤ d.get F.TWIST_PERIOD_AT_AT → Does (.twistCommit r) s fun d =>
       ({ d with tw := { d.tw with next := some (d.get F.TWIST_PERIOD_PERIOD, d.get F.TWIST_PERIOD_AT_AT) } } : Dev).answer .ok) ∧
     (Dev.whole r = true → d.isSet F.TWIST_CFG_ROOT = false → Does (.twistCommit r) s (·.answer .writeRefused)) ∧
     ((List.range 4).filter (fun q => d.hasPlan q && d.sliceTag q = slice.val) = [p] → (d.word .TWIST_START p).toNat ≤ c.toNat →
       (∀ x ∈ d.tw.slips, ¬ (x.part = p ∧ x.at_ = c.toNat)) → cnt ≤ c.toNat → Does (.slipNotice slice c) s fun d =>
         { d with tw := { d.tw with slips := d.tw.slips ++ [⟨p, c.toNat, c.toNat + 1, false⟩] } }) ∧
     ((∀ q < 4, d.hasPlan q = true → d.sliceTag q ≠ slice.val) → exec (.slipNotice slice c) s = .next s))

/-- R199 to R203, R213, R214: The oldest operation at a bank. A signal of a live object adds to VALUE, saturating, and names its sender and the twist in the LAST fields; a waiter
whose condition it meets leaves with OK, and a host object's port notifies (R206). A signal to a barrier counter answers FORMAT_FAULT, one to an object of another partition
PARTITION_DENIED. A wait whose condition holds already is answered OK, to the core or the host that asked; another one is counted among the waiters. Zeroing, the clearing of a lost
die's objects, the debug mode and repair writes, by the requesters that may. -/
def Obligations.SyncStore : Prop :=
  (∀ (s : State) (bank : Fin 64) (id x part src ch fab : Nat) (rest : List SyncOp),
     let d := s.dev
     let v := d.objValue id
     let first (o : SyncOp) : Prop := d.sync.arrivals = o :: rest ∧ id % 64 = bank ∧ d.objStatus (Dev.whoOf part) id = .ok
     let taken (d : Dev) : Dev := { d with sync := { d.sync with arrivals := rest } }
     d.released 2 →
     (∀ r : Reply, d.sync.arrivals = .signal id x part src ch fab r :: rest → id % 64 = bank → Does (.syncSignalApply bank) s fun d =>
       ((taken d).applySignal id x part src ch fab).1.replyTo r ((taken d).applySignal id x part src ch fab).2 0) ∧
     (∀ (eq : Bool) (timeout : Option Nat) (r : Reply), d.sync.arrivals = .wait id x eq part timeout r :: rest → id % 64 = bank →
       Does (.syncWaitStart bank) s fun d => (taken d).startWait id x eq part timeout r) ∧
     (first (.signal id x part src ch fab .none) → id < 57344 → d.sync.waiters = [] → src < 4096 → ch < 16 → fab < 65536 →
       Gives (.syncSignalApply bank) s fun d' => d'.objValue id = min (v + x) (2 ^ 32 - 1) ∧ d'.objState id = 0 ∧ d'.get F.SYNC_OBJ_HI_LAST_PART id = fab ∧
         d'.get F.SYNC_OBJ_HI_LAST_SRC id = src ∧ d'.get F.SYNC_OBJ_HI_LAST_CH id = ch ∧
           d'.get F.SYNC_OBJ_HI_LAST_TWIST id = d.get F.TWIST_CNT_CNT % 2 ^ 32 ∧ d'.sync.arrivals = rest ∧ d'.cores = d.cores ∧
           ∀ j < 65536, j ≠ id → d'.word .SYNC_OBJ_LO j = d.word .SYNC_OBJ_LO j) ∧
     (∀ (eq : Bool) (timeout : Option Nat) (r : Reply), first (.wait id x eq part timeout r) → d.sync.waiters = [] → waitCond eq v x = false →
       Gives (.syncWaitStart bank) s fun d' => d'.sync.waiters = [{ id, barrier := false, eq, x, left := timeout, reply := r }] ∧
         d'.get F.SYNC_OBJ_LO_WAITERS id = (d.get F.SYNC_OBJ_LO_WAITERS id + 1) % 65536 ∧ d'.objValue id = v) ∧
     (∀ (eq : Bool) (timeout : Option Nat), first (.wait id x eq part timeout .none) → d.sync.waiters = [] → waitCond eq v x = true →
       d.get F.SYNC_OBJ_LO_WAITERS id < 65535 → Gives (.syncWaitStart bank) s fun d' => d'.sync.waiters = [] ∧
         d'.get F.SYNC_OBJ_LO_WAITERS id = d.get F.SYNC_OBJ_LO_WAITERS id ∧ d'.objValue id = v) ∧
     (∀ (eq : Bool) (timeout : Option Nat), waitCond eq v x = true → d.sync.waiters = [] →
       (∀ p tag, first (.wait id x eq part timeout (.port p tag)) → Gives (.syncWaitStart bank) s fun d' =>
         d'.sync.waiters = [] ∧ d'.objValue id = v ∧ d.tells d' p { type := 4, tag, status := 0, val := v }) ∧
       ∀ (c rd seq : Nat) (y : YOp), first (.wait id x eq part timeout (.core c rd seq)) → (d.core c).yq = [y] → y.seq = seq → y.kind = .wait →
         (d.core c).run = .run ∨ (d.core c).run = .wait → Gives (.syncWaitStart bank) s fun d' =>
           d'.sync.waiters = [] ∧ d'.objValue id = v ∧ (d.core c).goesOn (d'.core c) y .ok) ∧
     (∀ (eq : Bool) (y p tag : Nat), first (.signal id x part src ch fab .none) → id < 57344 →
       d.sync.waiters = [{ id, barrier := false, eq, x := y, left := none, reply := .port p tag }] → waitCond eq (min (v + x) (2 ^ 32 - 1)) y = true →
       Gives (.syncSignalApply bank) s fun d' => d'.sync.waiters = [] ∧ d.tells d' p { type := 4, tag, status := 0, val := min (v + x) (2 ^ 32 - 1) }) ∧
     (first (.signal id x part src ch fab .none) → 57344 ≤ id → id < 61440 → d.sync.waiters = [] → (d.partOfSync id).isSome = true →
       let p := (id - 57344) / 1024
       let f : Frame := { type := 8, id, val := min (v + x) (2 ^ 32 - 1), aux := fab + 65536 }
       (d.canSend p = true → (d.zport p).held = [] → Gives (.syncSignalApply bank) s fun d' =>
         d'.objValue id = min (v + x) (2 ^ 32 - 1) ∧ d'.out = d.out ++ [⟨.frame, p, d.frameBody p (d.zport p).txNext f⟩]) ∧
       (d.canSend p = false → (d.zport p).held = [] → Gives (.syncSignalApply bank) s fun d' =>
         d'.objValue id = min (v + x) (2 ^ 32 - 1) ∧ d'.out = d.out ∧ (d'.zport p).held = [f])) ∧
     (id < 65536 → d.partOfSync id = Dev.whoOf part → d.objState id = 0 → 61440 ≤ id → d.applySignal id x part src ch fab = (d, .formatFault)) ∧
     (id < 65536 → d.partOfSync id ≠ Dev.whoOf part → d.applySignal id x part src ch fab = (d, .partitionDenied) ∧
       ∀ (eq : Bool) (timeout : Option Nat) (p tag : Nat), d.startWait id x eq part timeout (.port p tag) =
         d.portFrame p { type := 4, tag, status := Status.partitionDenied.code, val := 0 })) ∧
  (∀ (s : State) (r : Requester) (p : Fin 4) (id : Fin 65536) (v : Word) (mask : Fin 4),
     let d := s.dev
     d.released 2 →
     (∀ (first : Fin 65536) (count : Fin 131072), d.isSet F.SYNC_ZERO_BUSY = false → count.val ≠ 0 → first + count.val ≤ 65536 →
       (∀ i < count.val, d.partOfSync (first + i) = Dev.partOfReq r) → d.revoked r = false → Gives (.syncZeroStart r first count) s fun d' =>
         d'.isSet F.SYNC_ZERO_BUSY = true ∧ d'.get F.SYNC_ZERO_FIRST = first ∧ d'.get F.SYNC_ZERO_COUNT = count ∧ d'.sync.zeroRun = some (first.val, count.val) ∧
           d'.reply = (.ok, [])) ∧
     (∀ (first : Fin 65536) (count : Fin 131072), d.revoked r = false → (d.mayZero r first count = false → Does (.syncZeroStart r first count) s (·.answer .partitionDenied)) ∧
       (d.mayZero r first count = true → d.isSet F.SYNC_ZERO_BUSY = true ∨ count.val = 0 ∨ 65536 < first + count.val →
         Does (.syncZeroStart r first count) s (·.answer .formatFault))) ∧
     (∀ first count : Nat, d.sync.zeroRun = some (first, count) → first + count ≤ 65536 → (∀ i < count, d.objectInUse (first + i) = false) →
       Gives .syncZeroEnd s fun d' => d'.isSet F.SYNC_ZERO_BUSY = false ∧ d'.get F.SYNC_ZERO_STATUS = 0 ∧ d'.sync.zeroRun = none ∧
         (∀ i < count, d'.objValue (first + i) = 0 ∧ d'.word .SYNC_OBJ_HI (first + i) = 0) ∧
         ∀ j < 65536, j < first ∨ first + count ≤ j → d'.word .SYNC_OBJ_LO j = d.word .SYNC_OBJ_LO j) ∧
     ((∀ i < 2, mask.val.testBit i = true → d.isSet F.LBI_DIE_STAT_WRAP_CLOSED i = true) → Gives (.syncDieClear .mgmt mask) s fun d' =>
       d'.reply = (.ok, []) ∧ ∀ i < 2, mask.val.testBit i = true → ∀ j < 24576, d'.objValue (24576 * i + j) = 0 ∧
         d'.get F.SYNC_OBJ_LO_WAITERS (24576 * i + j) = 0 ∧ (d.objState (24576 * i + j) ≤ 1 → d'.objState (24576 * i + j) = 0)) ∧
     (r ≠ .mgmt → d.revoked r = false → Does (.syncDieClear r mask) s (·.answer .partitionDenied)) ∧
     (bits v.toNat 0 2 < 2 ∨ (bits v.toNat 0 2 = 2 ∧ d.isSet F.DBG_UNLOCK_HELD p = true) → d.revoked (.part p) = false → Does (.syncDbgWrite (.part p) p v) s fun d =>
       (d.put F.SYNC_DBG_MODE p (bits v.toNat 0 2)).answer .ok) ∧
     (d.revoked (.part p) = false →
       (bits v.toNat 0 2 = 3 → Does (.syncDbgWrite (.part p) p v) s (·.answer .formatFault)) ∧
       (bits v.toNat 0 2 = 2 → d.isSet F.DBG_UNLOCK_HELD p = false → Does (.syncDbgWrite (.part p) p v) s (·.answer .partitionDenied))) ∧
     (r ≠ .part p → d.revoked r = false → Does (.syncDbgWrite r p v) s (·.answer .partitionDenied)) ∧
     (d.mayReachObj r id 2 = true → d.revoked r = false → d.objState id = 0 → id < 61440 → d.sync.waiters = [] → Gives (.repairWrite r id v) s fun d' =>
       d'.objValue id = v.toNat % 2 ^ 32 ∧ d'.get F.SYNC_OBJ_HI_LAST_SRC id = 0xFFF ∧ d'.get F.SYNC_OBJ_HI_LAST_CH id = 0xF ∧ d'.reply = (.ok, []) ∧
         (d.evq.length < 256 → d'.evq = d.evq ++ [⟨.repairWrite, Dev.evPart (d.partOfSync id), id, .ok, d.objValue id + v.toNat % 2 ^ 32 * 2 ^ 32, d.now,
           if d.align = 0 then 0 else d.get F.TWIST_CNT_CNT⟩])) ∧
     (d.mayReachObj r id 2 = false → d.revoked r = false → Does (.repairWrite r id v) s (·.answer .partitionDenied)))

/-- R207 to R211: What reaches a barrier. A local arrival that completes the local count goes on to the home, as a message with the generation and the heat, or is counted there; an
arrival of the current generation is counted at the home, and the last one releases: VALUE rises by one, the counts are zero, the release leaves for every part and the waiters go
on with OK. An arrival at a disabled barrier answers FORMAT_FAULT; messages that no rule admits are discarded. Arrivals away from the home, GRACE_ON on the members (DEDUCED) and
that the row is a Ply engine's arrival where nothing waits at the bank (DESIGN CHOICE) are log entry notes/assumptions/61.md. How a generation ends: by a release, by the home's
deadline, by the local deadline and by an abort. VALUE rises by one, the counts are zero, and every waiter of the generation leaves with the status: that of the release, else
DEADLINE_MISSED. -/
def Obligations.Barriers : Prop :=
  (∀ (s : State) (b : Fin 4096) (sender gen : Fin 65536) (heat : Bool),
     let d := s.dev
     let id : Fin 65536 := ⟨61440 + b.val, by omega⟩
     d.released 2 →
     (∀ (part : Nat) (r : Reply) (rest : List SyncOp), d.sync.arrivals = .arrive (61440 + b) part r :: rest →
       Does (.barrierLocalArrival b) s fun d => ({ d with sync := { d.sync with arrivals := rest } }).localArrival b part r) ∧
     (∀ (part : Nat) (r : Reply), d.objStatus (Dev.whoOf part) (61440 + b) = .ok → d.isSet F.SYNC_BAR_ENABLE b = true →
       d.get F.SYNC_BAR_STAT_LOCAL_COUNT b + 1 < d.get F.SYNC_BAR_LOCAL_N b → (d.localArrival b part r).get F.SYNC_BAR_STAT_LOCAL_COUNT b =
         d.get F.SYNC_BAR_STAT_LOCAL_COUNT b + 1 ∧ (d.localArrival b part r).generation b = d.generation b) ∧
     (d.barRefused id = false → Does (.barrierArrival sender id gen heat) s fun d => if d.isHome b then d.homeArrival b sender gen heat false else d) ∧
     (d.isHome b = true → d.barRefused id = false → gen.val = d.generation b → (d.bar b).first ≠ none →
       d.get F.SYNC_BAR_STAT_PARTS_COUNT b + 1 < d.get F.SYNC_BAR_PARTS_N b → Gives (.barrierArrival sender id gen false) s fun d' =>
         d'.get F.SYNC_BAR_STAT_PARTS_COUNT b = d.get F.SYNC_BAR_STAT_PARTS_COUNT b + 1 ∧ d'.generation b = d.generation b ∧ d'.sync = d.sync) ∧
     (let mine (part : Nat) (r : Reply) : Prop := (∃ rest, d.sync.arrivals = .arrive (61440 + b) part r :: rest) ∧ d.objStatus (Dev.whoOf part) (61440 + b) = .ok ∧
        d.isSet F.SYNC_BAR_ENABLE b = true ∧ d.get F.SYNC_BAR_STAT_LOCAL_COUNT b + 1 = d.get F.SYNC_BAR_LOCAL_N b
      let released (ws : List Waiter) (d' : Dev) : Prop := d'.objValue (61440 + b) = (d.objValue (61440 + b) + 1) % 2 ^ 32 ∧ d'.get F.SYNC_BAR_STAT_LOCAL_COUNT b = 0 ∧
        d'.get F.SYNC_BAR_STAT_PARTS_COUNT b = 0 ∧ d'.get F.SYNC_BAR_STAT_LAST_STATUS b = 0 ∧ d'.get F.SYNC_BAR_STAT_LAST_GEN b = d.generation b ∧
        (∀ p n, d.partOfSync (61440 + b) = some p → d.msgContext p 0xFFFF = some n → ∃ sw, d'.messages 0xFFFF (Dev.releaseBytes b (d.generation b) .ok sw)) ∧
        (∀ p tag, ws = [⟨61440 + b, true, false, 0, none, .port p tag⟩] → d'.sync.waiters = [] ∧ d.tells d' p { type := 4, tag, status := 0, val := (d.objValue (61440 + b) + 1) % 2 ^ 32 }) ∧
        ∀ c rd seq y, ws = [⟨61440 + b, true, false, 0, none, .core c rd seq⟩] → (d.core c).yq = [y] → y.seq = seq → y.kind = .bar → (d.core c).run = .run →
          d'.sync.waiters = [] ∧ (d.core c).goesOn (d'.core c) y .ok
      (∀ part p r, mine part r → d.isHome b = false → d.partOfSync (61440 + b) = some p → d.get F.SYNC_BAR_HOME b ≠ 0xFFFF → Gives (.barrierLocalArrival b) s fun d' =>
        d'.messages (d.get F.SYNC_BAR_HOME b) (leBytes 1 0x20 ++ leBytes 2 (61440 + b) ++ leBytes 2 (d.generation b) ++ leBytes 1 (flag (d.isSet F.HBM_THERM_SUM_HEAT))) ∧
          d'.sync.waiters = d.sync.waiters ++ [⟨61440 + b, true, false, 0, none, r⟩] ∧ d'.get F.SYNC_BAR_STAT_LOCAL_COUNT b = d.get F.SYNC_BAR_LOCAL_N b ∧
          d'.generation b = d.generation b ∧ (d'.bar b).localAt = some (d.get F.TWIST_CNT_CNT)) ∧
      (∀ part r, mine part r → d.isHome b = true → d.get F.SYNC_BAR_STAT_PARTS_COUNT b + 1 < d.get F.SYNC_BAR_PARTS_N b → Gives (.barrierLocalArrival b) s fun d' =>
        d'.get F.SYNC_BAR_STAT_PARTS_COUNT b = d.get F.SYNC_BAR_STAT_PARTS_COUNT b + 1 ∧ d'.generation b = d.generation b ∧
          d'.sync.waiters = d.sync.waiters ++ [⟨61440 + b, true, false, 0, none, r⟩]) ∧
      (∀ part r, mine part r → d.isHome b = true → d.get F.SYNC_BAR_STAT_PARTS_COUNT b + 1 = d.get F.SYNC_BAR_PARTS_N b → d.sync.waiters = [] →
        Gives (.barrierLocalArrival b) s (released [⟨61440 + b, true, false, 0, none, r⟩])) ∧
      (d.isHome b = true → d.barRefused id = false → gen.val = d.generation b → d.get F.SYNC_BAR_STAT_PARTS_COUNT b + 1 = d.get F.SYNC_BAR_PARTS_N b →
        (∀ x ∈ d.sync.waiters, x.id = 61440 + b → x.barrier = true ∧ (x.reply = .none ∨ (∃ p tag, x.reply = .port p tag) ∨ ∃ c rd seq, x.reply = .core c rd seq)) →
        Gives (.barrierArrival sender id gen heat) s fun d' => released d.sync.waiters d' ∧ d'.sync.waiters = d.sync.waiters.filter (·.id ≠ 61440 + b.val))) ∧
     (∀ (part p tag : Nat) (rest : List SyncOp), d.sync.arrivals = .arrive (61440 + b) part (.port p tag) :: rest → d.objStatus (Dev.whoOf part) (61440 + b) = .ok →
       d.isSet F.SYNC_BAR_ENABLE b = false → Gives (.barrierLocalArrival b) s fun d' => d.tells d' p { type := 4, tag, status := Status.formatFault.code, val := 0 } ∧ d'.regs = d.regs) ∧
     (∀ p, (∀ o ∈ d.sync.arrivals, Dev.opId o % 64 ≠ (61440 + b.val) % 64) → d.partOfSync (61440 + b) = some p →
       (d.hasPlan p = true → p < 4 → d.objState (61440 + b) = 0 → d.isSet F.SYNC_BAR_ENABLE b = true → d.get F.SYNC_BAR_STAT_LOCAL_COUNT b + 1 < d.get F.SYNC_BAR_LOCAL_N b →
         Gives (.barrierLocalArrival b) s fun d' => d'.get F.SYNC_BAR_STAT_LOCAL_COUNT b = d.get F.SYNC_BAR_STAT_LOCAL_COUNT b + 1 ∧ d'.generation b = d.generation b) ∧
       (d.hasPlan p = false → exec (.barrierLocalArrival b) s = .next s)) ∧
     (d.barRefused id = false → Does (.heatNoticeReceive sender id gen) s fun d => if d.isHome b then d.homeArrival b sender gen true true else d) ∧
     (d.barRefused id = false → gen.val = d.generation b → Gives (.graceNotice sender id gen) s fun d' =>
       d'.isSet F.SYNC_BAR_STAT_GRACE_ON b = true ∧ (d'.bar b).grace = true ∧ d'.generation b = d.generation b) ∧
     (d.barRefused id = true → Does (.barrierArrival sender id gen heat) s (·.discardBar id sender gen 0x20) ∧
       Does (.heatNoticeReceive sender id gen) s (·.discardBar id sender gen 0x21) ∧ Does (.graceNotice sender id gen) s (·.discardBar id sender gen 0x23))) ∧
  (∀ (s : State) (b : Fin 4096) (sender gen : Fin 65536) (status : Fin 256) (sw v : Word) (r : Requester),
     let d := s.dev
     let id : Fin 65536 := ⟨61440 + b.val, by omega⟩
     let ended (d' : Dev) : Prop := d'.objValue (61440 + b) = (d.objValue (61440 + b) + 1) % 2 ^ 32 ∧ d'.get F.SYNC_BAR_STAT_LOCAL_COUNT b = 0 ∧
       d'.get F.SYNC_BAR_STAT_PARTS_COUNT b = 0 ∧ d'.isSet F.SYNC_BAR_STAT_GRACE_ON b = false ∧ d'.isSet F.SYNC_BAR_STAT_HEAT_SENT b = false
     let free (st : Status) (d' : Dev) : Prop := d'.sync.waiters = d.sync.waiters.filter (·.id ≠ 61440 + b.val) ∧
       (∀ p tag, d.sync.waiters = [⟨61440 + b, true, false, 0, none, .port p tag⟩] → d.tells d' p { type := 4, tag, status := st.code, val := (d.objValue (61440 + b) + 1) % 2 ^ 32 }) ∧
       ∀ c rd seq y, d.sync.waiters = [⟨61440 + b, true, false, 0, none, .core c rd seq⟩] → (d.core c).yq = [y] → y.seq = seq → y.kind = .bar → (d.core c).run = .run →
         (d.core c).goesOn (d'.core c) y st
     d.released 2 →
     ((∀ x ∈ d.sync.waiters, x.id = 61440 + b → x.barrier = true ∧ (x.reply = .none ∨ (∃ p tag, x.reply = .port p tag) ∨ ∃ c rd seq, x.reply = .core c rd seq)) →
       (d.barRefused id = false → gen.val = d.generation b → Gives (.barrierRelease sender id gen status sw) s fun d' =>
         ended d' ∧ free (Status.ofCode status) d' ∧ d'.get F.SYNC_BAR_STAT_LAST_GEN b = gen ∧ d'.get F.SYNC_BAR_STAT_LAST_STATUS b = (Status.ofCode status).code) ∧
       (∀ t, (d.bar b).deadline = some t → d.isHome b = true → t ≤ d.get F.TWIST_CNT_CNT → Gives (.barrierDeadline b) s fun d' =>
         ended d' ∧ free .deadlineMissed d' ∧ d'.get F.SYNC_BAR_STAT_LAST_STATUS b = Status.deadlineMissed.code) ∧
       (∀ t, (d.bar b).localDue = some t → t ≤ d.get F.TWIST_CNT_CNT → Gives (.barrierLocalTimeout b) s fun d' => ended d' ∧ free .deadlineMissed d') ∧
       (d.mayWriteBar r b = true → d.revoked r = false → Gives (.barrierAbort r b) s fun d' => ended d' ∧ free .deadlineMissed d' ∧ d'.reply = (.ok, []))) ∧
     (d.mayWriteBar r b = false → d.revoked r = false → Does (.barrierAbort r b) s (·.answer .partitionDenied) ∧ Does (.syncBarWrite r b v) s (·.answer .partitionDenied)) ∧
     (d.mayWriteBar r b = true → d.revoked r = false → d.get F.SYNC_BAR_STAT_LOCAL_COUNT b = 0 → (d.isHome b = true → d.get F.SYNC_BAR_STAT_PARTS_COUNT b = 0) →
       bits v.toNat 45 6 ≤ bits v.toNat 51 6 → Does (.syncBarWrite r b v) s fun d => (d.setWord .SYNC_BAR b (BitVec.ofNat 64 (v.toNat % 2 ^ 57))).answer .ok))

/-- R216, R222, R226, R227, R229, R230, R233, R245, R246, R259: Blocks that arrive as they were sent give their payloads back with nothing to mend, and a single wrong bit of a
block is mended. What becomes of a packet that arrives, for this part or on a ring. One that passes every check lands with its payload in the clear at LAND + 256 × OFF and nowhere
else, and a ring packet goes on to the next part; a duplicate is acknowledged again; a barrier message of channel 2 acts; a bad check or tag is counted; a wrong context, or a
payload beyond LIMIT, is answered with a NAK. One for another part of a local slice goes on unchanged, is held for combining, or without a direct route is answered with a NAK; one
in transit waits as remainder or is dropped; a lane that delivers nothing brings none. -/
def Obligations.PacketArrival : Prop :=
  ((∀ (before : Nat) (l : List Nat), before < 2 ^ 58 → decodeBlocks before (encodeBlocks before l).1 = (l.map (· % 2 ^ 128), 0, 0)) ∧
   (∀ before v k : Nat, before < 2 ^ 58 → k < 136 →
     let b := (encodeBlock before v).1
     checkBlock (Nat.xor b (2 ^ k)) = (b % 2 ^ 128, 1))) ∧
  (∀ (s : State) (a : Arrival) (sig : Bool) (p : Nat) (k : SliceKey),
     let d := s.dev.countBlocks a
     let x := a.packet sig
     let key := d.packetKey x
     let y := x.opened key
     let n := x.rflow
     let q := d.ctx n .part
     let land := d.ctx n .land + 256 * x.off
     let context : Prop := d.ctxIs n 1 = true ∧ (x.slice ≠ 0 → q = p) ∧ d.ctx n .peer = x.src ∧ d.ctx n .peerFlow = x.sflow ∧ d.ctx n .ch = x.ch ∧ d.ctx n .slice = x.slice
     let fresh : Prop := d.inWindow n x.seq = some true ∧ d.skewed n x.seq = false ∧ x.tag = false
     let plain : Prop := fresh ∧ x.ch ≠ 2 ∧ d.plyReceive n = none
     let after (d : Dev) : Dev := (d.landed n y a.sender).ringForward q n y
     let becomes (f : Dev → Dev) : Prop := Does (.packetReceive a sig) s fun d => f (d.countBlocks a)
     s.dev.released 4 →
     (s.dev.delivers a = false → exec (.packetReceive a sig) s = .next s) ∧
     (s.dev.delivers a = true →
       (d.fabId = 0xFFFF → becomes id) ∧
       (d.fabId ≠ 0xFFFF → a.packetOk = false → becomes (·.count .FAB_DROP)) ∧
       (d.fabId ≠ 0xFFFF → a.packetOk = true → x.dst = d.fabId ∨ x.dst = 0xFFFF →
         (d.sliceHolder x.slice = none → becomes (·.sendNak x a.sender .sliceDenied)) ∧
         (d.sliceHolder x.slice = some (p, k) →
           (k.dropped = true → becomes (·.sendNak x a.sender .keyRevoked)) ∧
           (k.dropped = false → k.live = false → becomes (·.sendNak x a.sender .sliceDenied)) ∧
           (k.dropped = false → k.live = true →
             (x.authentic key = false → becomes fun d =>
               (d.count .FAB_AUTH).raise .packetAuth (if x.slice = 0 then 7 else p) 0x800 (x.src + x.slice * 2 ^ 16 + x.ch * 2 ^ 32)) ∧
             (x.authentic key = true → ¬ context → becomes (·.sendNak y a.sender .sliceDenied)) ∧
             (x.authentic key = true → context → q ∈ d.dead → becomes (·.sendNak y a.sender .isolated)) ∧
             (x.authentic key = true → context → q ∉ d.dead →
               (d.inWindow n x.seq = none → becomes id) ∧
               (d.inWindow n x.seq = some false → becomes fun d => (d.setRx n { d.rxOf n with hop := a.sender }).sendAck n) ∧
               (d.inWindow n x.seq = some true → d.skewed n x.seq = true → becomes fun d => (d.noteSkew n y).sendNak y a.sender .versionSkew) ∧
               (fresh → x.ch = 2 → Works (.packetReceive a sig) s fun w => (w.on fun d => after (d.countBlocks a)).takeMessage q y) ∧
               (fresh → x.ch = 2 → y.num 0 1 = 0x22 → (after d).partOfSync (y.num 1 2) = some q → (after d).barRefused (y.num 1 2) = false → becomes fun d =>
                 (after d).applyRelease (y.num 1 2 - 61440) (y.num 3 2) (Status.ofCode (y.num 5 1)) (y.num 6 8)) ∧
               (fresh → x.ch = 2 → y.num 0 1 = 0x20 → (after d).partOfSync (y.num 1 2) = some q → (after d).barRefused (y.num 1 2) = false → (after d).isHome (y.num 1 2 - 61440) = true →
                 becomes fun d => (after d).homeArrival (y.num 1 2 - 61440) y.src (y.num 3 2) ((y.num 5 1).testBit 0) false) ∧
               (plain → d.ctx n .limit < d.landEnd n y → becomes (·.sendNak y a.sender .formatFault)) ∧
               (plain → d.landEnd n y ≤ d.ctx n .limit → (d.reachFrom none (some q) land y.payload.length).1 = .ok → s.Inv → s.mem.bad = [] →
                 s.mem.soft = [] → y.payload.length ≠ 0 → ∃ m : Mem, exec (.packetReceive a sig) s = .next { s with mem := m, dev := after d } ∧
                   (∀ i < y.payload.length, m.byte (Region.target land + i) = (y.payload[Region.seen land i - Region.target land]?).getD 0) ∧
                   ∀ b, b < Region.target land ∨ Region.target land + y.payload.length ≤ b → m.byte b = s.mem.byte b))))) ∧
       (d.fabId ≠ 0xFFFF → a.packetOk = true → x.dst ≠ d.fabId → x.dst ≠ 0xFFFF → x.slice ≠ 0 → d.sliceHolder x.slice = some (p, k) →
         (d.routeOf p x.dst = none → becomes (·.sendNak x a.sender .sliceDenied)) ∧
         ∀ r, d.routeOf p x.dst = some r →
           let table := d.plyEntry p 4 fun e => bits (e.headD 0) 32 16 = x.dst && bits (e.headD 0) 48 3 = x.ch && decide (x.off < bits ((e[1]?).getD 0) 10 32)
           let combines : Prop := x.ply = true ∧ x.last = false ∧ x.retx = false ∧ k.live = true
           (d.isSet F.FAB_RT_DIRECT_EN r = false → becomes (·.sendNak x a.sender .sliceDenied)) ∧
           (d.isSet F.FAB_RT_DIRECT_EN r = true → (¬ combines ∨ table = none) → Gives (.packetReceive a sig) s fun d' => d' = d.forward p x.dst x.dst x ∧ d'.fab.skeins = d.fab.skeins ∧
             ((∃ f ∈ d'.fab.fwd, f.packet = x ∧ d.ctxIs f.flow 2 = true ∧ d.ctx f.flow .peer = x.dst) ∨ ∃ f ∈ d'.fab.rem, f.packet = some x ∧ f.dst = x.dst ∧ f.who = p ∧ f.direct = true)) ∧
           (∀ e, d.isSet F.FAB_RT_DIRECT_EN r = true → combines → table = some e → x.authentic key = true →
             becomes fun d => { d with fab := { d.fab with holds := d.fab.holds ++ [⟨bits (e.headD 0) 8 3, p, y, d.now⟩] } })) ∧
       (d.fabId ≠ 0xFFFF → a.packetOk = true → x.dst ≠ d.fabId → x.dst ≠ 0xFFFF → (x.slice = 0 ∨ d.sliceHolder x.slice = none) →
         let known := (List.range 64).any fun j => d.isSet F.FAB_TRN_VALID j && d.get F.FAB_TRN_SLICE j = x.slice && d.get F.FAB_TRN_DST j = x.dst
         (known = false → becomes (·.count .FAB_TRN_DROP)) ∧
         (known = true → becomes
           (·.queueRem { id := 0, who := 4, flow := none, dst := x.dst, ch := x.ch, direct := true, packet := some x, stamp := 0 })))) ∧
     (∀ (m : Nat) (z : Packet), z.dst = 0xFFFF → d.ctx m .ring = 1 → z.mcid ≠ 3 →
       let next := d.ringNext p z.mcid
       let d' := d.ringForward p m z
       (next = z.src ∨ next = d.fabId → d' = d) ∧
       (next ≠ z.src → next ≠ d.fabId → d'.fab.flights = d.fab.flights ++ [{ flow := m, peer := next, packet := z, twist := d.planTwist p, path := none }] ∧
         ((∃ f ∈ d'.fab.fwd, f.packet = z) ∨ ∃ f ∈ d'.fab.rem, f.packet = some z ∧ f.dst = next))))

/-- R223, R235, R243, R244, R248, R259: Acknowledgements, the receiver's timers, primes and deadlines. -/
def Obligations.FabricControl : Prop :=
  ∀ (s : State) (n : Fin 4096) (a : Arrival),
    let d := s.dev
    let c := d.countBlocks a
    let u := a.ack
    let v := a.prime
    let mine (f : Flight) : Bool := f.peer = u.src && f.packet.sflow = u.sflow
    d.released 4 →
    (d.delivers a = false → exec (.acknowledgement a) s = .next s ∧ exec (.prime a) s = .next s) ∧
    (d.delivers a = true → a.control 0xAC 142 = false ∨ u.dst ≠ c.fabId ∨ c.fabId = 0xFFFF → Does (.acknowledgement a) s (·.countBlocks a)) ∧
    (d.delivers a = true → a.control 0xAC 142 = true → u.dst = c.fabId → c.fabId ≠ 0xFFFF →
      (u.nak = false → Gives (.acknowledgement a) s fun d' =>
        d'.fab.flights = c.fab.flights.filter (fun f => !(mine f && acked u.cum u.map f.packet.seq)) ∧
          (c.hearsPeer u.sflow u.src = true → d'.ctx u.sflow .baseSeq = d'.oldestSeq u.sflow % 65536)) ∧
      (u.nak = true → u.gap = false → u.status ≠ 0 → c.hearsPeer u.sflow u.src = true → c.ctx u.sflow .status = 0 → Gives (.acknowledgement a) s fun d' =>
        d'.ctx u.sflow .status = (Status.ofCode u.status).code ∧ ∀ f ∈ d'.fab.flights, f.flow ≠ u.sflow)) ∧
    (d.ctxIs n 1 = true → (d.rxOf n).owed = true → Does (.ackTimer n) s fun d => (d.reachTime ((d.rxOf n).owedAt + 1000)).sendAck n) ∧
    (∀ t, d.ctxIs n 1 = true → (d.rxOf n).gapAt = some t → Does (.gapTimer n) s fun d =>
      (d.reachTime (t + 1000 * max 2 (d.ctx n .gap))).sendAck n .ok true true) ∧
    (d.delivers a = true → a.control 0xD1 81 = true → v.dst = c.fabId → c.fabId ≠ 0xFFFF →
      (∀ p, v.answer = false → c.primeHolder v = some p → Does (.prime a) s fun d => (d.countBlocks a).postControl .prime (some p) v.src
        (withCrc 81 (0xD1 + c.fabId % 2 ^ 16 * 2 ^ 8 + v.src * 2 ^ 24 + v.sflow * 2 ^ 40 + v.rflow * 2 ^ 52 + v.slice * 2 ^ 64 + 2 ^ 80))) ∧
      (v.answer = false → c.primeHolder v = none → Does (.prime a) s (·.countBlocks a)) ∧
      (∀ (p : Fin 4) (b : Plan), v.answer = true → (c.bank p).staged = some b → (∀ q < 4, q ≠ p.val → (c.bank q).staged = none) →
        b.ctxs.any (primePair v 0 v.sflow v.rflow) = true →
        Does (.prime a) s fun d => (d.countBlocks a).setBank p { c.bank p with unprimed := (c.bank p).unprimed.filter (· ≠ v.sflow) })) ∧
    (d.ctxIs n 0 = true → d.hasPlan (d.ctx n .part) = true → d.ctx n .status = 0 →
      (d.fab.skeins.any fun x => x.flow = n.val && x.kind ≠ Dev.messageKind && x.failed.isNone && decide ((x.due : Int) < d.planTwist (d.ctx n .part))) = true →
      Does (.flowDeadline n) s fun d => (d.failFlow n .deadlineMissed).showOpen n)

/-- R237 to R240, R242: A skein handed over by a core is accepted and its status comes to RD; one of a Ply engine or of a host's queue is accepted from its record; one that is all
acknowledged, or has failed, completes; the Creel of a lane lets the packet that it picks depart. That a record which the flow engine may not read, or that is misaligned, is not
accepted and only its status comes back, is read from the rules (notes/assumptions/23.md, DEDUCED); the queue number in a tie and the time from which a lane is free are the model's
choice (notes/assumptions/25.md, DESIGN CHOICE). -/
def Obligations.SkeinsAndLanes : Prop :=
  ∀ (s : State) (c : Fin 1024) (h : Hand) (t : List Hand) (p : Nat) (n : Fin 4096) (x : Skein) (addr : Fin 4398046511104),
    let d := s.dev
    let record (a : Nat) : List Nat := (List.range 8).map fun i => leNat (((s.mem.read a 64).drop (8 * i)).take 8)
    let words := record h.addr
    let y := skeinOf words d.fab.nextId p h.addr (.core c)
    d.released 4 →
    ((d.core c).tq = h :: t → (d.core c).unitsDone h.mask h.seq = false → exec (.skeinAccept (.core c) addr) s = .next s) ∧
    ((d.core c).tq = h :: t → (d.core c).unitsDone h.mask h.seq = true → (d.core c).yq = [] → h.addr % 64 = 0 → d.partOfCore c = some p → inBobbin c h.addr 64 = true → d.serves none (some p) h.addr 64 →
      Clean s.mem h.addr 64 → d.skeinStatus p words y = .ok → Gives (.skeinAccept (.core c) addr) s fun d' =>
        d'.fab.skeins = d.fab.skeins ++ [y] ∧ (d'.core c).tq = t.filter (·.seq ≠ h.seq) ∧ h.rd ∉ (d'.core c).pending ∧
          (h.rd ≠ 0 → ((d'.core c).reg h.rd).toNat % 256 = 0) ∧ d'.fab.nextId ≥ d.fab.nextId + 1) ∧
    ((d.core c).tq = h :: t → (d.core c).unitsDone h.mask h.seq = true → (d.core c).yq = [] → d.partOfCore c = some p →
      (d.reachAt (some p) h.addr = .partitionDenied ∨ h.addr % 64 ≠ 0 ∨ inBobbin c h.addr 64 = false) → Gives (.skeinAccept (.core c) addr) s fun d' =>
      d'.fab = d.fab ∧ (d'.core c).tq = t.filter (·.seq ≠ h.seq) ∧
        (h.rd ≠ 0 → ((d'.core c).reg h.rd).toNat % 256 = (if d.reachAt (some p) h.addr = .partitionDenied then Status.partitionDenied else .formatFault).code)) ∧
    ((d.core c).tq = h :: t → (d.core c).unitsDone h.mask h.seq = true → (d.core c).yq = [] → d.partOfCore c = none → Gives (.skeinAccept (.core c) addr) s fun d' =>
      d'.fab = d.fab ∧ (d'.core c).tq = t.filter (·.seq ≠ h.seq) ∧ (h.rd ≠ 0 → ((d'.core c).reg h.rd).toNat % 256 = Status.partitionDenied.code)) ∧
    ((d.core c).tq = h :: t → (d.core c).unitsDone h.mask h.seq = true → (d.core c).yq = [] → h.addr % 64 = 0 → d.partOfCore c = some p → inBobbin c h.addr 64 = true → d.serves none (some p) h.addr 64 →
      Clean s.mem h.addr 64 → d.skeinStatus p words y ≠ .ok → ∃ t' : State, exec (.skeinAccept (.core c) addr) s = .next t' ∧
        t'.dev.fab.skeins = d.fab.skeins.filter (·.id ≠ d.fab.nextId) ∧ (t'.dev.core c).tq = t.filter (·.seq ≠ h.seq) ∧ (h.rd ≠ 0 → ((t'.dev.core c).reg h.rd).toNat % 256 = (d.skeinStatus p words y).code)) ∧
    (∀ e : Fin 8,
      let z (q : Nat) : Skein := skeinOf (record addr) d.fab.nextId q addr (.ply e)
      (∀ q, d.partOfHbm addr = some q → addr.val % 64 = 0 → d.serves none (some q) addr 64 → Clean s.mem addr 64 → d.skeinStatus q (record addr) (z q) = .ok →
        Gives (.skeinAccept (.ply e) addr) s fun d' => d'.fab.skeins = d.fab.skeins ++ [z q] ∧ d'.cores = d.cores) ∧
      (∀ q, d.partOfHbm addr = some q → addr.val % 64 ≠ 0 → Does (.skeinAccept (.ply e) addr) s fun d =>
        { d with fab := { d.fab with finished := d.fab.finished ++ [(.ply e, addr.val, .formatFault, 0)] } }) ∧
      (d.partOfHbm addr = none → Does (.skeinAccept (.ply e) addr) s fun d =>
        { d with fab := { d.fab with finished := d.fab.finished ++ [(.ply e, addr.val, .partitionDenied, 0)] } })) ∧
    (∀ (q : Fin 4) (e : QEntry), d.partOfPort q = some p → ((d.zport q).entries.find? fun e => e.op = 1 && !e.handed && e.done.isNone) = some e →
      d.serves none (some p) e.addr 64 → isView e.addr = false → Clean s.mem e.addr 64 → d.skeinStatus p (record e.addr) (skeinOf (record e.addr) d.fab.nextId p e.addr (.host q)) = .ok →
      Gives (.skeinAccept (.host q) addr) s fun d' => d'.fab.skeins = d.fab.skeins ++ [skeinOf (record e.addr) d.fab.nextId p e.addr (.host q)] ∧ d'.cores = d.cores ∧
        (d'.zport q).entries = (d.zport q).entries.map fun z => if z.id = e.id then { z with handed := true } else z) ∧
    (∀ q : Fin 4, (d.partOfPort q = none ∨ ((d.zport q).entries.find? fun e => e.op = 1 && !e.handed && e.done.isNone) = none) → exec (.skeinAccept (.host q) addr) s = .next s) ∧
    ((d.fab.skeins.find? fun x => x.flow = n.val && x.kind ≠ Dev.messageKind) = some x →
      (∀ st, x.failed = some st → Works (.skeinComplete n) s (·.finishSkein x st)) ∧
      (x.failed = none → Dev.skeinCut x = true → d.fab.flights.any (·.skein = some x.id) = false → Works (.skeinComplete n) s (·.finishSkein x (x.note.getD .ok))) ∧
      (x.failed = none → Dev.skeinCut x = false ∨ d.fab.flights.any (·.skein = some x.id) = true → exec (.skeinComplete n) s = .next s)) ∧
    (∀ (e : Fin 8) (f : Fin 18) (i : Fin 8) (pos : Nat),
      let lane := Dev.laneNo (e, f, i)
      let now := d.fab.slotBase + pos
      let code := d.slotCode e f d.tw.slot
      let d1 := { d with fab := { d.fab with block := max d.fab.block now } }
      let dest := (d1.laneDest d.tw.slot (e.val, f.val, i.val)).getD 0xFFFF
      let pick := Dev.creelPick now d1.laneBias (fun (r : LaneReq) => (r.cls, r.stamp, r.id)) (d1.eligible e f i pos)
      (now < d.laneFrom lane → exec (.laneCreelGrant e f i pos) s = .next s) ∧
      (d.laneFrom lane ≤ now → pick = none → Does (.laneCreelGrant e f i pos) s fun _ => d1) ∧
      (∀ (r : LaneReq) (q : RemReq) (z : Packet), d.laneFrom lane ≤ now → pick = some r → r.what = .rem q → q.packet = some z → z.src ≠ d.fabId →
        Does (.laneCreelGrant e f i pos) s fun _ => { d1 with fab := { d1.fab with rem := d1.fab.rem.filter (·.id ≠ q.id) } }.emitPacket lane z now) ∧
      (∀ (r : LaneReq) (c : CtrlReq), d.laneFrom lane ≤ now → pick = some r → r.what = .ctrl c → Does (.laneCreelGrant e f i pos) s fun _ =>
        { d1 with fab := { d1.fab with ctrl := d1.fab.ctrl.filter (·.id ≠ c.id) } }.sendControl c.kind lane now c.unit) ∧
      (∀ (r : LaneReq) (q : FwdReq) (k : Nat), d.laneFrom lane ≤ now → pick = some r → r.what = .fwd q k → q.packet.src ≠ d.fabId →
        Does (.laneCreelGrant e f i pos) s fun _ => (({ d1 with fab := { d1.fab with fwd := d1.fab.fwd.filter (·.id ≠ q.id) } } : Dev).spend k r.units).emitPacket lane q.packet now) ∧
      (∀ (r : LaneReq) (m k : Nat) (w : Work) (z : Packet), d.laneFrom lane ≤ now → pick = some r → r.what = .head m k →
        Work.cutPacket ⟨s.mem, [], d1.spend k r.units, false⟩ m = (w, some z) → w.held = false → exec (.laneCreelGrant e f i pos) s = .next { s with
          mem := s.mem.applyAll w.log.reverse
          dev := (({ w.dev with fab := { w.dev.fab with rem := w.dev.fab.rem.filter fun q => q.flow ≠ some m || q.packet.isSome } }.depart
            code lane now dest (if d1.ctx m .peer = 0xFFFF then dest else d1.ctx m .peer) z (some m)).clearHead m).queueHead m }))

/-- R218, R219, R230, R231, R241, R248 to R251, R268: Writes to the fabric's tables by the management processor or the owner port. A transit entry, valid or not, names neither this
part nor the tag of a local plan or key. That a transit entry may be written while it is in use is the model's choice (notes/assumptions/14.md, DESIGN CHOICE). The life of a plan
of a partition. ARM answers FORMAT_FAULT in another state than READY; a prepare whose plan needs a ring that has failed ends with NOT_LOCKED at that permutation. -/
def Obligations.FabricTablesAndPlans : Prop :=
  (∀ (s : State) (r : Requester) (v : Word) (k : Fin 1152) (g : Fin 576) (j : Fin 64),
     let d := s.dev
     let code (x : Word) (i : Nat) : Nat := bits x.toNat (4 * i) 4
     let free : Prop := ∀ i < 16, code (d.word .FAB_FSLOT g) i ≠ code v i → code (d.word .FAB_FSLOT g) i < 4 → d.planActiveOrStaged (code (d.word .FAB_FSLOT g) i) = false
     d.released 4 →
     (Dev.whole r = true →
       (d.planBeyondLoading = false → Does (.fabPmapWrite r k v) s fun d => (d.setWord .FAB_PMAP k (BitVec.ofNat 64 (v.toNat % 2 ^ 50))).answer .ok) ∧
       (d.planBeyondLoading = true → Does (.fabPmapWrite r k v) s (·.answer .writeRefused)) ∧
       (free → (∀ i < 16, code v i ≤ 4 ∨ code v i = 15) →
         (∀ i < 16, ((List.range 18).filter fun f => (d.setWord .FAB_FSLOT g v).slotCode (g / 4 / 18) f (16 * (g % 4) + i) ≠ 15).length ≤ 16) →
         Does (.fabFslotWrite r g v) s fun d => (d.setWord .FAB_FSLOT g v).answer .ok) ∧
       (¬ free → Does (.fabFslotWrite r g v) s (·.answer .writeRefused)) ∧
       (free → (∃ i < 16, 5 ≤ code v i ∧ code v i ≤ 14) → Does (.fabFslotWrite r g v) s (·.answer .formatFault)) ∧
       (free → (∃ i < 16, 16 < ((List.range 18).filter fun f => (d.setWord .FAB_FSLOT g v).slotCode (g / 4 / 18) f (16 * (g % 4) + i) ≠ 15).length) →
         Does (.fabFslotWrite r g v) s (·.answer .formatFault)) ∧
       (bits v.toNat 17 16 ≠ d.fabId → (∀ p < 4, d.holdsTag p (bits v.toNat 1 16) = false) → Does (.fabTrnWrite r j v) s fun d =>
         (d.setWord .FAB_TRN j (BitVec.ofNat 64 (v.toNat % 2 ^ 33))).answer .ok) ∧
       (bits v.toNat 17 16 = d.fabId ∨ (∃ p < 4, d.holdsTag p (bits v.toNat 1 16) = true) → Does (.fabTrnWrite r j v) s (·.answer .formatFault)) ∧
       Gives (.laneCreelCommit r) s (fun d' => d'.regs = d.regs ∧ d'.reply = (.ok, []) ∧ ∀ c < 8, d'.fab.bias.get 0 c = d.get F.CREEL_BIAS_FAB_BIAS c)) ∧
     (Dev.whole r = false → d.revoked r = false → Does (.fabPmapWrite r k v) s (·.answer .partitionDenied) ∧ Does (.fabFslotWrite r g v) s (·.answer .partitionDenied) ∧
       Does (.fabTrnWrite r j v) s (·.answer .partitionDenied) ∧ Does (.laneCreelCommit r) s (·.answer .partitionDenied))) ∧
  (∀ (s : State) (r : Requester) (p : Fin 4) (bar : Fin 4096) (a : Plan),
     let d := s.dev
     let staged := d.get F.FAB_PLAN_STAT_STAGED p
     let src := d.get F.FAB_PLAN_SRC_ADDR p
     let size := max 64 (leNat (((s.mem.read src 64).drop 16).take 4))
     let readable (n : Nat) : Prop := d.inRange p src n = true ∧ d.serves none (some p.val) src n ∧ Clean s.mem src n
     d.released 4 →
     (ownPart r p = true → d.revoked r = false →
       (staged = 0 → (d.fab.keys.get {} p).live = true → Gives (.planPrepare r p) s fun d' =>
         d'.get F.FAB_PLAN_STAT_STAGED p = 1 ∧ d'.reply = (.ok, []) ∧ d'.bank p = d.bank p) ∧
       (staged ≠ 0 → Does (.planPrepare r p) s (·.answer .formatFault)) ∧
       (staged = 3 → d.partOfSync (61440 + bar) = some p.val → d.isSet F.SYNC_BAR_ENABLE bar = true → Gives (.planArm r p bar) s fun d' =>
         d'.get F.FAB_PLAN_STAT_STAGED p = 4 ∧ d'.get F.FAB_PLAN_CTL_BAR p = bar ∧ (d'.bank p).staged = (d.bank p).staged ∧ d'.reply = (.ok, [])) ∧
       (staged ≠ 3 ∨ d.partOfSync (61440 + bar) ≠ some p.val ∨ d.isSet F.SYNC_BAR_ENABLE bar = false → Does (.planArm r p bar) s (·.answer .formatFault)) ∧
       (staged = 4 → Does (.planDiscard r p) s (·.answer .formatFault)) ∧
       (d.hasPlan p = true → Gives (.planStop r p) s fun d' => (d'.bank p).stopping = true ∧ (d'.bank p).active = (d.bank p).active ∧ d'.reply = (.ok, [])) ∧
       (staged ≠ 4 → Gives (.planDiscard r p) s fun d' => d'.get F.FAB_PLAN_STAT_STAGED p = 0 ∧ (d'.bank p).staged = none ∧ d'.reply = (.ok, []))) ∧
     (ownPart r p = false → d.revoked r = false → Does (.planPrepare r p) s (·.answer .partitionDenied) ∧ Does (.planArm r p bar) s (·.answer .partitionDenied) ∧
       Does (.planStop r p) s (·.answer .partitionDenied) ∧ Does (.planDiscard r p) s (·.answer .partitionDenied)) ∧
     (staged = 1 → src % 64 = 0 → readable 64 → readable size →
       (d.checkImage p (s.mem.read src size) = .ok a → d.unlockable a = none → Gives (.planLoadComplete p) s fun d' =>
         d'.get F.FAB_PLAN_STAT_STAGED p = 2 ∧ d'.get F.FAB_PLAN_STAT_STATUS p = 0 ∧ (d'.bank p).staged = some a ∧ (d'.bank p).active = (d.bank p).active) ∧
       (∀ k, d.checkImage p (s.mem.read src size) = .ok a → d.unlockable a = some k → Gives (.planLoadComplete p) s fun d' =>
         let place := a.places.get (0xF, 0xFFFFFF) k
         d'.get F.FAB_PLAN_STAT_STAGED p = 0 ∧ d'.get F.FAB_PLAN_STAT_STATUS p = Status.notLocked.code ∧ d'.get F.FAB_PLAN_STAT_SECTION p = place.1 % 16 ∧
           d'.get F.FAB_PLAN_STAT_ENTRY p = place.2 % 2 ^ 24 ∧ (d'.bank p).staged = none ∧ (d'.bank p).active = (d.bank p).active) ∧
       (∀ x, d.checkImage p (s.mem.read src size) = .error x → Gives (.planLoadComplete p) s fun d' =>
         d'.get F.FAB_PLAN_STAT_STAGED p = 0 ∧ d'.get F.FAB_PLAN_STAT_STATUS p = Status.formatFault.code ∧ d'.get F.FAB_PLAN_STAT_SECTION p = min x.1 15 ∧
           d'.get F.FAB_PLAN_STAT_ENTRY p = x.2 % 2 ^ 24 ∧ (d'.bank p).staged = none)) ∧
     ((d.bank p).staged = some a → staged = 2 → (d.bank p).unprimed = [] → ((Dev.planRings a).all fun x => d.ringState x.1 x.2 = 4) = true →
       Does (.planReady p) s fun d => d.put F.FAB_PLAN_STAT_STAGED p 3) ∧
     ((d.bank p).staged = some a → staged = 4 → (d.bank p).arrived = false → d.fab.skeins = [] → d.fab.flights = [] → Does (.planSwitchArrival p) s fun d =>
       (d.setBank p { d.bank p with arrived := true }).postSignal (.arrive (61440 + d.get F.FAB_PLAN_CTL_BAR p) p (.plan p))))

/-- R263, R264, R266, R267: The lock states of a ring (0 OFF, 1 SEEK, 2 CAPTURE, 3 VERIFY, 4 LOCKED, 5 HOLD, 7 FAILED), one clause for each event in the state that awaits it. No
other ring of the part changes its state. That the third failed window still leads to CAPTURE, and the next one to SEEK, is read from the rules (notes/assumptions/73.md, DEDUCED).
-/
def Obligations.RingLocking : Prop :=
  ∀ (s : State) (e : Fin 8) (m : Fin 2304) (feed : Fin 3) (bias : BitVec 16) (dark : Bool) (pilots : List Int) (line : Nat),
    let d := s.dev
    let i := 2304 * e.val + m.val
    let st := d.ringState e m
    let x := d.ringLoop e m
    let goesTo (c : Instr) (n : Nat) (p : Dev → Prop) : Prop := Gives c s fun d' => d'.ringState e m = n ∧
      (∀ (f : Fin 8) (j : Fin 2304), (f, j) ≠ (e, m) → d'.ringState f j = d.ringState f j) ∧ p d'
    let heater (d' : Dev) : Prop := d'.get F.LANE_RING_BIAS i = bias.toNat
    d.released 4 →
    (st = 0 → d.mayFeed e m feed = true → d.biasValid e m = false → goesTo (.ringLockRequest e m feed) 1 fun d' => (d'.ringLoop e m).fed = feed.val) ∧
    (st = 0 → d.mayFeed e m feed = true → d.biasValid e m = true → goesTo (.ringLockRequest e m feed) 2 fun d' =>
      d'.get F.LANE_RING_BIAS i = d.startBias e m feed) ∧
    (st = 1 → goesTo (.seekSweepEnd e m true bias) 2 heater) ∧
    (st = 1 → x.sweeps < 3 → goesTo (.seekSweepEnd e m false bias) 1 fun d' => (d'.ringLoop e m).sweeps = x.sweeps + 1) ∧
    (st = 1 → 3 ≤ x.sweeps → goesTo (.seekSweepEnd e m false bias) 7 fun d' => d'.get F.LANE_RING_BIAS i = 0) ∧
    (st = 2 → goesTo (.captureSettled e m bias) 3 heater) ∧
    (st = 2 → goesTo (.captureTimeout e m) 1 fun _ => True) ∧
    (2 ≤ st → st ≤ 4 → goesTo (.ringDark e m) 5 fun _ => True) ∧
    (st = 5 → d.mayFeed e m feed = true → 1152 ≤ m.val ∨ x.fed = feed.val → goesTo (.ringLightReturn e m feed) 3 fun _ => True) ∧
    (st = 5 → d.mayFeed e m feed = true → m.val < 1152 → x.fed ≠ feed.val → goesTo (.ringLightReturn e m feed) 2 fun d' =>
      d'.get F.LANE_RING_BIAS i = d.startBias e m feed) ∧
    (d.expectedLine e m = some line →
      (st = 3 → x.passes = 1 → Dev.windowClass dark pilots line = (0, line) → goesTo (.pilotWindow e m dark pilots) 4 fun d' =>
        d'.get F.LANE_RING_FOUND i = line) ∧
      (st = 3 → x.passes = 0 → x.windows < 4 → Dev.windowClass dark pilots line = (0, line) → goesTo (.pilotWindow e m dark pilots) 3 fun d' =>
        (d'.ringLoop e m).passes = 1) ∧
      (st = 4 → Dev.windowClass dark pilots line = (0, line) → goesTo (.pilotWindow e m dark pilots) 4 fun d' => (d'.ringLoop e m).weak = 0) ∧
      (∀ found, st = 3 ∨ st = 4 → x.steps < 3 → Dev.windowClass dark pilots line = (1, found) → goesTo (.pilotWindow e m dark pilots) 2 fun d' =>
        d'.isSet F.LANE_RING_MISLOCK i = true ∧ d'.get F.LANE_RING_FOUND i = found) ∧
      (st = 4 → x.weak = 2 → Dev.windowClass dark pilots line = (2, 0) → goesTo (.pilotWindow e m dark pilots) 3 fun _ => True) ∧
      (st = 3 ∨ st = 4 → Dev.windowClass dark pilots line = (3, 0) → goesTo (.pilotWindow e m dark pilots) 5 fun _ => True)) ∧
    (d.expectedLine e m = none → exec (.pilotWindow e m dark pilots) s = .next s)

/-- R222, R258, R261, R268, R276: The commands of the lanes and the blocks of a receive lane; while no line waits at the monitor, nothing else happens at a margin run's end. That
LANE_CTL with a ring above 2,303 answers FORMAT_FAULT is read from the range that its map gives (notes/assumptions/73.md, DEDUCED). -/
def Obligations.LaneCommands : Prop :=
  ∀ (s : State) (r : Requester) (e : Fin 8) (m : Fin 4096) (f : Fin 18) (b : Fin 24) (v : Word) (low high : Fin 32) (k : Fin 144),
    let d := s.dev
    let lane := bits v.toNat 0 8
    let limit := if d.light.margin.get 0 e / 256 = 1 then 8 else 10
    d.released 4 →
    (Dev.whole r = true →
      (m.val ≤ 2303 → Gives (.laneRetry r e m) s fun d' => d'.get F.LANE_CTL_RING e = m ∧ d'.reply = (.ok, []) ∧
        d'.ringState e m = (if d.ringState e m = 7 then 1 else d.ringState e m)) ∧
      (2303 < m.val → Does (.laneRetry r e m) s (·.answer .formatFault)) ∧
      (d.planBeyondLoading = false → isPerm v.toNat = true → Does (.laneRxpermWrite r e f v) s fun d =>
        (d.setWord .LANE_RXPERM (18 * e + f) (BitVec.ofNat 64 (v.toNat % 2 ^ 24))).answer .ok) ∧
      (d.planBeyondLoading = false → isPerm v.toNat = false → Does (.laneRxpermWrite r e f v) s (·.answer .formatFault)) ∧
      (lane ≤ 143 → d.isSet F.LANE_MRG_CTL_BUSY e = false → bits v.toNat 12 8 ≠ 0 → d.ringState e (d.boundRing e lane) = 4 →
        d.isSet F.LANE_STAT_ACTIVE (288 * e + 144 + lane) = true → Gives (.laneMarginStart r e v) s fun d' =>
          d'.isSet F.LANE_MRG_CTL_BUSY e = true ∧ d'.isSet F.LANE_MRG_CTL_DONE e = false ∧ d'.get F.LANE_MRG_CTL_LANE e = lane ∧
            d'.get F.LANE_MRG_CTL_DWELL e = bits v.toNat 12 8 ∧ d'.reply = (.ok, [])) ∧
      (d.isSet F.OPT_DSTAT_BASE_OK (3 * e + b / 8) = false → Gives (.optBaselineWrite r e b v) s fun d' =>
        d'.word .OPT_BASELINE (24 * e + b) = BitVec.ofNat 64 (v.toNat % 2 ^ 17) ∧ d'.reply = (.ok, []) ∧
          (d'.isSet F.OPT_DSTAT_BASE_OK (3 * e + b / 8) = true ↔ ∀ l < 8, d'.isSet F.OPT_BASELINE_VALID (24 * e + b / 8 * 8 + l) = true)) ∧
      (d.isSet F.OPT_DSTAT_BASE_OK (3 * e + b / 8) = true → Does (.optBaselineWrite r e b v) s (·.answer .writeRefused))) ∧
    (d.isSet F.LANE_MRG_CTL_BUSY e = true → d.mon.rx = [] → Gives (.laneMarginEnd e low high) s fun d' =>
      d'.isSet F.LANE_MRG_CTL_BUSY e = false ∧ d'.isSet F.LANE_MRG_CTL_DONE e = true ∧ d'.get F.LANE_MRG_CTL_STATUS e = 0 ∧
        d'.get F.LANE_MRG_RES_LOW e = low ∧ d'.get F.LANE_MRG_RES_HIGH e = high ∧
          d'.get F.LANE_MRG_RES_PASS e = flag (decide (limit ≤ low.val) && decide (limit ≤ high.val))) ∧
    Does (.blockAlignmentTaken (.light e k)) s (·.put F.LANE_STAT_ACTIVE (288 * e + 144 + k) 1) ∧
    Does (.blockAlignmentLoss (.light e k)) s (·.put F.LANE_STAT_ACTIVE (288 * e + 144 + k) 0)

/-- R260 to R262, R269 to R273: The distaffs and the switch to the spare. In FREE and UNALIGNED a planned switch runs at once. That REFUSE 2 also stands for a spare that is DARK or
WARMING and for a group out of service is read from the rules (notes/assumptions/73.md, DEDUCED). -/
def Obligations.LaserSwitching : Prop :=
  ∀ (s : State) (r : Requester) (e : Fin 8) (g : Fin 2) (k : Fin 3) (powers second : List Int),
    let d := s.dev
    let sw := d.get F.OPT_SW_STAT_STATE e
    let spare := d.get F.OPT_DSTAT_STATE (3 * e + 2)
    let fade := signed 16 (d.get F.OPT_DSTAT_FADE (3 * e + 2))
    let x := d.distaffOf (3 * e + k)
    let past (l : List Int) : Prop := ∃ y, Dev.worstFade (d.fades e k l) = some y ∧ y.2 ≤ -300
    let out := (d.swOf e).out.contains g.val
    d.released 4 →
    (Dev.whole r = true →
      (sw = 0 → spare = 2 → out = false → -150 < fade → d.align = 2 ∨ d.align = 3 → Gives (.optSwPlan r e g) s fun d' =>
        d'.get F.OPT_SW_STAT_STATE e = 1 ∧ d'.get F.OPT_SW_STAT_GROUP e = g ∧ d'.isSet F.OPT_SW_STAT_FORCED e = false ∧ d'.reply = (.ok, []) ∧
          d'.word .OPT_SW_AT e = BitVec.ofNat 64 (d.get F.TWIST_CNT_CNT + d.get F.OPT_CFG_LEAD e)) ∧
      (sw = 0 → spare = 2 → out = false → -150 < fade → d.align = 0 ∨ d.align = 4 → Gives (.optSwPlan r e g) s fun d' =>
        d'.get F.OPT_SW_STAT_STATE e = 2 ∧ d'.get F.OPT_SW_STAT_GROUP e = g ∧ d'.isSet F.OPT_SW_STAT_FORCED e = false ∧ d'.reply = (.ok, []) ∧
          ∀ n ∈ Dev.groupLanes g, d'.isSet F.LANE_STAT_EXCLUDED (288 * e + n) = true) ∧
      (sw ≠ 0 → Gives (.optSwPlan r e g) s fun d' => d'.reply = (.formatFault, []) ∧ d'.get F.OPT_SW_STAT_REFUSE e = 1 ∧ d'.get F.OPT_SW_STAT_STATE e = sw) ∧
      (sw = 0 → spare ≠ 2 ∨ out = true → Gives (.optSwPlan r e g) s fun d' => d'.reply = (.formatFault, []) ∧ d'.get F.OPT_SW_STAT_REFUSE e = 2) ∧
      (sw = 0 → spare = 2 → out = false → fade ≤ -150 → Gives (.optSwPlan r e g) s fun d' => d'.reply = (.formatFault, []) ∧ d'.get F.OPT_SW_STAT_REFUSE e = 3) ∧
      (sw = 0 → spare = 2 → out = false → -300 < fade → Gives (.optSwForce r e g) s fun d' =>
        d'.get F.OPT_SW_STAT_STATE e = 2 ∧ d'.get F.OPT_SW_STAT_GROUP e = g ∧ d'.isSet F.OPT_SW_STAT_FORCED e = true ∧ d'.reply = (.ok, []) ∧
          ∀ n ∈ Dev.groupLanes g, d'.isSet F.LANE_STAT_EXCLUDED (288 * e + n) = true)) ∧
    (sw = 2 → (d.swOf e).turned = false → Gives (.switchTurnDone e) s fun d' =>
      d'.get F.OPT_DSTAT_STATE (3 * e + 2) = 3 ∧ d'.get F.OPT_DSTAT_SERVES (3 * e + 2) = d.get F.OPT_SW_STAT_GROUP e ∧
        d'.get F.OPT_DSTAT_STATE (3 * e + d.get F.OPT_SW_STAT_GROUP e) = 4 ∧ (d'.swOf e).turned = true ∧ 3 ≤ d'.get F.OPT_SW_STAT_STATE e) ∧
    (d.get F.OPT_DSTAT_STATE (3 * e + k) = 1 → Gives (.distaffWarmDone e k) s fun d' => d'.get F.OPT_DSTAT_STATE (3 * e + k) = 2) ∧
    (d.distaffLit (3 * e + k) = true → Gives (.distaffPowerReading e k powers) s fun d' =>
      (∀ l < 8, d'.isSet F.OPT_POWER_VALID (24 * e + 8 * k + l) = true ∧ d'.get F.OPT_POWER_POWER (24 * e + 8 * k + l) = field 16 ((powers[l]?).getD 0)) ∧
        ∀ y, (∀ z ∈ d.fades e k powers, -32768 ≤ z.2 ∧ z.2 < 32768) → Dev.worstFade (d.fades e k powers) = some y → d'.get F.OPT_DSTAT_WORST (3 * e + k) = y.1 ∧ d'.get F.OPT_DSTAT_FADE (3 * e + k) = field 16 y.2) ∧
    (d.distaffLit (3 * e + k) = true → x.forced = false → past powers → past second → d.get F.OPT_DSTAT_STATE (3 * e + k) ≠ 3 →
      Gives (.distaffForceReading e k powers second) s fun d' => d'.isSet F.OPT_DSTAT_FORCED (3 * e + k) = true ∧ d'.get F.OPT_SW_STAT_STATE e = sw) ∧
    (d.distaffLit (3 * e + k) = true → ¬ past powers ∨ ¬ past second → exec (.distaffForceReading e k powers second) s = .next s)

/-- R283, R286 to R289, R293, R294: Binding tiles, accumulating received blocks, converting gradients and adding a part's own. A conversion or a contribution that a margin run
holds back waits (R176; log entry 33, DEDUCED). Adding a block adds each of its 64 values, once, to the accumulators of its bound tile, and counts the contributors; every other
bin, of another tile, layer, part or version, stays as it was, and nothing else changes. Packets held for combining are combined when as many as N are there; at the end of the hold
they are combined, or a single one goes on unchanged; the timebase is then at the end of the hold (log entry 8, DESIGN CHOICE). -/
def Obligations.PlyAccumulation : Prop :=
  (∀ (s : State) (e : Fin 8) (p : Fin 4) (n : Fin 4096) (x : List Nat) (t : Nat) (q : Nat × Nat × Packet) (rest : List (Nat × Nat × Packet)) (r : List Nat)
     (k : Skein) (entry : List Nat),
     let d := s.dev
     let i := 4 * e.val + p.val
     let seq := d.tileSeq e p
     let cmb := decide (ent r 0 11 1 = 1)
     let keys := plyKeys q.2.2 q.2.1 cmb
     let sz := if ent entry 0 11 1 = 1 then 128 else 256
     let opened : Work := ⟨s.mem, [], d.openStep k.part, false⟩
     d.released 7 →
     (d.plyServes e p = true → (d.ply.bins.filter (·.e = e.val)).length < 64 → d.oldTiles e p = [] → seq[d.ply.cursor.get 0 i % seq.length]? = some (x, t) →
       d.binOf p (ent x 0 32 16) false t = none → Gives (.tileBind e p) s fun d' =>
         d'.ply.bins = d.ply.bins ++ [{ e, part := p, layer := ent x 0 32 16, tile := t }] ∧ d'.ply.cursor.get 0 i = d.ply.cursor.get 0 i + 1 ∧ d'.regs = d.regs) ∧
     (d.plyServes e p = true → d.fab.plyIn = q :: rest → q.1 = e.val → d.ctx q.2.1 .part = p.val → d.plyReceive q.2.1 = some r → ent r 0 12 1 = 0 →
       d.addable p (ent r 0 32 16) (d.oldEpoch q.2.1 q.2.2) keys q.2.2.off (q.2.2.nblk cmb) = true → Does (.plyAccumulate e p) s fun d =>
         (List.range (q.2.2.nblk cmb)).foldl (fun (d : Dev) b => d.addBlock p (ent r 0 32 16) (s.dev.oldEpoch q.2.1 q.2.2) keys (q.2.2.off + b) (plyValue q.2.2 cmb b))
           ({ d with fab := { d.fab with plyIn := rest } }.openStep p)) ∧
     (d.plySkein n = some k → d.plySend n = some entry → d.plyServes k.pe k.part = true →
       (∀ (w : Work) (l : List Packet), d.ctx n .peer ≠ d.fabId → (ent entry 0 12 1 = 1 → d.isSet F.PLY_STEP_PENDING k.part = false) →
         opened.convertPackets k.pe entry k (k.bytes / sz) (k.bytes / sz) 0 [] = (w, .ok, l) → w.held = false → exec (.plyConvert n) s = .next { s with
           mem := s.mem.applyAll w.log.reverse
           dev := (w.dev.modSkein k.id fun y => { y with ready := l, cut := y.bytes }).queueHead n }) ∧
       (∀ (w : Work) (b : Nat), d.ctx n .peer = d.fabId → Work.selfBlocks entry k n (k.bytes / sz - k.cut / sz) (k.cut / sz) opened = (w, .ok, b) → b < k.bytes / sz → w.held = false →
         exec (.plySelfContribution n) s = .next { s with
           mem := s.mem.applyAll w.log.reverse, dev := w.dev.modSkein k.id fun y => { y with cut := b * sz } }) ∧
       (∀ (w : Work) (b : Nat), d.ctx n .peer = d.fabId → Work.selfBlocks entry k n (k.bytes / sz - k.cut / sz) (k.cut / sz) opened = (w, .ok, b) → k.bytes / sz ≤ b → w.held = false →
         let w' := w.finishSkein { k with acked := k.bytes } .ok
         exec (.plySelfContribution n) s = .next { s with mem := s.mem.applyAll w'.log.reverse, dev := w'.dev }))) ∧
  (∀ (d : Dev) (p layer : Nat) (old : Bool) (keys : List Nat) (block : Nat) (v : Nat → FV),
     let d' := d.addBlock p layer old keys block v
     d' = { d with ply := { d.ply with bins := d'.ply.bins } } ∧ d'.ply.bins.length = d.ply.bins.length ∧ ∀ (k : Nat) (b : Bin), d.ply.bins[k]? = some b →
       (b.part = p ∧ b.layer = layer ∧ b.old = old ∧ b.tile = block / 1024 → ∃ b', d'.ply.bins[k]? = some b' ∧
         (b'.e, b'.part, b'.layer, b'.old, b'.tile) = (b.e, b.part, b.layer, b.old, b.tile) ∧ b'.added = (keys.map fun k => (k, block)) ++ b.added ∧
           (∀ j < 64, b'.acc.get 0 (block % 1024 * 64 + j) = f32 (FV.add (un32 (b.acc.get 0 (block % 1024 * 64 + j))) (v j))) ∧
           ∀ i, i < block % 1024 * 64 ∨ block % 1024 * 64 + 64 ≤ i → b'.acc.get 0 i = b.acc.get 0 i) ∧
       (¬ (b.part = p ∧ b.layer = layer ∧ b.old = old ∧ b.tile = block / 1024) → d'.ply.bins[k]? = some b)) ∧
  (∀ (s : State) (e : Fin 8) (p : Fin 4) (h : Held) (rest : List Held) (en : List Nat),
     let d := s.dev
     let l := (d.holdGroup h).take (ent en 0 11 5)
     let late (d : Dev) : Dev := { d with now := max d.now (h.since + ent en 1 0 10) }
     d.released 7 → h.engine = e.val → h.part = p.val → d.combineEntry p h.packet = some en →
     (d.fab.holds = h :: rest → d.combineReady e p en = true → ent en 0 11 5 ≤ (d.holdGroup h).length → Works (.plyCombine e p) s (·.combine en l)) ∧
     (d.firstHold e p = some h → 2 ≤ l.length → d.combineReady e p en = true → Works (.combineHoldExpiry e p) s fun w => (w.on late).combine en l) ∧
     (d.firstHold e p = some h → l.length < 2 ∨ d.combineReady e p en = false → Does (.combineHoldExpiry e p) s fun d =>
       { late d with fab := { d.fab with holds := d.fab.holds.filter (· ≠ h) } }.forward p h.packet.dst h.packet.dst h.packet))

/-- R290, R299, R303 to R309, R311, R312: A complete tile that finishes with the step flag clear and finite reduced gradients updates its layer. Under rules 0 and 1 each element of
version WV follows from version VER and the gradient, every operation rounded to FP32, the moments narrowed to BF16 with the element's draws; nothing else of memory changes. Under
rules 2 and 3 pass 1 spills the gradient and adds w0² and d² to the layer's norms in ascending order, and after the last tile the norms go to the group. A tile that finishes with
the step flag set only frees its bin; the second pass of a layer forms w, m and v of version WV again from version VER and the spilled gradient, under TRUST's one ratio or SKETCH's
matrix P, writes the undamped M under SKETCH, and nothing outside the version; a finished layer has its digest beside it. A retained accumulator keeps the step flag of its step
(log entry 72, DEDUCED). -/
def Obligations.PlyLayerFinish : Prop :=
  (∀ (s : State) (e : Fin 8) (p : Fin 4) (layer : Fin 65536) (old : Bool) (x : List Nat) (b : Bin),
     let d := s.dev
     let run := d.runOf p layer old
     let t := run.finished
     let rule := ent x 0 11 2
     let ver := d.get F.PLY_STEP_VER p
     let base (v : Nat) : Nat := if v = 0 then ent x 1 0 48 else ent x 2 0 48
     let spill := ent x 4 0 48
     let records := ent x 3 0 32 / 64
     let sz := recordSize rule
     let n := tileElems x t
     let ok (a n : Nat) : Prop := d.serves none (some p.val) a n ∧ a + n ≤ hbmTop
     let apart (a m b n : Nat) : Prop := a + m ≤ b ∨ b + n ≤ a
     let el (i : Nat) := s.mem.element rule (base ver) i
     let (w0, m0, v0) : (Nat → Nat) × (Nat → Nat) × (Nat → Nat) := (fun i => (el i).1, fun i => (el i).2.1, fun i => (el i).2.2)
     let g (i : Nat) : Nat := fMul (f32 ((un32 (b.acc.get 0 (i - 65536 * t))).scale (-d.lsExp p))) (ent x 3 32 32)
     let lr := fMul (d.spbField p 1 0 32) (ent x 7 0 32)
     let (b1, b2, bc1, bc2, eps) := (d.spbField p 3 32 32, d.spbField p 4 0 32, d.spbField p 2 0 32, d.spbField p 2 32 32, d.spbField p 4 32 32)
     let decay (u w : Nat) : Nat := if ent x 0 13 1 = 1 then fAdd u (fMul (d.spbField p 1 32 32) w) else u
     let m1 (i : Nat) : Nat := fAdd (fMul b1 (m0 i)) (g i)
     let m2 (i : Nat) : Nat := fAdd (fMul b1 (m0 i)) (fMul (fSub one32 b1) (g i))
     let v2 (i : Nat) : Nat := fAdd (fMul b2 (v0 i)) (fMul (fSub one32 b2) (fMul (g i) (g i)))
     let d2 (i : Nat) : Nat := decay (fDiv (fMul (m2 i) bc1) (fAdd (fSqrt (fMul (v2 i) bc2)) eps)) (w0 i)
     let draw (i : Nat) : Nat × Nat := momentDraws (d.word .PLY_SEED p).toNat (d.spbField p 0 0 48) layer i
     let mine (i : Nat) : Prop := 65536 * t ≤ i ∧ i < 65536 * t + n
     let square (c : Nat) : Nat := f64 (FV.mul (un32 c) (un32 c))
     let norms (f : Nat → Nat) (q : Nat) : Nat := (List.range n).foldl (fun a i => dAdd a (square (f (65536 * t + i)))) q
     let writes (m : Mem) (w mm vv : Nat → Nat) : Prop :=
       (∀ i, mine i → m.holds rule (base (1 - ver)) i (w i) (narrowMoment (draw i).1 (mm i)) (narrowMoment (draw i).2 (vv i))) ∧
         ∀ a, a < base (1 - ver) + 1024 * t * sz ∨ base (1 - ver) + (1024 * t + n / 64) * sz ≤ a → m.byte a = s.mem.byte a
     let finishes (d' : Dev) : Prop := (d'.runOf p layer old).finished = t + 1 ∧ d'.binOf p layer old t = none ∧ d'.isSet F.PLY_STEP_OVF p = false
     d.released 7 → d.layerOf p layer old = some x → ent x 0 8 3 = e → d.plyServes e p = true → s.Inv → s.mem.bad = [] → s.mem.soft = [] → ent x 3 0 32 % 64 = 0 →
     t < tileCount x → d.binOf p layer old t = some b → run.done = false ∨ old = true → d.isSet F.PLY_STEP_SPB_OK p = true → d.isSet F.PLY_STEP_PENDING p = false →
     d.tileComplete p x b = true → d.isSet F.PLY_STEP_OVF p = false → (∀ i, mine i → (un32 (g i)).nonFinite = false) →
     (∀ v < 2, ∀ j < records, ok (base v + j * sz) sz) → apart (base 0) (records * sz) (base 1) (records * sz) →
       (rule = 0 → ∃ m d', exec (.tileFinish e p layer old) s = .next { s with mem := m, dev := d' } ∧ finishes d' ∧ writes m (fun i => fSub (w0 i) (fMul lr (decay (m1 i) (w0 i)))) m1 m1) ∧
       (rule = 1 → ∃ m d', exec (.tileFinish e p layer old) s = .next { s with mem := m, dev := d' } ∧ finishes d' ∧ writes m (fun i => fSub (w0 i) (fMul lr (d2 i))) m2 v2) ∧
       (2 ≤ rule → (∀ j < records, ok (spill + 256 * j) 256) → apart spill (256 * records) (base ver) (records * sz) → t + 1 < tileCount x →
         ∃ m d', exec (.tileFinish e p layer old) s = .next { s with mem := m, dev := d' } ∧ finishes d' ∧
           (d'.runOf p layer old).nw = norms w0 run.nw ∧ (d'.runOf p layer old).nd = norms d2 run.nd ∧ (∀ i, mine i → m.nat (spill + 4 * i) 4 = g i % 2 ^ 32) ∧
             ∀ a, a < spill + 4 * (65536 * t) ∨ spill + 4 * (65536 * t + n) ≤ a → m.byte a = s.mem.byte a) ∧
       (∀ entry, rule = 2 → (∀ j < records, ok (spill + 256 * j) 256) → apart spill (256 * records) (base ver) (records * sz) → t + 1 = tileCount x →
         d.groupOf p (ent x 4 48 16) = some entry → ent entry 0 32 16 ≠ d.fabId → ∃ m d', exec (.tileFinish e p layer old) s = .next { s with mem := m, dev := d' } ∧ finishes d' ∧
           d'.ply.awaiting = d.ply.awaiting ++ [(p.val, 2, layer.val, d.get F.TWIST_CNT_CNT)] ∧ ∃ k ∈ d'.fab.skeins, ∃ y ∈ k.ready,
             y.payload = (groupPacket (ent entry 0 32 16) 0 2 layer 0 (d.get F.PLY_STEP_CURRENT p) false [norms w0 run.nw, norms d2 run.nd]).payload)) ∧
  (∀ (s : State) (e : Fin 8) (p : Fin 4) (layer : Fin 65536) (old : Bool) (x : List Nat) (b : Bin),
     let d := s.dev
     let run := d.runOf p layer old
     let rule := ent x 0 11 2
     let base (v : Nat) : Nat := if v = 0 then ent x 1 0 48 else ent x 2 0 48
     let sz := recordSize rule
     let elems := ent x 3 0 32
     let k := ent x 0 14 7
     let ver := d.get F.PLY_STEP_VER p
     let ok (a n : Nat) : Prop := d.serves none (some p.val) a n ∧ a + n ≤ hbmTop
     let slot := ent x 5 0 48 + 64 * (1 - ver)
     let el (i : Nat) := s.mem.element rule (base ver) i
     let (w0, m0, v0) : (Nat → Nat) × (Nat → Nat) × (Nat → Nat) := (fun i => (el i).1, fun i => (el i).2.1, fun i => (el i).2.2)
     let g (i : Nat) : Nat := s.mem.nat (ent x 4 0 48 + 4 * i) 4
     let lr := fMul (d.spbField p 1 0 32) (ent x 7 0 32)
     let (b1, b2, bc1, bc2, eps) := (d.spbField p 3 32 32, d.spbField p 4 0 32, d.spbField p 2 0 32, d.spbField p 2 32 32, d.spbField p 4 32 32)
     let decay (u w : Nat) : Nat := if ent x 0 13 1 = 1 then fAdd u (fMul (d.spbField p 1 32 32) w) else u
     let m2 (i : Nat) : Nat := fAdd (fMul b1 (m0 i)) (fMul (fSub one32 b1) (g i))
     let v2 (i : Nat) : Nat := fAdd (fMul b2 (v0 i)) (fMul (fSub one32 b2) (fMul (g i) (g i)))
     let d2 (i : Nat) : Nat := decay (fDiv (fMul (m2 i) bc1) (fAdd (fSqrt (fMul (v2 i) bc2)) eps)) (w0 i)
     let draw (i : Nat) : Nat × Nat := momentDraws (d.word .PLY_SEED p).toNat (d.spbField p 0 0 48) layer i
     let zero (c : Nat) : Prop := FV.eqv (un64 c) .zero = true
     let ratio (nw nd t : Nat) : Prop := (zero nw ∨ zero nd → t = one32) ∧ (¬ (zero nw ∨ zero nd) →
       let q := f32 (un64 (dDiv (dSqrt nw) (dSqrt nd)))
       t = if FV.lt (un32 (d.spbField p 5 0 32)) (un32 q) = true then d.spbField p 5 0 32 else q)
     let product (pm : List Nat) (i : Nat) : Nat := ((List.range (k - 1)).map (· + 1)).foldl (fun a l => fAdd a (fMul (mat k pm (i % k) l) (fMul (m2 (i / k * k + l)) bc1)))
       (fMul (mat k pm (i % k) 0) (fMul (m2 (i / k * k)) bc1))
     d.released 7 → d.layerOf p layer old = some x → ent x 0 8 3 = e → d.plyServes e p = true → s.Inv → s.mem.bad = [] → s.mem.soft = [] →
     (d.binOf p layer old run.finished = some b → run.finished + 1 < tileCount x → run.done = false ∨ old = true → d.isSet F.PLY_STEP_SPB_OK p = true →
       d.isSet F.PLY_STEP_PENDING p = false → d.tileComplete p x b = true → d.isSet F.PLY_STEP_OVF p = true → Gives (.tileFinish e p layer old) s fun d' =>
         (d'.runOf p layer old).finished = run.finished + 1 ∧ d'.binOf p layer old run.finished = none ∧ d'.isSet F.PLY_STEP_OVF p = true) ∧
     (∀ nw nd, run.norms = some (nw, nd) → 2 ≤ rule → run.written = false → d.runOvf p run = false → elems % 64 = 0 →
       (rule = 3 → run.solved ≠ none ∧ run.matrix ≠ none ∧ 0 < k ∧ elems % k = 0 ∧ ∀ v < 2, ok (matrixAt x v) (4 * (k * k))) →
       (∀ v < 2, ∀ j < elems / 64, ok (base v + j * sz) sz) → ok (ent x 4 0 48) (4 * elems) → ∃ (m : Mem) (d' : Dev),
         exec (.passTwo e p layer old) s = .next { s with mem := m, dev := d' } ∧ (d'.runOf p layer old).written = true ∧
         (∀ t, rule = 2 ∨ run.solved = some none → (rule = 2 → run.solved = none) → ratio nw nd t → ∀ i < elems, m.holds rule (base (1 - ver)) i
           (fSub (w0 i) (fMul (fMul lr t) (d2 i))) (narrowMoment (draw i).1 (m2 i)) (narrowMoment (draw i).2 (v2 i))) ∧
         (∀ pm, rule = 3 → run.solved = some (some pm) → ∀ i < elems, m.holds rule (base (1 - ver)) i
           (fSub (w0 i) (fMul lr (decay (product pm i) (w0 i)))) (narrowMoment (draw i).1 (m2 i)) (narrowMoment (draw i).2 (v2 i))) ∧
         (∀ tri, rule = 3 → run.matrix = some tri → ∀ q < k * k, m.nat (matrixAt x (1 - ver) + 4 * q) 4 =
           ((sketchM k b2 ((List.range (k * k)).map fun i => s.mem.nat (matrixAt x ver + 4 * i) 4) tri)[q]?).getD 0 % 2 ^ 32) ∧
         ∀ a, a < base (1 - ver) ∨ base (1 - ver) + stateBytes x ≤ a → m.byte a = s.mem.byte a) ∧
     (∀ tri, rule = 3 → run.matrix = some tri → run.solved = none → ok (matrixAt x ver) (4 * (k * k)) → Gives (.solverDone e p layer old) s fun d' =>
       (d'.runOf p layer old).solved = some (if d.ply.trust.get false p then none else solveP k (d.spbField p 5 32 32)
         (sketchM k (d.spbField p 4 0 32) ((List.range (k * k)).map fun i => s.mem.nat (matrixAt x ver + 4 * i) 4) tri) 10 0)) ∧
     (old = true → run.finished = tileCount x → d.runOvf p run = true → run ∈ d.ply.runs → Gives (.layerFinish e p layer true) s fun d' =>
       d'.layerOf p layer true = none ∧ (∀ b ∈ d'.ply.bins, b ∈ d.ply.bins ∧ ¬ (b.part = p.val ∧ b.layer = layer.val ∧ b.old = true)) ∧
         d'.sync.arrivals = d.sync.arrivals ++ [.signal (ent x 1 48 16) 1 p (0x810 + e) 0xF d.fabId .none]) ∧
     (old = false → run.finished = tileCount x → run.done = false → d.isSet F.PLY_STEP_OVF p = true → Gives (.layerFinish e p layer false) s fun d' =>
       (d'.runOf p layer false).done = true ∧
         d'.sync.arrivals = d.sync.arrivals ++ [.signal (ent x 1 48 16) 1 p (0x810 + e) 0xF d.fabId .none]) ∧
     (old = false → run.finished = tileCount x → run.done = false → d.isSet F.PLY_STEP_OVF p = false → rule < 2 ∨ run.written = true →
       ok (base (1 - ver)) (stateBytes x) → ok slot 64 → ∃ (m : Mem) (d' : Dev), exec (.layerFinish e p layer false) s = .next { s with mem := m, dev := d' } ∧
         (d'.runOf p layer false).done = true ∧ m.read slot 48 = layerDigest (s.mem.read (base (1 - ver)) (stateBytes x)) ∧
           m.nat (slot + 48) 8 = d.spbField p 0 0 48 + layer * 2 ^ 48 ∧ ∀ a, a < slot ∨ slot + 64 ≤ a → m.byte a = s.mem.byte a))

/-- R297, R299 to R301, R306, R310: The verdict and the group messages of a step. A verdict with the step flag set lowers the loss scale and skips the step; one without it leaves
the new version pending. A result of an earlier step serves the retained accumulator that waits for it, or only answers its message (log entry 72, DEDUCED). -/
def Obligations.PlyVerdict : Prop :=
  ∀ (s : State) (e : Fin 8) (p : Fin 4) (entry : List Nat) (q : Nat × Nat × Packet) (g : Nat),
    let d := s.dev
    let m := GroupMsg.of q.2.2
    let x : GroupIn := ⟨p, m.kind, m.layer, q.2.2.src, m.piece, m.ovf, m.values⟩
    let exp := d.lsExp p
    d.released 7 → d.plyServes e p = true →
    (d.groupOf p 0 = some entry → ent entry 0 8 3 = e → d.get F.PLY_STEP_STATE p < 2 → d.layers p ≠ [] →
      (∀ y ∈ d.layers p, (d.runOf p (ent y 0 32 16) false).done = true) →
      Works (.verdictSend e p) s fun w => (w.on fun d => d.put F.PLY_STEP_STATE p 2).contribute p 0 1 0 0 []) ∧
    (d.groupIn e p [1, 2, 3] = some (q, g) → d.groupOf p g = some entry → ent entry 0 32 16 = d.fabId →
      (m.step = d.get F.PLY_STEP_CURRENT p → Works (.groupMessage e p) s fun w => (w.on (·.takeIn q)).homeAdd p g entry x) ∧
      (m.step ≠ d.get F.PLY_STEP_CURRENT p → Does (.groupMessage e p) s fun d =>
        (d.takeIn q).raise .groupMessage (Dev.evPart (some p)) (0x810 + e) (m.layer + m.step * 2 ^ 16))) ∧
    (d.groupIn e p [0x81] = some (q, g) → d.groupOf p g = some entry → m.kind = 0x81 → m.step = d.get F.PLY_STEP_CURRENT p →
      d.isSet F.TWIST_PHASE_BASE_EN p = false → Gives (.verdictResult e p) s fun d' =>
        d'.get F.PLY_STEP_CURRENT p = (m.step + 1) % 2 ^ 48 ∧ d'.isSet F.PLY_STEP_SPB_OK p = false ∧ d'.isSet F.PLY_STEP_OVF p = false ∧
          d'.get F.PLY_STEP_STATE p = 0 ∧ d'.get F.PLY_STEP_VER p = d.get F.PLY_STEP_VER p ∧ (∀ a ∈ d.ply.awaiting, a.2.1 ≠ 1 → a ∈ d'.ply.awaiting) ∧
        (m.ovf = true → d'.get F.PLY_LS_EXP p = field 6 (max (exp - 1) (-24)) ∧ d'.get F.PLY_LS_CLEAN p = 0 ∧ d'.isSet F.PLY_STEP_LAST_SKIP p = true ∧
          d'.isSet F.PLY_STEP_PENDING p = d.isSet F.PLY_STEP_PENDING p) ∧
        (m.ovf = false → (d.get F.PLY_LS_CLEAN p + 1) % 65536 ≠ d.get F.PLY_LS_INTERVAL p → d'.get F.PLY_LS_EXP p = d.get F.PLY_LS_EXP p ∧
          d'.get F.PLY_LS_CLEAN p = (d.get F.PLY_LS_CLEAN p + 1) % 65536 ∧ d'.isSet F.PLY_STEP_LAST_SKIP p = false ∧ d'.isSet F.PLY_STEP_PENDING p = true) ∧
        (m.ovf = false → (d.get F.PLY_LS_CLEAN p + 1) % 65536 = d.get F.PLY_LS_INTERVAL p → d'.get F.PLY_LS_EXP p = field 6 (min (exp + 1) 24) ∧
          d'.get F.PLY_LS_CLEAN p = 0 ∧ d'.isSet F.PLY_STEP_PENDING p = true)) ∧
    (d.groupIn e p [0x82, 0x83] = some (q, g) → d.groupOf p g = some entry → m.kind = 0x82 → m.step = d.get F.PLY_STEP_CURRENT p →
      Gives (.groupResult e p) s fun d' => (d'.runOf p m.layer (d.resultRun p m.layer m.step)).norms = some ((m.values[0]?).getD 0, (m.values[1]?).getD 0) ∧
        (m.ovf = true → d'.isSet F.PLY_STEP_OVF p = true)) ∧
    (d.groupIn e p [0x82, 0x83] = some (q, g) → d.groupOf p g = some entry → m.kind = 0x82 → m.step ≠ d.get F.PLY_STEP_CURRENT p →
      (d.resultRun p m.layer m.step = true → Gives (.groupResult e p) s fun d' => (d'.runOf p m.layer true).norms = some ((m.values[0]?).getD 0, (m.values[1]?).getD 0) ∧
        d'.isSet F.PLY_STEP_OVF p = d.isSet F.PLY_STEP_OVF p) ∧
      (d.resultRun p m.layer m.step = false → Does (.groupResult e p) s fun d => (d.takeIn q).answered p 2 m.layer)) ∧
    (∀ (kind l at_ : Nat) (rest : List (Nat × Nat × Nat × Nat)), d.ply.awaiting = (p.val, kind, l, at_) :: rest → at_ + 64 ≤ d.get F.TWIST_CNT_CNT →
      Gives (.groupResultTimeout p) s fun d' => d'.get F.PLY_STEP_STATE p = 3 ∧ d'.ply.awaiting = rest.filter (·.1 ≠ p.val) ∧
        d'.ply.bins = d.ply.bins.filter (·.part ≠ p.val))

/-- R280, R298, R302, R318: The step commands and the registers of a partition's own host. -/
def Obligations.PlyStepCommands : Prop :=
  ∀ (s : State) (r : Requester) (e : Fin 8) (q : Fin 4) (p : Fin 4) (v : Word),
    let d := s.dev
    let block := (List.range 8).map fun i => (d.word .PLY_SPB (8 * p + i)).toNat
    let answers (d' : Dev) (st : Status) : Prop := d'.reply = (st, []) ∧ d'.get F.PLY_STEP_CTL_STATUS p = st.code
    let code (i : Nat) : Nat := bits v.toNat (4 * i) 4
    let held (i : Nat) : Nat := bits (d.word .PLY_PSLOT (4 * e + q)).toNat (4 * i) 4
    let free : Prop := ∀ i < 16, held i ≠ code i → held i < 4 → d.planActiveOrStaged (held i) = false
    d.released 7 →
    (ownPart r p = true → d.revoked r = false →
      (d.get F.PLY_STEP_STATE p ≠ 3 → d.isSet F.PLY_STEP_SPB_OK p = false → bits ((block[0]?).getD 0) 0 48 = d.get F.PLY_STEP_CURRENT p →
        spbOk block (d.lsExp p) = true → Gives (.plySubmit r p) s fun d' => answers d' .ok ∧ d'.isSet F.PLY_STEP_SPB_OK p = true ∧ d'.ply.spb.get [] p = block) ∧
      (d.get F.PLY_STEP_STATE p ≠ 3 → d.isSet F.PLY_STEP_SPB_OK p = false → bits ((block[0]?).getD 0) 0 48 ≠ d.get F.PLY_STEP_CURRENT p →
        Gives (.plySubmit r p) s fun d' => answers d' .stepStale ∧ d'.ply = d.ply) ∧
      (d.isSet F.PLY_STEP_PENDING p = true → Gives (.plyCommit r p) s fun d' => answers d' .ok ∧ d'.get F.PLY_STEP_VER p = 1 - d.get F.PLY_STEP_VER p ∧
        d'.isSet F.PLY_STEP_PENDING p = false ∧ d'.get F.PLY_LS_RES_EXP p = d.ply.resNext.get 0x10 p % 64) ∧
      (d.isSet F.PLY_STEP_PENDING p = false → Gives (.plyCommit r p) s fun d' => answers d' .formatFault ∧ d'.ply = d.ply) ∧
      (d.hasPlan p = true → Gives (.plyRollback r p) s fun d' => answers d' .writeRefused ∧ d'.ply = d.ply) ∧
      (d.hasPlan p = false → d.isSet F.TWIST_PHASE_BASE_EN p = false → Gives (.plyRollback r p) s fun d' => answers d' .ok ∧
        d'.isSet F.PLY_STEP_PENDING p = false ∧ d'.isSet F.PLY_STEP_SPB_OK p = false ∧ d'.isSet F.PLY_STEP_OVF p = false ∧ d'.get F.PLY_STEP_STATE p = 0 ∧
          d'.get F.PLY_STEP_VER p = d.get F.PLY_STEP_VER p ∧ d'.get F.PLY_STEP_CURRENT p = d.get F.PLY_STEP_CURRENT p ∧
            ∀ b ∈ d'.ply.bins, b ∈ d.ply.bins ∧ b.part ≠ p.val) ∧
      (d.get F.PLY_STEP_STATE p = 0 → d.isSet F.PLY_STEP_PENDING p = false → d.hasPlan p = false → Gives (.plyStepWrite r p v) s fun d' =>
        d'.reply = (.ok, []) ∧ d'.get F.PLY_STEP_CURRENT p = v.toNat % 2 ^ 48 ∧ d'.get F.PLY_STEP_VER p = bits v.toNat 48 1) ∧
      (d.get F.PLY_STEP_STATE p = 0 → d.isSet F.PLY_STEP_PENDING p = false → -24 ≤ signed 6 (bits v.toNat 0 6) → signed 6 (bits v.toNat 0 6) ≤ 24 →
        bits v.toNat 22 16 ≠ 0 → Gives (.plyLsWrite r p v) s fun d' => d'.reply = (.ok, []) ∧ d'.get F.PLY_LS_EXP p = bits v.toNat 0 6 ∧
          d'.get F.PLY_LS_RES_EXP p = bits v.toNat 0 6 ∧ d'.get F.PLY_LS_CLEAN p = 0 ∧ d'.get F.PLY_LS_INTERVAL p = bits v.toNat 22 16) ∧
      (d.get F.PLY_STEP_STATE p ≠ 0 → Does (.plyStepWrite r p v) s (·.answer .writeRefused) ∧ Does (.plyLsWrite r p v) s (·.answer .writeRefused))) ∧
    (ownPart r p = false → d.revoked r = false → Does (.plySubmit r p) s (·.answer .partitionDenied) ∧ Does (.plyCommit r p) s (·.answer .partitionDenied) ∧
      Does (.plyRollback r p) s (·.answer .partitionDenied) ∧ Does (.plyStepWrite r p v) s (·.answer .partitionDenied) ∧
        Does (.plyLsWrite r p v) s (·.answer .partitionDenied)) ∧
    (Dev.whole r = true → free → (∀ i < 16, code i < 4 ∨ code i = 15) → Does (.plyPslotWrite r e q v) s fun d =>
      (d.setWord .PLY_PSLOT (4 * e + q) v).answer .ok) ∧
    (Dev.whole r = true → ¬ free → Does (.plyPslotWrite r e q v) s (·.answer .writeRefused)) ∧
    (Dev.whole r = true → free → (∃ i < 16, 4 ≤ code i ∧ code i ≤ 14) → Does (.plyPslotWrite r e q v) s (·.answer .formatFault))

/-- R326, R327, R342: A verify run, which signals its object at its end where SIG is set, and the phase timers, which gain every core that counts in a phase. A tick stands for the
next full microsecond of the timebase (log entry 8, DESIGN CHOICE); a run that a margin run holds back waits (R176; log entry 33, DEDUCED). -/
def Obligations.VerifyRunsAndPhases : Prop :=
  ∀ (s : State) (r : Requester) (e : Fin 8) (p : Fin 4) (v : Word),
    let d := s.dev
    let i := 4 * e.val + p.val
    (d.released 7 → ownPart r p = true → d.revoked r = false → d.isSet F.PLY_VRF_CTL_BUSY i = false → bits v.toNat 13 16 ≠ 0 → Gives (.verifyRunStart r e p v) s fun d' =>
      d'.isSet F.PLY_VRF_CTL_BUSY i = true ∧ d'.isSet F.PLY_VRF_CTL_DONE i = false ∧ d'.get F.PLY_VRF_CTL_COUNT i = bits v.toNat 13 16 ∧ d'.reply = (.ok, []) ∧
        d'.ply.vrf.find i = some [d.get F.PLY_VRF_LIST_ADDR i, bits v.toNat 13 16, bits v.toNat 1 1, bits v.toNat 46 1, bits v.toNat 29 16, bits v.toNat 45 1]) ∧
    (d.released 7 → ownPart r p = true → d.revoked r = false → d.isSet F.PLY_VRF_CTL_BUSY i = true ∨ bits v.toNat 13 16 = 0 → Does (.verifyRunStart r e p v) s (·.answer .formatFault)) ∧
    (∀ (addr count mode cmp sync sig : Nat) (w : Work) (st : Status) (bad : Bool), d.released 7 → d.ply.vrf.find i = some [addr, count, mode, cmp, sync, sig] →
      d.plyServes e p = true → Work.vrfEntries e p mode cmp addr (List.range count) ⟨s.mem, [], d, false⟩ = (w, st, bad) → w.held = false →
        exec (.verifyRunEnd e p) s = .next { s with
          mem := s.mem.applyAll w.log.reverse
          dev :=
            let d' := w.dev.putAll i [(F.PLY_VRF_CTL_BUSY, 0), (F.PLY_VRF_CTL_DONE, 1), (F.PLY_VRF_CTL_STATUS, st.code), (F.PLY_VRF_CTL_MISMATCH, flag bad)]
            let arrivals := if sig = 1 then d'.sync.arrivals ++ [.signal sync 1 p (0x810 + e) 0xF d'.fabId .none] else d'.sync.arrivals
            { d' with ply := { d'.ply with vrf := d'.ply.vrf.erase i }, sync := { d'.sync with arrivals } } }) ∧
    (d.released 2 → Gives .phaseTimerTick s fun d' => d'.now = (d.now / 1000 + 1) * 1000 ∧ d'.cores = d.cores ∧
      ∀ (q : Fin 4) (f : Fin 8), let n := (d.cores.keys.filter fun c => decide (d.partOfCore c = some q.val ∧ d.phaseOf q c = some f.val)).length
        d.get F.TWIST_PHNOW_VALUE (8 * q + f) + n < 2 ^ 48 → d'.get F.TWIST_PHNOW_VALUE (8 * q + f) = d.get F.TWIST_PHNOW_VALUE (8 * q + f) + n) ∧
    (d.released 2 → d.cores.keys = [] → Does .phaseTimerTick s fun d => { d with now := (d.now / 1000 + 1) * 1000 })

/-- R222, R345 to R348, R353: A port trains. Its lanes lose and take alignment one by one, a port in training with aligned lanes is UP after three good TRAIN frames in a row, and
an UP port that loses the alignment of a lane trains again. The four blocks of a TRAIN frame leave on the lanes in turn. A TRAIN frame leaves at the end of the PRBS and after each
one received, and the peer's credit is that of the TRAIN header at UP (log entry 64, DEDUCED). The link keeps the order of its frames. A LINK frame drops what it acknowledges and
takes the peer's credit; a NAK has the rest sent again; a frame with a bad CRC is answered with a NAK that names the frame to come next, and the third of one frame fails the link.
A held frame leaves when the port can send. -/
def Obligations.ControlPortLink : Prop :=
  (∀ (s : State) (p k : Fin 4) (f : HostFrame),
     let d := s.dev
     let x := d.zport p
     let st := d.get F.ZQL_PORT_STAT_STATE p
     let lanes := d.get F.ZQL_PORT_STAT_ALIGNED p
     let v := 0x0100 + p * 2 ^ 16 + d.get F.ZQL_PORT_STAT_ADMIN p * 2 ^ 18 + d.get F.FAB_ID_ID * 2 ^ 32 + x.rxNext * 2 ^ 48
     let train : Msg := ⟨.frame, p, d.frameBody p 0 { type := 0, data := leBytes 16 v }⟩
     let trains : Prop := st = 1 ∧ x.prbs = true ∧ lanes = 15 ∧ f.crcOk = true ∧ bits (leNat (f.payload.take 8)) 8 8 = 1
     d.released 8 →
     (st = 0 → d.light.railLow = false → Gives (.zqlTrainingStart p) s fun d' =>
       d'.get F.ZQL_PORT_STAT_STATE p = 1 ∧ d'.get F.ZQL_PORT_STAT_ALIGNED p = 0 ∧ d'.zport p = { x with prbs := false, trained := 0 } ∧ d'.out = d.out) ∧
     (st = 0 → d.light.railLow = true → exec (.zqlTrainingStart p) s = .next s) ∧
     (st = 1 → x.prbs = false → Gives (.controlPortPrbsEnd p) s fun d' => d'.regs = d.regs ∧ d'.zport p = { x with prbs := true } ∧ d'.out = d.out ++ [train] ∧
       ∃ l : List (Nat × Nat × Nat), d'.zql.wire = d.zql.wire ++ l ∧ l.map (fun b => (b.1, b.2.1)) = (List.range 4).map fun i => (p.val, (d.zql.blocks.get 0 p + i) % 4)) ∧
     (trains → x.trained < 2 → Gives (.trainFrame p f) s fun d' => d'.zport p = { x with trained := x.trained + 1 } ∧ d'.regs = d.regs ∧ d'.out = d.out ++ [train]) ∧
     (trains → x.trained = 2 → x.unacked = [] → x.queue = [] → Gives (.trainFrame p f) s fun d' =>
       d'.portUp p = true ∧ (d'.zport p).room = f.cred ∧ (d'.zport p).rxNext = x.rxNext ∧ (d'.zport p).txNext = x.txNext ∧ d'.out = d.out) ∧
     (st ≠ 0 → Gives (.blockAlignmentTaken (.port p k)) s fun d' => d'.get F.ZQL_PORT_STAT_ALIGNED p = Nat.lor lanes (2 ^ k.val) ∧ d'.get F.ZQL_PORT_STAT_STATE p = st) ∧
     (lanes.testBit k = true → st = 2 → Gives (.blockAlignmentLoss (.port p k)) s fun d' =>
       (d'.get F.ZQL_PORT_STAT_ALIGNED p).testBit k = false ∧ d'.get F.ZQL_PORT_STAT_STATE p = 0 ∧ (d'.zport p).unacked = x.unacked)) ∧
  (∀ (s : State) (p : Fin 4) (f : HostFrame),
     let d := s.dev
     let x := d.zport p
     let kept := Dev.ackFrames x.unacked f.lack
     d.released 8 → d.portUp p = true →
     (f.crcOk = true → f.type = 0 → f.nak = false → x.queue = [] → Gives (.zqlNak p f) s fun d' =>
       d'.zport p = { x with unacked := kept, room := f.cred } ∧ d'.regs = d.regs ∧ d'.out = d.out) ∧
     (f.crcOk = true → f.type = 0 → f.nak = true → x.queue = [] → x.lastNak ≠ some ((f.lack + 1) % 4096) → Gives (.zqlNak p f) s fun d' =>
       (d'.zport p).unacked = kept ∧ (d'.zport p).nakRun = 1 ∧ d'.portUp p = true ∧
         d'.out = d.out ++ kept.map fun y => ⟨.frame, p, d.frameBody p y.1 y.2⟩) ∧
     (f.crcOk = false → x.naks < 2 → Gives (.zqlNak p f) s fun d' => d'.zport p = { x with naks := x.naks + 1 } ∧ d'.portUp p = true ∧
       d'.out = d.out ++ [⟨.frame, p, d.frameBody p 0 { type := 0 } true⟩]) ∧
     (f.crcOk = false → x.naks = 2 → Gives (.zqlNak p f) s fun d' => d'.portUp p = false ∧ (d'.zport p).unacked = x.unacked ∧ (d'.zport p).rxNext = x.rxNext) ∧
     (∀ (g : Frame) (t : List Frame), x.held = g :: t → d.canSend p = true → Gives (.eventSend p) s fun d' =>
       d'.zport p = { x with held := t, txNext := (x.txNext + 1) % 4096, unacked := x.unacked ++ [(x.txNext, g)] } ∧
         d'.out = d.out ++ [⟨.frame, p, d.frameBody p x.txNext g⟩]) ∧
     (∀ (g : Frame) (t : List Frame), x.held = g :: t → d.canSend p = false → exec (.eventSend p) s = .next s))

/-- R164, R176, R350, R351, R357: A READ or WRITE that the link has accepted and that breaks no rule is performed for its requester and answered; a WRITE changes the bytes that it
carries and no other. A frame that breaks a rule is answered with its status and does nothing else; one that a margin run holds back is offered again (log entry 33, DEDUCED), and a
register of which nothing is performed answers a WRITE with OK (log entry 14, DESIGN CHOICE). -/
def Obligations.HostReadsAndWrites : Prop :=
  ∀ (s : State) (p : Fin 4) (f : HostFrame) (d : Dev),
    let r := d.frameWho p f
    let who := Dev.partOfReq r
    s.dev.released 8 →
    (s.dev.acceptFrame p f = (d, true) →
    (d.frameStatus p f = .ok → (d.margined who f.addr f.aux = true → exec (.read p f) s = .next s) ∧ (d.margined who f.addr f.val = true → exec (.write p f) s = .next s)) ∧
    (d.frameStatus p f = .ok → (∀ o, Region.of f.addr ≠ .csr o) → d.serves none who f.addr f.aux → Clean s.mem (Region.target f.addr) f.aux →
      exec (.read p f) s = .next { s with dev := d.portFrame p { type := 2, tag := f.tag, data := takePad (ceilDiv f.aux 16 * 16) 0 (s.mem.seen f.addr f.aux) } }) ∧
    (∀ o, d.frameStatus p f = .ok → Region.of f.addr = .csr o →
      let (st, v) := d.readCsr r f.addr f.aux
      let data := if st = .ok then leBytes 8 v.toNat ++ List.replicate 8 0 else []
      exec (.read p f) s = .next { s with dev := d.portFrame p { type := 2, tag := f.tag, status := st.code, data } }) ∧
    (d.frameStatus p f = .ok → (∀ o, Region.of f.addr ≠ .csr o) → 0 < f.val → f.val ≤ f.payload.length → d.margined who f.addr f.val = false → (d.reachFrom none who f.addr f.val).1 = .ok →
      s.Inv → s.mem.bad = [] → s.mem.soft = [] → ∃ m : Mem, exec (.write p f) s = .next { s with mem := m, dev := d.sendDone p f.tag .ok } ∧
        (∀ i < f.val, m.byte (Region.target f.addr + i) = ((f.payload.take f.val)[Region.seen f.addr i - Region.target f.addr]?).getD 0) ∧
        ∀ b, b < Region.target f.addr ∨ Region.target f.addr + f.val ≤ b → m.byte b = s.mem.byte b) ∧
    (∀ o, d.frameStatus p f = .ok → Region.of f.addr = .csr o →
      let w := Work.writeCsr ⟨s.mem, [], d.answer .ok, false⟩ r f.addr f.val (leNat (f.payload.take f.val))
      exec (.write p f) s = .next (if w.held then s else { s with mem := s.mem.applyAll w.log.reverse, dev := w.dev.sendDone p f.tag w.dev.reply.1 })) ∧
    (∀ st, d.frameStatus p f = st → st ≠ .ok → exec (.read p f) s = .next { s with dev := d.refuseFrame p f st } ∧
      exec (.write p f) s = .next { s with dev := d.refuseFrame p f st }))

/-- R206, R352, R355 to R357: Doorbells, signals and waits that the link has accepted. A doorbell with a value below its queue's size sets the pointer; a signal or wait is on its
way to the store of the objects; a wait's timeout runs from now, and when it comes the waiter leaves: DONE answers its TAG with DEADLINE_MISSED and the object's value. -/
def Obligations.HostDoorbellsAndWaits : Prop :=
  ∀ (s : State) (p : Fin 4) (f : HostFrame) (d : Dev),
    let r := d.frameWho p f
    let k := 8 * p.val + f.q
    s.dev.released 8 →
    (s.dev.acceptFrame p f = (d, true) → d.frameStatus p f = .ok →
      (d.bellStatus p f r = .ok → f.fn = 0 → exec (.sqDoorbell p f) s = .next { s with dev := d.put F.ZQL_QPTR_SQ_TAIL k f.val }) ∧
      (d.bellStatus p f r = .ok → f.fn = 1 → exec (.cqDoorbell p f) s = .next { s with dev := d.put F.ZQL_QPTR_CQ_HEAD k f.val }) ∧
      (d.queueRefusal r p = .ok → f.fn = 0 → 2 ^ d.get F.ZQL_SQ_LOG2N k ≤ f.val → exec (.sqDoorbell p f) s = .next { s with dev := d.sendDone p f.tag .formatFault }) ∧
      (d.queueRefusal r p = .ok → f.fn = 1 → 2 ^ d.get F.ZQL_CQ_LOG2N k ≤ f.val → exec (.cqDoorbell p f) s = .next { s with dev := d.sendDone p f.tag .formatFault }) ∧
      exec (.signal p f) s = .next { s with dev := d.postSignal (.signal f.id f.val (rightOf r) (0x828 + p) 0xF d.fabId (.port p f.tag)) } ∧
      (1024 ≤ d.portWaits p → exec (.wait p f) s = .next { s with dev := d.sendDone p f.tag .formatFault }) ∧
      (d.portWaits p < 1024 → f.fn < 2 → ∃ d' : Dev, exec (.wait p f) s = .next { s with dev := d' } ∧
        d'.sync.arrivals = d.sync.arrivals ++ [.wait f.id f.val (decide (f.fn = 1)) (rightOf r) none (.port p f.tag)] ∧ d'.regs = d.regs ∧ d'.out = d.out ∧
          (f.aux ≠ 0 → (d'.zport p).timed.find f.tag = some (d.now + f.aux * 1000))) ∧
      (d.portWaits p < 1024 → f.fn = 2 → 61440 ≤ f.id → ∃ d' : Dev, exec (.wait p f) s = .next { s with dev := d' } ∧
        d'.sync.arrivals = d.sync.arrivals ++ [.arrive f.id (rightOf r) (.port p f.tag)] ∧ d'.regs = d.regs ∧ d'.out = d.out)) ∧
    (∀ (tag : Fin 65536) (t : Nat) (y : Waiter), (s.dev.zport p).timed.find tag = some t → s.dev.sync.waiters.find? (fun y => decide (y.reply = .port p tag)) = some y →
      Gives (.hostWaitTimeout p tag) s fun d' => s.dev.tells d' p { type := 4, tag, status := Status.deadlineMissed.code, val := s.dev.objValue y.id } ∧
        d'.sync.waiters = s.dev.sync.waiters.erase y ∧ d'.sync.arrivals = s.dev.sync.arrivals ∧ d'.now = max s.dev.now t ∧ (d'.zport p).timed.find tag = none ∧
        d'.objValue y.id = s.dev.objValue y.id ∧ d'.get F.SYNC_OBJ_LO_WAITERS y.id = s.dev.get F.SYNC_OBJ_LO_WAITERS y.id - 1)

/-- R355, R356: The engine of a port takes the entry at the head of the first queue in its turn that is ready; an entry that has completed writes its completion entry at the tail
and frees its place. -/
def Obligations.QueueEngine : Prop :=
  ∀ (s : State) (p part : Fin 4) (q : Nat) (rest : List Nat),
    let d := s.dev
    let x := d.zport p
    let k := 8 * p.val + q
    let head := d.get F.ZQL_QPTR_SQ_HEAD k
    let size := 2 ^ d.get F.ZQL_SQ_LOG2N k
    let slot := d.get F.ZQL_SQ_BASE k + 64 * head
    let l := (List.range 8).map fun i => leNat (((s.mem.read slot 64).drop (8 * i)).take 8)
    let w0 := (l[0]?).getD 0
    let op := bits w0 0 8
    d.released 8 → d.partOfPort p = some part.val →
    (d.get F.ZQL_PCTL_STATE part ≠ 3 → x.entries.length < 16 → (∀ y ∈ x.entries, y.id ≠ x.nextEntry) → size ≤ 4096 → (d.queueTurn p).filter (fun q => d.queueReady p q) = q :: rest →
      d.serves none (some part.val) slot 64 → Clean s.mem slot 64 →
      (∀ done, op ≠ 2 → (op = 4 → d.running p q = 0) →
        done = (if d.submissionOk part l = false then some (Status.formatFault, 0) else if op = 0 ∨ op = 4 then some (.ok, 0) else none) →
        Gives (.queueEntryStart p) s fun d' => d'.get F.ZQL_QPTR_SQ_HEAD k = (head + 1) % size ∧ (d'.zport p).served = q ∧
          (d'.zport p).entries = x.entries ++ [{ id := x.nextEntry, q, idx := head, user := bits w0 16 16, op, addr := (l[1]?).getD 0, done }]) ∧
      (op = 2 → d.submissionOk part l = false → x.entries = [] → ∃ t, exec (.queueEntryStart p) s = .next t ∧ t.mem = s.mem ∧ t.dev.get F.ZQL_QPTR_SQ_HEAD k = (head + 1) % size ∧
        (t.dev.zport p).entries.map (·.done) = [some (.formatFault, 0)])) ∧
    (∀ (e : QEntry) (t : List QEntry) (st : Status) (n : Nat),
      let j := 8 * p.val + e.q
      let tail := d.get F.ZQL_QPTR_CQ_TAIL j
      let a := d.get F.ZQL_CQ_BASE j + 16 * tail
      let log := 2 ^ d.get F.ZQL_CQ_LOG2N j
      x.entries = e :: t → (∀ y ∈ t, y.id ≠ e.id) → e.done = some (st, n) → e.q < 8 → d.isSet F.ZQL_CQ_EN j = true → tail < log → log ≤ 4096 →
      d.serves none (some part.val) a 16 → s.Inv → s.mem.bad = [] → s.mem.soft = [] → ∃ (m : Mem) (d' : Dev),
        exec (.queueEntryComplete p 0) s = .next { s with mem := m, dev := d' } ∧
          m.read a 16 = leBytes 8 (e.idx + e.user * 2 ^ 16 + st.code * 2 ^ 32 + d.get F.ZQL_CQ_PHASE j * 2 ^ 40) ++ leBytes 8 n ∧
          (∀ b, b < a ∨ a + 16 ≤ b → m.byte b = s.mem.byte b) ∧ (d'.zport p).entries = t ∧ d'.get F.ZQL_QPTR_CQ_TAIL j = (tail + 1) % log ∧
          d'.get F.ZQL_CQ_PHASE j = (if tail + 1 = log then 1 - d.get F.ZQL_CQ_PHASE j else d.get F.ZQL_CQ_PHASE j))

/-- R354, R370: IDENTITY and ATTEST answer with a report. It has 544 bytes, its magic number, kind and nonce in their places, zeros where kind 1 has no partition, and it changes no
register. -/
def Obligations.HostReports : Prop :=
  ∀ (s : State) (p : Fin 4) (f : HostFrame) (d : Dev),
    let n := f.payload.length
    let answers (r : Dev × List Byte) : Answer := .next { s with dev := r.1.respond p f .ok r.2 }
    (s.dev.released 8 → s.dev.acceptFrame p f = (d, true) → d.frameStatus p f = .ok →
      (f.op = 1 → n = 0 ∨ n = 32 → exec (.identity p f) s = answers (d.report p 1 f.payload)) ∧
      (n = 32 → exec (.attest p f) s = answers (d.report p 2 f.payload)) ∧
      (f.op ≠ 1 ∨ (n ≠ 0 ∧ n ≠ 32) → exec (.identity p f) s = .next { s with dev := d.respond p f .formatFault }) ∧
      (n ≠ 32 → exec (.attest p f) s = .next { s with dev := d.respond p f .formatFault })) ∧
    (∀ (port kind : Nat) (nonce : List Byte),
      let r := d.report port kind nonce
      r.2.length = 544 ∧ r.2.take 4 = leBytes 4 0x5452564B ∧ r.2[6]? = some (BitVec.ofNat 8 kind) ∧ (r.2.drop 24).take 32 = takePad 32 0 nonce ∧
        (kind = 1 → (r.2.drop 136).take 120 = List.replicate 120 0) ∧ r.1.regs = d.regs ∧ r.1.zql = d.zql)

/-- R361 to R363, R367 to R369, R384: A firmware image is staged by FW_BEGIN and FW_DATA in order and accepted or refused by FW_END. The fused security version rises to that of the
running image; keys are taken from messages that open under the right agreement key, and dropped. -/
def Obligations.FirmwareAndKeys : Prop :=
  (∀ (s : State) (p : Fin 4) (f : HostFrame) (d : Dev),
     let x := d.zql.fw
     let fw := d.get F.MGMT_BOOT_FW
     let faults (c : Instr) : Prop := exec c s = .next { s with dev := d.respond p f .formatFault }
     s.dev.released 8 → s.dev.acceptFrame p f = (d, true) → d.frameStatus p f = .ok →
     (fw < 3 → f.payload.length = 256 → Gives (.fwBegin p f) s fun d' =>
       d'.get F.MGMT_BOOT_FW = 1 ∧ d'.zql.fw = { header := f.payload } ∧ d'.fuses = d.fuses) ∧
     (fw < 3 → f.payload.length ≠ 256 → faults (.fwBegin p f)) ∧ (fw < 3 → f.payload.length ≠ 0 → faults (.fwEnd p f)) ∧
     (fw = 1 → f.aux = x.body.length → Gives (.fwData p f) s fun d' => d'.zql.fw = { x with body := x.body ++ f.payload } ∧ d'.regs = d.regs) ∧
     (fw < 3 → fw ≠ 1 ∨ f.aux ≠ x.body.length → faults (.fwData p f)) ∧
     (fw < 3 → f.payload.length = 0 → d.imageReason = 0 → d.isSet F.MGMT_BOOT_ROM_DONE = false → Gives (.fwEnd p f) s fun d' =>
       d'.get F.MGMT_BOOT_FW = 3 ∧ d'.get F.MGMT_BOOT_FW_REASON = 0 ∧ d'.get F.MGMT_BOOT_FW_SVN = leNat ((x.header.drop 12).take 4) % 128 ∧
         d'.zql.fw.accepted = x.header) ∧
     (fw < 3 → f.payload.length = 0 → d.imageReason ≠ 0 → Gives (.fwEnd p f) s fun d' =>
       d'.get F.MGMT_BOOT_FW = 0 ∧ d'.get F.MGMT_BOOT_FW_REASON = d.imageReason ∧ d'.zql.fw = {} ∧
         (d.evq.length < 256 → d'.evq.map (·.kind) = d.evq.map (·.kind) ++ [.imageRefused])) ∧
     (3 ≤ fw → ∀ c ∈ [Instr.fwBegin p f, .fwData p f, .fwEnd p f], exec c s = .next { s with dev := d.respond p f .writeRefused })) ∧
  (∀ (s : State) (p : Fin 4) (f : HostFrame) (d : Dev) (q : Nat),
     let m := f.payload
     let tag := leNat ((m.drop 96).take 2)
     s.dev.released 8 → s.dev.acceptFrame p f = (d, true) → d.frameStatus p f = .ok →
     (m = [] → d.fuses.minSvn < 64 → Gives (.svnRaise p f) s fun d' =>
       d'.fuses = { d.fuses with minSvn := max d.fuses.minSvn (d.get F.MGMT_BOOT_FW_SVN) } ∧ d'.regs = d.regs) ∧
     (m = [] → 64 ≤ d.fuses.minSvn → exec (.svnRaise p f) s = .next { s with dev := d.respond p f .formatFault }) ∧
     (d.partOfPort p = some q → m.length = 160 → d.get F.FAB_PLAN_STAT_ACTIVE q = 0 → d.get F.FAB_PLAN_STAT_STAGED q = 0 →
       (∀ key, d.openKey q 0x30 m = some key → d.tagOk q tag = true → Gives (.keySlice p f) s fun d' =>
         d'.fab.keys.get {} q = { tag, key, live := true, dropped := false } ∧ d'.fab.pctr.get 1 q = 0 ∧ d'.regs = d.regs) ∧
       (tag = 0 ∨ d.openKey q 0x30 m = none → exec (.keySlice p f) s = .next { s with dev := d.respond p f .formatFault })) ∧
     (d.partOfPort p = some q → m.length = 160 → d.get F.FAB_PLAN_STAT_ACTIVE q = 1 →
       exec (.keySlice p f) s = .next { s with dev := d.respond p f .writeRefused }) ∧
     (∀ key, m.length = 160 → d.openKey 4 0x31 m = some key → tag = 0 → Gives (.keyMgmt p f) s fun d' =>
       d'.fab.keys.get {} 4 = { tag := 0, key, live := true, dropped := false } ∧ d'.regs = d.regs) ∧
     (m.length = 160 → tag ≠ 0 → exec (.keyMgmt p f) s = .next { s with dev := d.respond p f .formatFault }) ∧
     (d.partOfPort p = some q → m = [] → d.fab.skeins = [] → d.fab.flights = [] → Gives (.keyDrop p f) s fun d' =>
       (d'.fab.keys.get {} q).live = false ∧ (d'.fab.keys.get {} q).key = [] ∧ ((d.fab.keys.get {} q).live = true → (d'.fab.keys.get {} q).dropped = true)))

/-- R359, R364 to R366: A partition is activated when its definition passes the checks, gets a notice, is cleared from its deadline on, and is free once its clearing has ended.
While it is CLEARING, the requests of its host are answered with KEY_REVOKED. That one RECLAIM_DEADLINE does steps 1 to 3 of R365 and a later one steps 4 to 7 is log entry 63
(DEDUCED). -/
def Obligations.PartitionLife : Prop :=
  ∀ (s : State) (p q : Fin 4) (f : HostFrame) (d : Dev),
    let st := d.get F.ZQL_PCTL_STATE q
    let t := d.now + f.aux * 1000000
    (s.dev.released 8 → s.dev.acceptFrame p f = (d, true) → d.frameStatus p f = .ok → f.payload = [] →
      (f.val = q → d.activateStatus q = .ok → ∃ t, exec (.activate p f) s = .next t ∧ t.pending = s.pending ∧ t.dev.get F.ZQL_PCTL_STATE q = 1 ∧
        (let port := t.dev.get F.ZQL_PCTL_PORT q; t.dev.isSet F.ZQL_PORT_STAT_BOUND port = true ∧ t.dev.get F.ZQL_PORT_STAT_PART port = q) ∧
          (rising d.fab.keys.entries = true → (t.dev.fab.keys.get {} q).live = false) ∧ t.dev.zql.agree.find q ≠ none) ∧
      (∀ x, f.val = q → d.activateStatus q = x → x ≠ .ok → exec (.activate p f) s = .next { s with dev := d.respond p f x }) ∧
      (f.val = q → f.aux ≤ 600000 → st = 1 ∨ (st = 2 ∧ t < d.zql.deadline.get 0 q) → Gives (.reclaim p f) s fun d' =>
        d'.get F.ZQL_PCTL_STATE q = 2 ∧ d'.zql.deadline.find q = some t ∧ ∀ r : Fin 4, r ≠ q → d'.get F.ZQL_PCTL_STATE r = d.get F.ZQL_PCTL_STATE r) ∧
      (f.val = q → 600000 < f.aux ∨ st = 0 ∨ st = 3 → exec (.reclaim p f) s = .next { s with dev := d.respond p f .formatFault }) ∧
      (d.partOfPort p = some q.val → Gives (.release p f) s fun d' => d'.get F.ZQL_PCTL_STATE q = 2 ∧ d'.zql.deadline.find q = some d.now)) ∧
    (s.dev = d → d.released 8 →
      (st = 2 → d.fab.skeins = [] → d.fab.flights = [] → d.sync.waiters = [] → Gives (.reclaimDeadline q) s fun d' =>
        d'.get F.ZQL_PCTL_STATE q = 3 ∧ q.val ∈ d'.zql.clearing ∧ (rising d.zql.agree.entries = true → d'.zql.agree.find q = none) ∧
          (d'.fab.keys.get {} q).live = false ∧ d.zql.deadline.get 0 q ≤ d'.now) ∧
      (st = 3 → Work.cleared d q = true → ∃ t, exec (.reclaimDeadline q) s = .next t ∧ t.pending = s.pending ∧ t.dev.get F.ZQL_PCTL_STATE q = 0 ∧
        t.dev.isSet F.HBM_PART_VALID q = false ∧ (rising d.fab.keys.entries = true → t.dev.fab.keys.find q = none)) ∧
      (st = 0 ∨ st = 1 → exec (.reclaimDeadline q) s = .next s)) ∧
    (s.dev = d → st = 3 → (∀ k ≤ 8, d.released k = true) → ∀ (v : Word) (x : Fin 4) (e : Fin 8) (b : Fin 4096) (c : Fin 1024) (entry : Fin 8192),
      let r := Requester.part q
      ∀ i ∈ [Instr.plySubmit r x, .plyCommit r x, .plyRollback r x, .plyStepWrite r x v, .plyLsWrite r x v, .verifyRunStart r e x v, .planPrepare r x,
        .planArm r x b, .planStop r x, .planDiscard r x, .coreStart r c entry, .coreStop r c entry, .coreLoad r c entry, .barrierAbort r b,
        .syncBarWrite r b v, .dbgUnlockWrite r x v], Does i s (·.answer .keyRevoked))

/-- R355, R356, R371, R418, R419: The queue registers of a port, the monitor's mode and the debug unlock, by the requesters that may write them. -/
def Obligations.QueueAndDebugRegisters : Prop :=
  ∀ (s : State) (r : Requester) (p q : Fin 4) (i : Fin 8) (v : Word),
    let d := s.dev
    let k := 8 * q.val + i
    let base := bits v.toNat 0 48
    let log := bits v.toNat 48 4
    let en := v.toNat.testBit 52
    (d.released 8 →
      (d.queueRefusal r q = .ok → d.isSet F.ZQL_SQ_EN k = false → en = true → d.queueOk r base log 64 = true → Gives (.zqlSqWrite r q i v) s fun d' =>
        d'.get F.ZQL_SQ_BASE k = base ∧ d'.get F.ZQL_SQ_LOG2N k = log ∧ d'.isSet F.ZQL_SQ_EN k = true ∧ d'.get F.ZQL_QPTR_SQ_HEAD k = 0 ∧
          d'.get F.ZQL_QPTR_SQ_TAIL k = 0 ∧ d'.reply = (.ok, [])) ∧
      (d.queueRefusal r q = .ok → d.isSet F.ZQL_SQ_EN k = true → base ≠ d.get F.ZQL_SQ_BASE k ∨ log ≠ d.get F.ZQL_SQ_LOG2N k →
        Does (.zqlSqWrite r q i v) s (·.answer .writeRefused)) ∧
      (d.queueRefusal r q = .ok → d.isSet F.ZQL_CQ_EN k = false → en = true → d.queueOk r base log 16 = true → Gives (.zqlCqWrite r q i v) s fun d' =>
        d'.get F.ZQL_CQ_BASE k = base ∧ d'.get F.ZQL_CQ_LOG2N k = log ∧ d'.isSet F.ZQL_CQ_EN k = true ∧ d'.get F.ZQL_CQ_SIG k = bits v.toNat 53 1 ∧
          d'.get F.ZQL_CQ_PHASE k = 1 ∧ d'.get F.ZQL_QPTR_CQ_TAIL k = 0 ∧ d'.get F.ZQL_QPTR_CQ_HEAD k = 0 ∧ d'.reply = (.ok, [])) ∧
      (d.queueRefusal r q = .ok → d.isSet F.ZQL_SQ_EN k = false → d.isSet F.ZQL_CQ_EN k = false → en = true → log = 0 ∨ 12 < log →
        Does (.zqlSqWrite r q i v) s (·.answer .formatFault) ∧ Does (.zqlCqWrite r q i v) s (·.answer .formatFault)) ∧
      (Dev.partOfReq r = none → Does (.zqlSqWrite r q i v) s (·.answer .partitionDenied) ∧ Does (.zqlCqWrite r q i v) s (·.answer .partitionDenied))) ∧
    (d.released 1 →
      (d.get F.DBG_MON_CTL_MODE ≤ bits v.toNat 0 2 → bits v.toNat 0 2 < 3 → Does (.dbgMonCtlWrite .owner v) s fun d =>
        (d.put F.DBG_MON_CTL_MODE 0 (bits v.toNat 0 2)).answer .ok) ∧
      (r ≠ .owner ∨ bits v.toNat 0 2 < d.get F.DBG_MON_CTL_MODE → d.revoked r = false → Does (.dbgMonCtlWrite r v) s (·.answer .partitionDenied)) ∧
      (v.toNat.testBit 0 = true → d.revoked (.part p) = false → Does (.dbgUnlockWrite (.part p) p v) s fun d => (d.put F.DBG_UNLOCK_HELD p 1).answer .ok) ∧
      (v.toNat.testBit 0 = false → d.revoked (.part p) = false → Gives (.dbgUnlockWrite (.part p) p v) s fun d' => d'.isSet F.DBG_UNLOCK_HELD p = false ∧
        d'.get F.SYNC_DBG_MODE p ≠ 2 ∧ d'.reply = (.ok, [])) ∧
      (Dev.partOfReq r ≠ some p.val → d.revoked r = false → Does (.dbgUnlockWrite r p v) s (·.answer .partitionDenied)))

/-- R373 to R377, R379 to R382: A source starts a whole-part reset, which clears every register and leaves the fuses; it ends, with its cause in RST_STAT, once no source holds it.
A compute die's detector resets that die alone. CAUSE names the source that started the reset (log entry 42, DEDUCED). The domains are released in order after their gaps. Base
control samples the straps and starts the timebase; a compute die that is not alive is passed over; the last domain ends the sequence. Each release moves the timebase over its gap
(log entry 8, DESIGN CHOICE), and the strap's halt comes before the fuse check's (log entry 42, DEDUCED). -/
def Obligations.ResetAndRelease : Prop :=
  (∀ (s : State) (die : Fin 2),
     let d := s.dev
     let b := d.boot
     let reset (d' : Dev) (cause : Nat) : Prop := d'.regs = ⟨[]⟩ ∧ d'.cores = ⟨[]⟩ ∧ d'.evq = [] ∧ d'.fuses = d.fuses ∧ d'.boot.resetting = true ∧
       d'.boot.cause = (if b.resetting then b.cause else cause)
     Gives .pkgReset s (fun d' => reset d' 0 ∧ d'.boot.pinLow = true ∧ d'.boot.baseHeld = b.baseHeld) ∧
     Gives (.detectorTrip 0) s (fun d' => reset d' 1 ∧ d'.boot.baseHeld = true ∧ d'.boot.pinLow = b.pinLow) ∧
     Gives .refclkLoss s (fun d' => reset d' 2 ∧ d'.boot.baseHeld = true) ∧
     (b.resetting = true → b.baseHeld = false → b.cause < 4 → Gives .pkgResetRelease s fun d' =>
       d'.boot.resetting = false ∧ d'.boot.pinLow = false ∧ d'.get F.RST_STAT_CAUSE = b.cause ∧ d'.boot.domain = 0) ∧
     (b.resetting = true → b.baseHeld = true → Does .pkgResetRelease s fun d => { d.leaveBalls with boot := { b with pinLow := false } }) ∧
     (b.resetting = true → b.pinLow = false → b.cause < 4 → Gives (.detectorRelease 0) s fun d' =>
       d'.boot.resetting = false ∧ d'.boot.baseHeld = false ∧ d'.get F.RST_STAT_CAUSE = b.cause) ∧
     (∀ det : Fin 3, det.val = die.val + 1 →
       (d.isSet F.LBI_DIE_STAT_ALIVE die = true → Gives (.detectorTrip det) s fun d' => die.val ∈ d'.boot.dieHeld ∧ d'.isSet F.LBI_DIE_STAT_ALIVE die = false ∧
         d'.released (5 + die) = false ∧ d'.boot.resetting = b.resetting) ∧
       (d.isSet F.LBI_DIE_STAT_ALIVE die = false → Gives (.detectorTrip det) s fun d' => die.val ∈ d'.boot.dieHeld ∧ die.val ∉ d'.boot.alive ∧ d'.cores = d.cores ∧ d'.evq = d.evq) ∧
       Does (.detectorRelease det) s fun d => { d with boot := { b with dieHeld := b.dieHeld.filter (· ≠ die.val) } })) ∧
  (∀ (s : State) (straps : BitVec 20) (fuseOk : Bool),
     let d := s.dev
     let k := d.boot.domain
     let v := straps.toNat
     let goes (p : Dev → Prop) : Prop := Gives (.domainRelease straps fuseOk) s fun d' => d'.boot.domain = k + 1 ∧ p d'
     d.boot.resetting = false →
     (k = 0 → goes fun d' => d'.released 1 = true ∧ d'.now = 0 ∧ d'.word .RST_STRAP 0 = BitVec.ofNat 64 v ∧ d'.fabId = v % 2 ^ 16 ∧ d'.ownerPort = bits v 16 2 ∧
       d'.isSet F.TWIST_CFG_ROOT = v.testBit 18 ∧ (d'.isSet F.MGMT_BOOT_HALTED = true ↔ v.testBit 19 = true ∨ fuseOk = false ∨ d.isSet F.MGMT_BOOT_HALTED = true) ∧
       (v.testBit 19 = true → d'.get F.MGMT_BOOT_HALT_REASON = 2) ∧ (v.testBit 19 = false → fuseOk = false → d'.get F.MGMT_BOOT_HALT_REASON = 1)) ∧
     (∀ i gap, (i, gap) ∈ [(1, 20000), (2, 10000), (3, 10000), (6, 10000)] → k = i → goes fun d' => d'.released (i + 1) = true ∧ d'.now = d.now + gap ∧
       ∀ j < 8, j ≠ i → d'.released (j + 1) = d.released (j + 1)) ∧
     (k = 1 → goes fun d' => ∀ die : Fin 2, d'.isSet F.LBI_DIE_STAT_ALIVE die = (d.boot.alive.contains die.val || d.isSet F.LBI_DIE_STAT_ALIVE die)) ∧
     (∀ die : Fin 2, k = 4 + die.val → goes fun d' =>
       d'.now = d.now + (if die = 0 then 50000 else 25000) ∧
         (d.isSet F.LBI_DIE_STAT_ALIVE die = true → d'.released (5 + die) = true ∧ d'.dieReleased.get 0 die = d'.now) ∧
         (d.isSet F.LBI_DIE_STAT_ALIVE die = false → d'.regs = d.regs ∧ d'.dieReleased = d.dieReleased)) ∧
     (k = 7 → goes fun d' => d'.released 8 = true ∧ d'.isSet F.RST_STAT_SEQ_DONE = true ∧ d'.now = d.now + 10000) ∧
     (8 ≤ k → exec (.domainRelease straps fuseOk) s = .next s))

/-- R379, R380, R382, R384 to R386: The boot ROM ends its work, and an accepted image runs then: FW goes from ACCEPTED (3) to RUNNING (4), and stays what it was otherwise; a
compute die that comes back is released and joins once no partition holds its groups and its bond is trained. When the ROM's steps have ended, and what the rejoin steps wait for,
is log entry 42 (DEDUCED); a row moves the timebase to the time that the spec gives it (log entry 8, DESIGN CHOICE). -/
def Obligations.BootAndRejoin : Prop :=
  ∀ (s : State) (die : Fin 2) (objects : List (Fin 65536)) (bad : List (Fin 1152)) (bad' : List (Fin 576)),
    let d := s.dev
    let mayEnd : Prop := d.romEnded = true ∧ d.isSet F.MGMT_BOOT_HALTED = false ∧ d.isSet F.MGMT_BOOT_ROM_DONE = false
    let mayJoin : Prop := die.val ∈ d.boot.rejoin ∧ d.partsOnDie die = [] ∧ d.mayOpen die = true ∧ d.rejoinRuns = true ∧ d.railMoved die = true
    let mayRise : Prop := d.boot.resetting = false ∧ die.val ∉ d.boot.dieHeld ∧ die.val ∉ d.boot.alive
    let back : Prop := d.isSet F.LBI_DIE_STAT_LOST die = true ∨ 5 + die.val ≤ d.boot.domain
    (mayEnd → ∃ t, exec (.bootRomDone objects bad) s = .next t ∧ t.pending = s.pending ∧ t.dev.isSet F.MGMT_BOOT_ROM_DONE = true ∧
      t.dev.get F.MGMT_BOOT_FW = (if d.get F.MGMT_BOOT_FW = 3 then 4 else d.get F.MGMT_BOOT_FW) ∧ t.dev.now = d.portsEnded) ∧
    (¬ mayEnd → exec (.bootRomDone objects bad) s = .next s) ∧
    (mayRise → d.released 2 → back → Gives (.dieAliveRise die bad') s fun d' => d'.isSet F.LBI_DIE_STAT_ALIVE die = true ∧ d'.released (5 + die) = true ∧ die.val ∈ d'.boot.rejoin ∧ d'.now = d.now + 50000 ∧ d'.dieReleased.get 0 die = d'.now) ∧
    (mayRise → d.released 2 → ¬ back → Gives (.dieAliveRise die bad') s fun d' => d'.isSet F.LBI_DIE_STAT_ALIVE die = true ∧
      d'.boot = { d.boot with alive := d.boot.alive ++ [die.val] } ∧ d'.now = d.now) ∧
    (mayRise → d.released 2 = false → Gives (.dieAliveRise die bad') s fun d' => d'.boot = { d.boot with alive := d.boot.alive ++ [die.val] } ∧ d'.now = d.now ∧
      d'.isSet F.LBI_DIE_STAT_ALIVE die = d.isSet F.LBI_DIE_STAT_ALIVE die) ∧
    (¬ mayRise → exec (.dieAliveRise die bad') s = .next s) ∧
    (d.released 2 → mayJoin → ∃ t, exec (.dieRejoinResume die bad') s = .next t ∧ t.pending = s.pending ∧ t.dev.isSet F.LBI_DIE_STAT_WRAP_CLOSED die = false ∧
      t.dev.isSet F.LBI_DIE_STAT_LOST die = false ∧ die.val ∉ t.dev.boot.rejoin) ∧
    (¬ mayJoin → exec (.dieRejoinResume die bad') s = .next s)

/-- R392 to R395: The rail request bus carries one transaction at a time, a SET within its codes, steps and spacing; a bad response is tried again and the third marks the rail
failed until its retry; an alert has the status of both rails read, rail 0 first, whether or not a transaction of theirs stands failed; a low optical rail stops every control port.
What a read that fails, and the third bad response, do is log entry 43 (DEDUCED); the fused band of a SET is log entry 44 (DESIGN CHOICE). -/
def Obligations.Rails : Prop :=
  ∀ (s : State) (die : Fin 2) (cmd : Fin 5) (v : Fin 256) (r : Fin 3),
    let d := s.dev
    let ack := d.get F.RST_VREQ_ACK die
    let idle : Prop := d.boot.domain ≠ 0 ∧ d.railBusy = none ∧ die.val ∉ d.boot.failed
    let sent (cmd : Nat) : Msg := ⟨.railBus, die, [Dev.railFrame die cmd (if cmd = 1 then v else 0)]⟩
    let late : Prop := ∀ t, d.boot.setAt.find die = some t → t + 50000 ≤ d.now
    let setOk : Prop := 20 ≤ v.val ∧ v.val ≤ 120 ∧ v.val ≤ ack + 4 ∧ ack ≤ v.val + 4 ∧ late ∧ d.railInBand die ack v = true
    let bus : Prop := d.boot.reading = none ∧ d.railBusy = some die.val ∧ d.boot.rails.find die = some (cmd.val, v.val)
    let asks (i : Nat) : Prop := d.boot.reading = some i ∧ ∀ k < 2, d.boot.rails.find k = none ∨ k ∈ d.boot.failed
    let status (i : Nat) : Msg := ⟨.railBus, i, [Dev.railFrame i 4 0]⟩
    let reply (x : BitVec 32) : Prop := bits x.toNat 0 4 = die ∧ bits x.toNat 4 4 = 4 ∧ bits x.toNat 24 8 = crc8 (leBytes 3 x.toNat)
    let good (x : BitVec 32) : Prop := bits x.toNat 0 4 = die ∧ bits x.toNat 4 4 = cmd ∧ bits x.toNat 24 8 = crc8 (leBytes 3 x.toNat)
    let rest : Prop := rising d.boot.rails.entries = true
    let quiet : Prop := d.boot.alert = []
    d.released 1 →
    (idle → cmd = 1 → setOk → Gives (.railRequest die cmd v) s fun d' => d'.get F.RST_VREQ_REQ die = v ∧ d'.get F.RST_VREQ_ACK die = ack ∧ d'.out = d.out ++ [sent 1] ∧
      d'.boot.rails.find die = some (1, v.val)) ∧
    (cmd = 1 → ¬ setOk → exec (.railRequest die cmd v) s = .next s) ∧
    (idle → 2 ≤ cmd.val → Gives (.railRequest die cmd v) s fun d' => d'.regs = d.regs ∧ d'.out = d.out ++ [sent cmd] ∧ d'.boot.rails.find die = some (cmd.val, v.val)) ∧
    (∀ x, bus → good x → rest → quiet → Gives (.railResponse (some x)) s fun d' => d'.boot.rails.find die = none ∧ d'.out = d.out ∧
      (cmd = 1 → d'.get F.RST_VREQ_ACK die = bits x.toNat 8 8 ∧ d'.isSet F.RST_VREQ_FAIL die = false ∧ d'.boot.setAt.find die = some d.now) ∧
      (cmd = 3 → d'.get F.RST_VREQ_CURRENT die = bits x.toNat 8 16)) ∧
    (∀ resp, bus → (∀ x, resp = some x → ¬ good x) → d.boot.tries.get 0 die < 2 → Gives (.railResponse resp) s fun d' =>
      d'.regs = d.regs ∧ d'.out = d.out ++ [sent cmd] ∧ d'.boot.tries.get 0 die = d.boot.tries.get 0 die + 1) ∧
    (∀ resp, bus → (∀ x, resp = some x → ¬ good x) → d.boot.tries.get 0 die = 2 → quiet → Gives (.railResponse resp) s fun d' =>
      d'.isSet F.RST_VREQ_FAIL die = true ∧ die.val ∈ d'.boot.failed ∧ d'.out = d.out) ∧
    (die.val ∈ d.boot.failed → d.railBusy = none → d.boot.rails.find die = some (cmd.val, v.val) → Gives (.railRetryTimer die) s fun d' =>
      die.val ∉ d'.boot.failed ∧ d'.out = d.out ++ [sent cmd] ∧ d'.regs = d.regs) ∧
    (d.boot.domain ≠ 0 → Gives .railAlert s fun d' => d'.boot.alert = [0, 1] ∧ d'.regs = d.regs ∧
      (d.railBusy = none → d'.boot.reading = some 0 ∧ d'.out = d.out ++ [status 0]) ∧ (d.railBusy ≠ none → d'.boot.reading = d.boot.reading ∧ d'.out = d.out)) ∧
    (∀ x, asks 0 → reply x → d.boot.alert = [0, 1] → 1 ∉ d.boot.unread → die = 0 → Gives (.railResponse (some x)) s fun d' =>
      d'.isSet F.RST_VREQ_ALERT 0 = decide (bits x.toNat 9 3 ≠ 0) ∧ d'.boot.alert = [1] ∧ d'.boot.reading = some 1 ∧ d'.out = d.out ++ [status 1]) ∧
    (∀ x, asks 1 → reply x → d.boot.alert = [1] → die = 1 → Gives (.railResponse (some x)) s fun d' =>
      d'.isSet F.RST_VREQ_ALERT 1 = decide (bits x.toNat 9 3 ≠ 0) ∧ d'.boot.alert = [] ∧ d'.boot.reading = none ∧ d'.out = d.out) ∧
    (∀ resp, d.boot.reading = some die.val → (∀ x, resp = some x → ¬ reply x) →
      (d.boot.tries.get 0 die < 2 → Gives (.railResponse resp) s fun d' => d'.regs = d.regs ∧ d'.out = d.out ++ [status die] ∧ d'.boot.tries.get 0 die = d.boot.tries.get 0 die + 1) ∧
      (d.boot.tries.get 0 die = 2 → d.boot.alert = [die.val] → Gives (.railResponse resp) s fun d' => d'.isSet F.RST_VREQ_FAIL die = true ∧ d'.boot.reading = none ∧
        d'.boot.unread = d.boot.unread ++ [die.val] ∧ d'.boot.failed = d.boot.failed ∧ d'.out = d.out)) ∧
    (die.val ∈ d.boot.unread → die.val ∉ d.boot.failed → d.railBusy = none → d.boot.rails.find die = none → d.boot.alert = [die.val] → Gives (.railRetryTimer die) s fun d' =>
      die.val ∉ d'.boot.unread ∧ d'.boot.reading = some die.val ∧ d'.out = d.out ++ [status die] ∧ d'.regs = d.regs) ∧
    (r.val ∉ d.boot.lowRails → Gives (.opticalRailLow r) s fun d' => d'.light.railLow = true ∧ r.val ∈ d'.boot.lowRails ∧
      (d'.get F.RST_RAIL_STAT_RAILS).testBit (5 + r) = false ∧ ∀ p : Fin 4, d'.portUp p = false ∧ d'.get F.ZQL_PORT_STAT_ALIGNED p = 0) ∧
    (r.val ∈ d.boot.lowRails → Gives (.opticalRailReturn r) s fun d' => (d'.light.railLow = true ↔ ∃ x ∈ d.boot.lowRails, x ≠ r.val) ∧ r.val ∉ d'.boot.lowRails ∧
      (d'.get F.RST_RAIL_STAT_RAILS).testBit (5 + r) = true ∧ d'.zql = d.zql)

/-- R400 to R405, R411: A raised event waits in a queue of 256; EVENT_LOG_WRITE takes the waiting event of the first time with the lowest CLASS, CODE and UNIT, writes it as four
words at its slot, moves the head on and sends it to the owner port, and one of a partition that is ACTIVE or in NOTICE also to that partition's port. An entry that matches
EVT_FRZ_MATCH triggers FREEZE. Events of equal time count as raised together, and an entry goes to the ports that its partition is then bound to (log entry 13, DEDUCED). -/
def Obligations.EventLog : Prop :=
  ∀ (s : State) (x : Event) (d : Dev) (k : EvKind) (part unit detail : Nat) (st : Status),
    let own := s.dev.ownerPort
    let seq := s.dev.get F.EVT_LOG_HEAD_VALUE
    let f : Frame := { type := 9, data := (Dev.logWords x seq).flatMap (leBytes 8) }
    let sent (p : Nat) : Msg := ⟨.frame, p, s.dev.frameBody p (s.dev.zport p).txNext f⟩
    let open_ (p : Nat) : Prop := s.dev.canSend p = true ∧ (s.dev.zport p).held = []
    let port := s.dev.get F.ZQL_PCTL_PORT x.part
    let apart : Prop := x.part < 4 ∧ (s.dev.get F.ZQL_PCTL_STATE x.part = 1 ∨ s.dev.get F.ZQL_PCTL_STATE x.part = 2) ∧ port ≠ own
    let hit := s.dev.isSet F.EVT_FRZ_CFG_EN_MATCH && s.dev.eventMatch x
    (d.evq.length < 256 → (d.raise k part unit detail st).regs = d.regs ∧
      (d.raise k part unit detail st).evq = d.evq ++ [⟨k, part, unit, st, detail, d.now, if d.get F.TWIST_ALIGN_STATE = 0 then 0 else d.get F.TWIST_CNT_CNT⟩]) ∧
    (256 ≤ d.evq.length → d.get F.EVT_DROP_VALUE < 2 ^ 48 - 1 → (d.raise k part unit detail st).evq = d.evq ∧
      (d.raise k part unit detail st).get F.EVT_DROP_VALUE = d.get F.EVT_DROP_VALUE + 1) ∧
    (∀ (a : Event) (t : List Event), Dev.nextEvent (a :: t) = some x → x ∈ a :: t ∧ x.time = a.time ∧ ∀ y ∈ a :: t, y.time = a.time → Dev.logBefore x y = true) ∧
    (s.dev.released 1 → s.dev.evq = [] → exec .eventLogWrite s = .next s) ∧
    (s.dev.released 1 → Dev.nextEvent s.dev.evq = some x → open_ own → (apart → open_ port) → seq < 2 ^ 48 - 1 →
      (hit = false → Gives .eventLogWrite s fun d' => d'.evq = s.dev.evq.erase x ∧ d'.get F.EVT_LOG_HEAD_VALUE = seq + 1 ∧
        (∀ i < 4, some (d'.word .EVT_LOG (4 * (seq % 4096) + i)) = ((Dev.logWords x seq)[i]?).map (BitVec.ofNat 64)) ∧
        (apart → d'.out = s.dev.out ++ [sent own, sent port]) ∧ (¬ apart → d'.out = s.dev.out ++ [sent own])) ∧
      (hit = true → s.dev.get F.EVT_FRZ_CTL_STATE = 1 → Gives .eventLogWrite s fun d' => d'.get F.EVT_LOG_HEAD_VALUE = seq + 1 ∧ d'.get F.EVT_FRZ_CTL_STATE = 2 ∧
        d'.get F.EVT_FRZ_CTL_SOURCE = 1 ∧ d'.word .EVT_FRZ_TIME 0 = BitVec.ofNat 64 s.dev.now))

/-- R411 to R413: FREEZE captures at a trigger in ARMED, with the source and the time; a trigger in FROZEN joins SOURCE in the nanosecond of the capture and is counted as missed
after it; only the management processor and the owner port command it. -/
def Obligations.Freeze : Prop :=
  ∀ (s : State) (r : Requester),
    let d := s.dev
    let st := d.get F.EVT_FRZ_CTL_STATE
    let taken (src t : Nat) (d' : Dev) : Prop := d'.get F.EVT_FRZ_CTL_STATE = 2 ∧ d'.get F.EVT_FRZ_CTL_SOURCE = src ∧
      (d'.word .EVT_FRZ_TIME 0) = BitVec.ofNat 64 t ∧ d'.snaps = (d.capture d).snaps
    let missed (d' : Dev) : Prop := d'.get F.EVT_FRZ_CTL_STATE = 2 ∧ d'.snaps = d.snaps ∧ d'.get F.EVT_FRZ_MISSED_VALUE = d.get F.EVT_FRZ_MISSED_VALUE + 1
    d.released 1 →
    (Dev.whole r = true →
      Gives (.freezeArm r) s (fun d' => d'.get F.EVT_FRZ_CTL_STATE = 1 ∧ d'.reply = (.ok, []) ∧ d'.snaps = d.snaps) ∧
      (st = 0 → Does (.freezeNow r) s (·.answer .formatFault)) ∧
      (st = 1 → d.isSet F.EVT_FRZ_CFG_EN_CMD = true → Gives (.freezeNow r) s fun d' => taken 4 d.now d' ∧ d'.reply = (.ok, [])) ∧
      (st = 2 → d.isSet F.EVT_FRZ_CFG_EN_CMD = true → d.word .EVT_FRZ_TIME 0 ≠ BitVec.ofNat 64 d.now → d.get F.EVT_FRZ_MISSED_VALUE < 2 ^ 48 - 1 →
        Gives (.freezeNow r) s fun d' => missed d' ∧ d'.reply = (.ok, [])) ∧
      (st = 2 → d.isSet F.EVT_FRZ_CFG_EN_CMD = true → d.word .EVT_FRZ_TIME 0 = BitVec.ofNat 64 d.now → Nat.land (d.get F.EVT_FRZ_CTL_SOURCE) 4 = 0 →
        Gives (.freezeNow r) s fun d' => d'.snaps = d.snaps ∧ d'.get F.EVT_FRZ_MISSED_VALUE = d.get F.EVT_FRZ_MISSED_VALUE ∧
          d'.get F.EVT_FRZ_CTL_SOURCE = d.get F.EVT_FRZ_CTL_SOURCE + 4 ∧ d'.reply = (.ok, []))) ∧
    (Dev.whole r = false → d.revoked r = false → Does (.freezeArm r) s (·.answer .partitionDenied) ∧ Does (.freezeNow r) s (·.answer .partitionDenied)) ∧
    (d.isSet F.EVT_FRZ_CFG_EN_PIN = true → d.frzDrive = false → st = 1 → Gives .freezePin s fun d' => taken 8 (d.now - 10) d' ∧ d'.frzDrive = false ∧ d'.out = d.out) ∧
    (d.isSet F.EVT_FRZ_CFG_EN_PIN = false ∨ d.frzDrive = true → exec .freezePin s = .next s) ∧
    (d.frzDrive = true → Does .freezeDriveEnd s fun d => { d with frzDrive := false }.send .pin 0 [1]) ∧
    (d.frzDrive = false → exec .freezeDriveEnd s = .next s)

/-- R214, R411, R415 to R417, R420, R421: What the monitor makes of a line before it runs. While a command runs a line waits in the receive buffer of 256 bytes, cut where it does
not fit; one of more than 128 characters is answered with FORMAT_FAULT. In OFF every command but `hp` is refused, in READ_ONLY every one that writes; arguments outside R420 are
answered with FORMAT_FAULT. How a line is read as a name and arguments is log entry 40 (DESIGN CHOICE and DEDUCED). The monitor's commands. Each prints its lines and then its
status. The lines' spelling and the twelve lines of `hp` are log entry 40 (DESIGN CHOICE); a register of which nothing is performed answers `po` with OK (log entry 14, DESIGN
CHOICE), and one whose memory a margin run holds back waits (log entry 33, DEDUCED). -/
def Obligations.Monitor : Prop :=
  (∀ (s : State) (b : Text) (l : List Text) (a n : Nat) (more : List Nat),
     let d := s.dev
     let mode := d.get F.DBG_MON_CTL_MODE
     let ready : Dev := { d with mon := { d.mon with switched := false } }
     let reads : List (Instr × RxLine) := [(.pk b l, .of .pk (b :: l)), (.ev l, .of .ev l), (.sn l, .of .sn l), (.ln b l, .of .ln (b :: l)), (.so b l, .of .so (b :: l)), (.tt l, .of .tt l),
       (.bd l, .of .bd l)]
     let writes : List (Instr × RxLine) := [(.po b l, .of .po (b :: l)), (.fz l, .of .fz l), (.sr b l, .of .sr (b :: l)), (.mg b l, .of .mg (b :: l))]
     let rows := (.hp, .of .hp []) :: (reads ++ writes)
     let chars : Nat := 2 + ((b :: l).map fun t => 1 + t.length).sum
     let used : Nat := (d.mon.rx.map (·.bytes)).sum
     let calm : Prop := d.monBusy = false ∧ d.mon.rx = []
     let answers (st : Status) (i : Instr) : Prop := exec i s = .next { s with dev := ready.monEnd st }
     d.released 1 →
     (d.monBusy = true → ∀ q ∈ rows,
       (used + q.2.bytes ≤ 256 → Does q.1 s fun d => { d with mon := { d.mon with rx := d.mon.rx ++ [q.2], switched := d.mon.switched && !q.2.whole } }) ∧
       (256 < used + q.2.bytes → Gives q.1 s fun d' => ∃ y : RxLine, d'.mon.rx = d.mon.rx ++ [y] ∧ y.whole = false ∧ d'.out = d.out ∧ d'.regs = d.regs)) ∧
     (calm → ∀ q ∈ rows, q.2.whole = false → Does q.1 s (·.monEnd .formatFault)) ∧
     (∀ q ∈ [RxLine.of .pk (b :: l), .of .ln (b :: l), .of .so (b :: l), .of .po (b :: l), .of .sr (b :: l), .of .mg (b :: l)], q.bytes = chars + 1 ∧ (q.whole = true ↔ chars ≤ 128)) ∧
     (calm → mode = 2 → ∀ q ∈ reads ++ writes, q.2.whole = true → answers .partitionDenied q.1) ∧
     (calm → mode = 1 → ∀ q ∈ writes, q.2.whole = true → answers .partitionDenied q.1) ∧
     (calm → mode = 0 → chars ≤ 128 →
       (textNums (b :: l) = none → answers .formatFault (.pk b l) ∧ answers .formatFault (.po b l) ∧ answers .formatFault (.ln b l) ∧ answers .formatFault (.so b l) ∧
         answers .formatFault (.sr b l)) ∧
       (textNums l = none → answers .formatFault (.ev l) ∧ answers .formatFault (.sn l) ∧ answers .formatFault (.tt l) ∧ answers .formatFault (.bd l) ∧ answers .formatFault (.mg b l)) ∧
       (textNums (b :: l) = some [a, n] → (a % 8 ≠ 0 ∨ 2 ^ 48 ≤ a ∨ n = 0 ∨ 256 < n → answers .formatFault (.pk b l)) ∧ (a % 8 ≠ 0 ∨ 2 ^ 48 ≤ a ∨ 2 ^ 64 ≤ n → answers .formatFault (.po b l)) ∧
         (8 ≤ a ∨ 288 ≤ n → answers .formatFault (.ln b l)) ∧ (n = 0 ∨ 256 < n ∨ 65536 < a + n → answers .formatFault (.so b l)) ∧ (65536 ≤ a ∨ 2 ^ 32 ≤ n → answers .formatFault (.sr b l))) ∧
       (textNums l = some [n] → (n = 0 ∨ 4096 < n → answers .formatFault (.ev l)) ∧ (32 ≤ n → answers .formatFault (.sn l)) ∧ (n = 0 ∨ 256 < n → answers .formatFault (.tt l)) ∧
         (n ∉ [115200, 230400, 460800, 921600, 1500000, 3000000] → answers .formatFault (.bd l))) ∧
       (∀ y, textNums (b :: l) = some (a :: n :: y :: more) → answers .formatFault (.pk b l) ∧ answers .formatFault (.po b l) ∧ answers .formatFault (.ln b l) ∧
         answers .formatFault (.so b l) ∧ answers .formatFault (.sr b l)) ∧
       (textNums l = some (a :: n :: more) → answers .formatFault (.ev l) ∧ answers .formatFault (.sn l) ∧ answers .formatFault (.tt l) ∧ answers .formatFault (.bd l)) ∧
       (l ≠ ["now".toList] → l ≠ ["arm".toList] → answers .formatFault (.fz l)) ∧
       (∀ y z, textNums l = some [a, n, y, z] → 256 ≤ z ∨ 2 ≤ y ∨ (b ≠ ['h'] ∧ b ≠ ['l'] ∧ b ≠ ['b']) ∨ (b = ['h'] ∧ (256 ≤ a ∨ 2 ≤ n)) ∨ (b = ['l'] ∧ (8 ≤ a ∨ 256 ≤ n)) ∨
         (b = ['b'] ∧ (128 ≤ a ∨ 2 ≤ n)) → answers .formatFault (.mg b l)))) ∧
  (∀ (s : State) (b : Text) (l : List Text) (a n e id x win : Nat) (v y z : Nat) (now : Bool),
     let d := s.dev
     let ready : Dev := { d with mon := { d.mon with switched := false } }
     let prints (i : Instr) (l : List Msg) : Prop := Does i s fun _ => ({ ready with out := d.out ++ l }).monEnd .ok
     let line (k : MonLine) (b : List Nat) : Msg := ⟨.monitor, k.code, k.sent b⟩
     let head := d.get F.EVT_LOG_HEAD_VALUE
     let word (i : Nat) := d.readCsr .mgmt (a + 8 * i) 8
     let args := textNums (b :: l)
     let counted (a n dflt : Nat) : Prop := args = some [a, n] ∨ (n = dflt ∧ args = some [a])
     let count (n dflt : Nat) : Prop := textNums l = some [n] ∨ (n = dflt ∧ l = [])
     let target := a + x * 2 ^ 8 + y * 2 ^ 9 + z * 2 ^ 16
     d.released 1 → d.monBusy = false → d.mon.rx = [] → 2 + ((b :: l).map fun t => 1 + t.length).sum ≤ 128 →
     (d.get F.DBG_MON_CTL_MODE = 0 →
       (counted a n 1 → a % 8 = 0 → a + 8 * n ≤ 2 ^ 48 → 1 ≤ n → n ≤ 256 → (∀ i < n, (∃ o, Region.of (a + 8 * i) = .csr o) ∧ (word i).1 = .ok) →
         prints (.pk b l) ((List.range n).map fun i => line .word [a + 8 * i, (word i).2.toNat])) ∧
       (counted a 1 1 → a % 8 = 0 → a < 2 ^ 48 → (∀ o, Region.of a ≠ .csr o) → d.serves none (d.monWho a) a 8 → Clean s.mem a 8 → prints (.pk b l) [line .word [a, s.mem.nat a 8]]) ∧
       (∀ o, args = some [a, v] → v < 2 ^ 64 → a % 8 = 0 → Region.of a = .csr o →
         let w := Work.writeCsr ⟨s.mem, [], ready.answer .ok, false⟩ .mgmt a 8 v
         exec (.po b l) s = .next (if w.held then s else { s with mem := s.mem.applyAll w.log.reverse, dev := w.dev.monEnd w.dev.reply.1 })) ∧
       (count n 16 → 1 ≤ n → n ≤ 4096 → n ≤ head → prints (.ev l) ((List.range n).map fun i =>
         line .log ((head - n + i) :: (List.range 4).map fun j => (d.word .EVT_LOG (4 * ((head - n + i) % 4096) + j)).toNat))) ∧
       (l = [if now then "now".toList else "arm".toList] →
         Does (.fz l) s fun _ => (ready.writeFrzCtl .mgmt (if now then 2 else 1)).monEnd (ready.writeFrzCtl .mgmt (if now then 2 else 1)).reply.1) ∧
       (textNums l = some [win] → win < 32 → prints (.sn l) (line .frozen [d.get F.EVT_FRZ_CTL_STATE, d.get F.EVT_FRZ_CTL_SOURCE, (d.word .EVT_FRZ_TIME 0).toNat] ::
         (d.snapLines win).map (line .snapshot))) ∧
       (e < 8 → (x < 288 → args = some [e, x] → prints (.ln b l) [line .lane (d.laneLine_ e x)]) ∧
         (args = some [e] → prints (.ln b l) ((List.range 288).map fun y => line .lane (d.laneLine_ e y)))) ∧
       (counted id n 1 → 1 ≤ n → n ≤ 256 → id + n ≤ 65536 → (∀ i < n, d.mayReachObj .mgmt (id + i) 1 = true) → prints (.so b l) ((List.range n).map fun i =>
         let lo := (d.word .SYNC_OBJ_LO (id + i)).toNat
         let hi := (d.word .SYNC_OBJ_HI (id + i)).toNat
         line .object [id + i, bits lo 0 32, bits lo 32 16, bits lo 48 2, bits hi 0 16, bits hi 16 12, bits hi 28 4, bits hi 32 32])) ∧
       (counted id n 1 → d.mayReachObj .mgmt id 1 = false → 1 ≤ n → n ≤ 256 → id + n ≤ 65536 → Does (.so b l) s fun _ => ready.monEnd .partitionDenied) ∧
       (args = some [id, x] → id < 65536 → x < 2 ^ 32 → Does (.sr b l) s fun _ => (ready.writeObject .mgmt id x).monEnd (ready.writeObject .mgmt id x).reply.1) ∧
       (count n 16 → 1 ≤ n → n ≤ 256 → d.align = 0 → Does (.tt l) s fun _ => ready.monEnd .notLocked) ∧
       (count n 16 → 1 ≤ n → n ≤ 256 → d.align ≠ 0 → Gives (.tt l) s fun d' => d'.mon.ttLeft = n ∧ d'.monBusy = true ∧ d'.out = d.out) ∧
       (b = ['h'] → textNums l = some [a, x, y, z] → a < 256 → x < 2 → y < 2 → z < 256 →
         (d.isSet F.HBM_MRG_CTL_BUSY = true → Does (.mg b l) s fun _ => ready.monEnd .formatFault) ∧
         ((ready.writeHbmMrg .mgmt (Nat.lor target 1024)).reply.1 = .ok → d.isSet F.HBM_MRG_CTL_BUSY = false → Gives (.mg b l) s fun d' =>
           d'.mon.margin = some .hbm ∧ d'.monBusy = true ∧ d'.out = (ready.writeHbmMrg .mgmt (Nat.lor target 1024)).out)) ∧
       (∀ i rate, (i, rate) ∈ [(0, 115200), (1, 230400), (2, 460800), (3, 921600), (4, 1500000), (5, 3000000)] → textNums l = some [rate] → Gives (.bd l) s fun d' =>
         d'.get F.DBG_MON_CTL_BAUD = i ∧ d'.mon.switched = true ∧ d'.out = d.out ++ [line .status [0]])) ∧
     prints .hp ((List.range 12).map fun i => line .command [i]))

/-- R415, R416, R419, R422 to R425: A break ends a running command, and the lines that wait have their turn; a line with framing errors, one that is too long and one that names no
command are answered with FORMAT_FAULT; a baud rate with no command after it goes back; the instructions of the test access port shift out the registers that they select and take
the balls only while PKG_RST_N is low. -/
def Obligations.MonitorLineAndTap : Prop :=
  ∀ (s : State) (balls cells : BitVec 33) (code : Fin 256) (n chars : Nat) (line : Text),
    let d := s.dev
    let ir (i : Nat) (c : BitVec 33) (l : List Msg) (d : Dev) : Dev := { d with tap := ⟨i, c⟩, out := d.out ++ l }
    let tdo (n v : Nat) : Msg := ⟨.tdo, n, [v]⟩
    let pins (i : Nat) : List Msg := if d.boot.pinLow then (if i = 4 then [⟨.pin, 2, []⟩] else [⟨.pin, 1, Dev.ballsDriven d.tap.boundary⟩]) else []
    let calm : Prop := d.monBusy = false ∧ d.mon.rx = []
    let aborted : Msg := ⟨.monitor, 11, MonLine.sent .aborted []⟩
    (d.released 1 →
      (d.mon.rx = [] → Gives (.monitorBreak .break_) s fun d' => d'.monBusy = false ∧ d'.mon.ttLeft = 0 ∧ d'.mon.margin = none ∧ d'.out = d.out ++ [aborted]) ∧
      (d.mon.rx = [.of .hp []] → Gives (.monitorBreak .break_) s fun d' => d'.monBusy = false ∧ d'.mon.rx = [] ∧
        d'.out = d.out ++ aborted :: ((List.range 12).map fun i => ⟨.monitor, 10, MonLine.sent .command [i]⟩) ++ [⟨.monitor, 0, MonLine.sent .status [0]⟩]) ∧
      (calm → d.get F.DBG_MON_ERR_VALUE + n < 2 ^ 48 → Gives (.monitorBreak (.framing n chars)) s fun d' => d'.get F.DBG_MON_ERR_VALUE = d.get F.DBG_MON_ERR_VALUE + n ∧
        d'.out = d.out ++ [⟨.monitor, 0, MonLine.sent .status [13]⟩]) ∧
      (calm → line.length ≤ 128 → Does (.monitorBreak (.other line)) s fun d => { d with mon := { d.mon with switched := false } }.monEnd .formatFault) ∧
      (calm → 128 < line.length → Does (.monitorBreak (.other line)) s (·.monEnd .formatFault)) ∧
      (d.mon.switched = true → Gives .baudRevert s fun d' => d'.get F.DBG_MON_CTL_BAUD = 0 ∧ d'.mon.switched = false) ∧
      (d.mon.switched = false → exec .baudRevert s = .next s)) ∧
    Does .tapReset s (ir 1 d.tap.boundary []) ∧
    Does .idcode s (ir 1 d.tap.boundary [tdo 0 1, tdo 32 0x051214B7]) ∧
    Does (.samplePreload balls cells) s (ir 2 cells [tdo 0 1, tdo 33 balls.toNat]) ∧
    (d.boot.pinLow = true → Does (.extest balls cells) s (ir 0 cells [tdo 0 1, tdo 33 balls.toNat, ⟨.pin, 1, Dev.ballsDriven cells⟩])) ∧
    (d.boot.pinLow = false → Does (.extest balls cells) s (ir 0 d.tap.boundary [tdo 0 1, tdo 1 0])) ∧
    Does .clamp s (ir 3 d.tap.boundary ([tdo 0 1, tdo 1 0] ++ pins 3)) ∧
    Does .highz s (ir 4 d.tap.boundary ([tdo 0 1, tdo 1 0] ++ pins 4)) ∧
    Does (.bypass code) s (ir code d.tap.boundary [tdo 0 1, tdo 1 0])

/-- A step takes the command at the front of the queue and is that command on the state with the queue's rest. With nothing waiting a nanosecond of the timebase passes once base
control has been released (R183; the model's choice, notes/assumptions/1.md). -/
def Obligations.StepRunsTheFrontCommand : Prop :=
  ∀ (s : State) (c : Instr) (rest : List Instr),
    (s.pending = c :: rest → step s = exec c { s with pending := rest }) ∧
    (s.pending = [] → s.dev.released 1 = true → step s = .next (s.on fun d => { d with now := d.now + 1 })) ∧
    (s.pending = [] → s.dev.released 1 = false → step s = .next s)

/-- Every command of the block answers a next state in every state, with the queue as it was: none faults and none is refused. -/
def Obligations.EveryCommandAnswers : Prop :=
  ∀ (c : Instr) (s : State), ∃ t, exec c s = .next t ∧ t.pending = s.pending

/-- R8, R369, R373, R376: Right after reset every register reads its Reset value, no command waits, memory has its canonical form with nothing listed, no core runs, and no domain
but the part's reset logic is released. Fields shown as a dash read zero (log entry 3), the state behind the registers is empty (log entry 4) and a store's bytes read zero (log
entry 6): the model's choices (DESIGN CHOICE). -/
def Obligations.ResetState : Prop :=
  let d := State.reset.dev
  State.reset.Inv ∧ State.reset.pending = [] ∧ State.reset.mem.cells = [] ∧ (∀ r i, d.word r i = r.reset i) ∧ (∀ c i, (d.core c).run = .idle ∧ (d.core c).pc = 0 ∧ (d.core c).reg i = 0 ∧ (d.core c).mgen = 1 ∧ (d.core c).vgen = 1) ∧
    (∀ k, d.released k = true ↔ k = 0) ∧ d.get F.MGMT_BOOT_FW = 0 ∧ d.evq = [] ∧ (∀ c a, c < 1024 → a < 0x180000 → State.reset.mem.byte (underBase c + a) = 0)

/-- Memory keeps its canonical form over every step from every state that has it: addresses rise strictly, no zero byte of a store is listed, and no word has both kinds of error.
-/
def Obligations.MemoryKeepsItsForm : Prop :=
  ∀ s t : State, s.Inv → step s = .next t → t.Inv

/-- R4, R84, R398: What a change of memory does to the bytes and to the words with errors. -/
def Obligations.MemoryChanges : Prop :=
  ∀ (m : Mem) (a b w n : Nat) (bs : List Byte), m.wf = true →
    (∀ i (h : i < bs.length), (m.apply (.bytes a bs)).byte (a + i) = bs[i]) ∧
    (b < a ∨ a + bs.length ≤ b → (m.apply (.bytes a bs)).byte b = m.byte b) ∧
    (w ∈ (m.apply (.bytes a bs)).bad ↔ w ∈ m.bad ∧ ¬ (a ≤ 4 * w ∧ 4 * w + 4 ≤ a + bs.length)) ∧
    (hbmTop ≤ a → (m.apply (.zero a n)).byte b = if a ≤ b ∧ b < a + n then 0 else m.byte b) ∧
    (w ∈ (m.apply (.poison w)).bad ∧ w ∉ (m.apply (.poison w)).soft ∧ (m.apply (.poison w)).byte b = m.byte b) ∧
    (w ∉ (m.apply (.heal w)).soft ∧ (m.apply (.heal w)).bad = m.bad) ∧
    (m.apply (.bytes a (leBytes 8 n))).nat a 8 = n % 2 ^ 64

/-- R82: The top of an under-core slot holds no store, and a store's address belongs to one of the 1,024 cores. -/
def Obligations.UnderCoreHoles : Prop :=
  ∀ (w : Work) (who : Option Nat) (reader c off n : Nat) (bs : List Byte),
    let a := 0x10000000000 + 0x200000 * c + off
    (c < 1024 → 0x180000 ≤ off → off < 0x200000 →
      w.load who reader a n = (w, .formatFault, a, []) ∧ w.store who reader a bs = (w, .formatFault, a)) ∧
    (∀ b k o, Region.of b = .under k o ∨ Region.of b = .bobbin k o → k < 1024)

/-- R179: HBM in a valid range answers the partition that holds it and no other; HBM in no valid range answers only the management processor and the owner port. Any other access is
answered with PARTITION_DENIED. -/
def Obligations.HbmRanges : Prop :=
  ∀ (d : Dev) (who : Option Nat) (a : Nat), a < hbmTop →
    (d.reachAt who a = .partitionDenied ↔ d.partOfHbm a ≠ who) ∧
    (∀ p, d.partOfHbm a = some p → d.isSet F.HBM_PART_VALID p = true ∧ d.get F.HBM_PART_BASE p * 2 ^ 34 ≤ a ∧
      a < (d.get F.HBM_PART_BASE p + d.get F.HBM_PART_SIZE p) * 2 ^ 34) ∧
    (d.partOfHbm a = none → ∀ p < 4, d.isSet F.HBM_PART_VALID p = true → a < d.get F.HBM_PART_BASE p * 2 ^ 34 ∨
      (d.get F.HBM_PART_BASE p + d.get F.HBM_PART_SIZE p) * 2 ^ 34 ≤ a)

/-- R379: While no domain is released, a command that the reset logic, the reset sources, the rails' monitor or the test access port do not perform changes nothing. -/
def Obligations.HeldDomainsPerformNothing : Prop :=
  ∀ (c : Instr) (s : State), s.dev.get F.RST_STAT_DOMAINS = 0 →
    (match c with
      | .pkgReset | .pkgResetRelease | .detectorTrip _ | .detectorRelease _ | .refclkLoss | .domainRelease _ _ | .bootRomDone _ _ | .dieAliveFall _ | .dieAliveRise _ _ | .hbmRailOutOfTolerance _ | .tapReset
      | .extest _ _ | .idcode | .samplePreload _ _ | .clamp | .highz | .bypass _ => False
      | _ => True) → exec c s = .next s

/-- R6 to R9, R407, R409: A REGISTER_WRITE of an address that holds no register, or of another size than 8 bytes, is answered with FORMAT_FAULT; a write of a snapshot changes
nothing; any other runs the write operation of its register. A write of a register without an operation of its own is denied to a requester that may not write it, and else answers
OK: the register takes the value in its RW fields and the shadow of its SH fields, keeps its RO and WO fields, clears W1C bits by ones, a counter is zeroed, and everything else
stays: a shadow takes effect at its block's commit. A write of a register that a row of its own writes is that row. Who may write a register, the answer to a snapshot write and the
silence of a domain that is not released are log entry 14 (DEDUCED and DESIGN CHOICE). -/
def Obligations.RegisterWrites : Prop :=
  ∀ (s : State) (q : Requester) (a : Fin 4398046511104) (size : Fin 65) (v : Word) (r : Reg) (i : Nat),
    let d := s.dev
    let i' := Instr.registerWrite q a size v
    let alike (r : Reg) (k : Nat) (c : Instr) : Prop := Reg.find a = some (r, false, k) → exec i' s = exec c s
    (d.released 1 → d.revoked q = false →
      (Reg.find a = none ∨ size.val ≠ 8 → Does i' s (·.answer .formatFault)) ∧
      (Reg.find a = some (r, false, i) → size.val = 8 → d.released r.domain = true → Works i' s (·.writeReg q r i v.toNat)) ∧
      (Reg.find a = some (r, true, i) → size.val = 8 → d.released r.domain = true →
        Does i' s (·.answer (d.writeAccess q r i)) ∧
          (r.hasWrite = false → Does i' s (·.answer (if d.mayWritePlain q r i then .ok else .partitionDenied))) ∧
          (r ∈ [.FAB_PLAN_CTL, .PLY_STEP, .PLY_STEP_CTL, .PLY_LS, .TWIST_PHASE_BASE] → Does i' s (·.answer (if ownPart q i then .ok else .partitionDenied))) ∧
          (r = .CORE_CTL → Does i' s (·.answer (if d.mayWriteCore q i then .ok else .partitionDenied))) ∧ (r = .ZQL_SQ ∨ r = .ZQL_CQ → Does i' s (·.answer (d.queueRefusal q (i / 8))))) ∧
      (∀ snap, Reg.find a = some (r, snap, i) → size.val = 8 → d.released r.domain = false → exec i' s = .next s)) ∧
    (d.released 1 → d.revoked q = false → size.val = 8 → ∀ (p : Fin 4) (e : Fin 8) (f : Fin 18) (m : Fin 24) (j : Fin 64) (b : Fin 4096) (id : Fin 65536) (pm : Fin 1152) (fs : Fin 576),
      alike .HBM_CFG 0 (.hbmCfgWrite q v) ∧ alike .HBM_PART p (.hbmPartWrite q p v) ∧ alike .TWIST_CFG 0 (.twistCfgWrite q v) ∧ alike .SYNC_BAR b (.syncBarWrite q b v) ∧
      alike .SYNC_DBG p (.syncDbgWrite q p v) ∧ alike .SYNC_OBJ_LO id (.repairWrite q id v) ∧ alike .FAB_PMAP pm (.fabPmapWrite q pm v) ∧ alike .FAB_FSLOT fs (.fabFslotWrite q fs v) ∧
      alike .FAB_TRN j (.fabTrnWrite q j v) ∧ alike .LANE_RXPERM (18 * e + f) (.laneRxpermWrite q e f v) ∧ alike .OPT_BASELINE (24 * e + m) (.optBaselineWrite q e m v) ∧
      alike .PLY_PSLOT (4 * e + p) (.plyPslotWrite q e p v) ∧ alike .PLY_STEP p (.plyStepWrite q p v) ∧ alike .PLY_LS p (.plyLsWrite q p v) ∧
      alike .ZQL_SQ (8 * p + e) (.zqlSqWrite q p e v) ∧ alike .ZQL_CQ (8 * p + e) (.zqlCqWrite q p e v) ∧ alike .DBG_MON_CTL 0 (.dbgMonCtlWrite q v) ∧
      alike .DBG_UNLOCK p (.dbgUnlockWrite q p v)) ∧
    (d.mayWritePlain q r i = false → d.writePlain q r i v.toNat = d.answer .partitionDenied) ∧
    (d.released 1 → d.revoked q = false → Reg.find a = some (r, false, i) → size.val = 8 → d.released r.domain = true → r.hasWrite = false → d.mayWritePlain q r i = false →
      Does i' s (·.answer .partitionDenied)) ∧
    (d.released 1 → d.revoked q = false → Reg.find a = some (r, false, i) → size.val = 8 → d.released r.domain = true → r.hasWrite = false → d.mayWritePlain q r i = true →
      (r.ofCore && d.dieClosed i) = false → d.plainStatus r i v.toNat = .ok → r ∉ [.EVT_LOG_HEAD, .TWIST_SLIPS, .TWIST_PHASE_IDX] → Gives i' s fun d' =>
      let old := (d.word r i).toNat
      let now := (d'.word r i).toNat
      d' = { d with regs := d'.regs, reply := (.ok, []) } ∧ (r.isCounter = true → now = 0) ∧
        (r.isCounter = false → ∀ f ∈ r.fields, (f.acc = .rw ∨ f.acc = .sh → bits now f.lo (f.hi - f.lo + 1) = bits v.toNat f.lo (f.hi - f.lo + 1)) ∧
          (f.acc = .ro ∨ f.acc = .wo → bits now f.lo (f.hi - f.lo + 1) = bits old f.lo (f.hi - f.lo + 1)) ∧
          (f.acc = .w1c → now.testBit f.lo = (old.testBit f.lo && !v.toNat.testBit f.lo))) ∧
        ∀ (r' : Reg) (j : Nat), i < r.info.copies * r.info.count → j < r'.info.copies * r'.info.count → r' ≠ r ∨ j ≠ i → d'.word r' j = d.word r' j)

end Statements
end

