-- ==== Sys2Proof/Laws/Table.lean ====
section
/-!
SUPPORT. Tables, bit fields and register fields: what a read gives after a write.
-/

namespace Sys2Proof

/-! ### Tables -/

theorem lookupKey_insertKey {α : Type} (k j : Nat) (v : α) (l : List (Nat × α)) :
    lookupKey j (insertKey k v l) = if j = k then some v else lookupKey j l := by
  induction l with
  | nil => by_cases h : j = k <;> simp [insertKey, lookupKey, h]
  | cons x t ih =>
    obtain ⟨k', v'⟩ := x
    simp only [insertKey]
    split
    · by_cases h : j = k <;> simp [lookupKey, h]
    · split
      · rename_i h1 h2
        subst h2
        by_cases h : j = k <;> simp [lookupKey, h]
      · rename_i h1 h2
        simp only [lookupKey, ih]
        by_cases h : j = k
        · subst h; simp [h2]
        · simp [h]

theorem insertKey_insertKey {α : Type} (k : Nat) (v v' : α) (l : List (Nat × α)) :
    insertKey k v (insertKey k v' l) = insertKey k v l := by
  induction l with
  | nil => simp [insertKey]
  | cons x t ih =>
    obtain ⟨k', w⟩ := x
    simp only [insertKey]
    split
    · simp [insertKey]
    · split
      · rename_i h1 h2; simp [insertKey]
      · rename_i h1 h2; simp [insertKey, h1, h2, ih]

@[simp] theorem Tab.get_set_same {α : Type} (t : Tab α) (d : α) (k : Nat) (v : α) : (t.set k v).get d k = v := by
  simp [Tab.get, Tab.set, Tab.find, lookupKey_insertKey]

theorem Tab.get_set_other {α : Type} (t : Tab α) (d : α) {k j : Nat} (v : α) (h : j ≠ k) : (t.set k v).get d j = t.get d j := by
  simp [Tab.get, Tab.set, Tab.find, lookupKey_insertKey, h]

@[simp] theorem Tab.set_set {α : Type} (t : Tab α) (k : Nat) (v v' : α) : (t.set k v).set k v' = t.set k v' := by
  simp [Tab.set, insertKey_insertKey]

/-! ### Bit fields -/

theorem putBits_eq (v lo w x : Nat) : putBits v lo w x = v % 2 ^ lo + (x % 2 ^ w + v / 2 ^ (lo + w) * 2 ^ w) * 2 ^ lo := by
  have h1 : v = v % 2 ^ lo + v / 2 ^ lo * 2 ^ lo := by rw [Nat.mul_comm]; exact (Nat.mod_add_div _ _).symm
  have h2 : v / 2 ^ lo = v / 2 ^ lo % 2 ^ w + v / 2 ^ (lo + w) * 2 ^ w := by
    rw [Nat.pow_add, ← Nat.div_div_eq_div_mul, Nat.mul_comm]; exact (Nat.mod_add_div _ _).symm
  have h3 : v - bits v lo w * 2 ^ lo = v % 2 ^ lo + v / 2 ^ (lo + w) * 2 ^ w * 2 ^ lo := by
    have e : v = v % 2 ^ lo + (v / 2 ^ lo % 2 ^ w + v / 2 ^ (lo + w) * 2 ^ w) * 2 ^ lo := by rw [← h2]; exact h1
    have e2 : (v / 2 ^ lo % 2 ^ w + v / 2 ^ (lo + w) * 2 ^ w) * 2 ^ lo =
        v / 2 ^ lo % 2 ^ w * 2 ^ lo + v / 2 ^ (lo + w) * 2 ^ w * 2 ^ lo := Nat.add_mul _ _ _
    simp only [bits]
    omega
  rw [putBits, h3, Nat.add_mul]
  omega

/-- A field reads back the bits that were put into it. -/
theorem bits_putBits_same (v lo w x : Nat) : bits (putBits v lo w x) lo w = x % 2 ^ w := by
  rw [putBits_eq, bits, Nat.add_mul_div_right _ _ (Nat.two_pow_pos lo), Nat.div_eq_of_lt (Nat.mod_lt _ (Nat.two_pow_pos lo)), Nat.zero_add,
    Nat.add_mul_mod_self_right, Nat.mod_mod]

/-- A field below the one that was put stays. -/
theorem bits_putBits_below (v lo w x lo' w' : Nat) (h : lo' + w' ≤ lo) : bits (putBits v lo w x) lo' w' = bits v lo' w' := by
  obtain ⟨n, rfl⟩ := Nat.le.dest h
  rw [putBits_eq]
  simp only [bits]
  have e : ∀ y : Nat, (v % 2 ^ (lo' + w' + n) + y * 2 ^ (lo' + w' + n)) / 2 ^ lo' % 2 ^ w' = v / 2 ^ lo' % 2 ^ w' := by
    intro y
    have e1 : y * 2 ^ (lo' + w' + n) = y * 2 ^ n * 2 ^ w' * 2 ^ lo' := by
      rw [Nat.pow_add, Nat.pow_add]; ac_rfl
    rw [e1, Nat.add_mul_div_right _ _ (Nat.two_pow_pos lo'), Nat.add_mul_mod_self_right]
    rw [Nat.add_assoc lo' w' n, Nat.pow_add 2 lo', Nat.mod_mul_right_div_self, Nat.pow_add, Nat.mod_mul_right_mod]
  exact e _

/-- A field above the one that was put stays. -/
theorem bits_putBits_above (v lo w x lo' w' : Nat) (h : lo + w ≤ lo') : bits (putBits v lo w x) lo' w' = bits v lo' w' := by
  obtain ⟨n, rfl⟩ := Nat.le.dest h
  rw [putBits_eq]
  simp only [bits]
  congr 1
  have e : 2 ^ (lo + w + n) = 2 ^ lo * (2 ^ w * 2 ^ n) := by rw [Nat.pow_add, Nat.pow_add, Nat.mul_assoc]
  have e' : v / 2 ^ (lo + w) / 2 ^ n = v / 2 ^ (lo + w + n) := by rw [Nat.div_div_eq_div_mul, ← Nat.pow_add]
  rw [← e', e, ← Nat.div_div_eq_div_mul, ← Nat.div_div_eq_div_mul, Nat.add_mul_div_right _ _ (Nat.two_pow_pos lo),
    Nat.div_eq_of_lt (Nat.mod_lt _ (Nat.two_pow_pos lo)), Nat.zero_add, Nat.add_mul_div_right _ _ (Nat.two_pow_pos w),
    Nat.div_eq_of_lt (Nat.mod_lt _ (Nat.two_pow_pos w)), Nat.zero_add]

/-- A put within `n` bits stays within them. -/
theorem putBits_lt (v lo w x n : Nat) (hv : v < 2 ^ n) (h : lo + w ≤ n) : putBits v lo w x < 2 ^ n := by
  obtain ⟨m, rfl⟩ := Nat.le.dest h
  rw [putBits_eq]
  have h1 : v % 2 ^ lo < 2 ^ lo := Nat.mod_lt _ (Nat.two_pow_pos lo)
  have h2 : x % 2 ^ w < 2 ^ w := Nat.mod_lt _ (Nat.two_pow_pos w)
  have h3 : v / 2 ^ (lo + w) < 2 ^ m := by
    rw [Nat.div_lt_iff_lt_mul (Nat.two_pow_pos _), ← Nat.pow_add, Nat.add_comm]; exact hv
  have h4 : x % 2 ^ w + v / 2 ^ (lo + w) * 2 ^ w < 2 ^ m * 2 ^ w := by
    have : (v / 2 ^ (lo + w) + 1) * 2 ^ w ≤ 2 ^ m * 2 ^ w := Nat.mul_le_mul_right _ h3
    rw [Nat.add_mul, Nat.one_mul] at this
    omega
  have h5 : (x % 2 ^ w + v / 2 ^ (lo + w) * 2 ^ w + 1) * 2 ^ lo ≤ 2 ^ m * 2 ^ w * 2 ^ lo := Nat.mul_le_mul_right _ h4
  rw [Nat.add_mul _ 1, Nat.one_mul] at h5
  have h6 : 2 ^ (lo + w + m) = 2 ^ m * 2 ^ w * 2 ^ lo := by rw [Nat.pow_add, Nat.pow_add]; ac_rfl
  omega

namespace Machine

/-! ### Register fields -/

/-- The registers' address ranges do not meet: two different registers of one window lie in disjoint ranges, or interleave with one stride. -/
def apart (a b : RegInfo) : Bool :=
  decide (a.win + a.copies ≤ b.win) || decide (b.win + b.copies ≤ a.win) ||
    decide (a.off + a.stride * a.count ≤ b.off) || decide (b.off + b.stride * b.count ≤ a.off) ||
    (decide (a.stride = b.stride) && decide (a.off % a.stride ≠ b.off % b.stride))

/-- A register's copies fit in its windows. -/
def fits (a : RegInfo) : Bool := decide (0 < a.count) && decide (0 < a.stride) && decide (a.off + a.stride * a.count ≤ 0x1000000)

/-- How many words a register has. -/
def Reg.total (r : Reg) : Nat := r.info.copies * r.info.count

theorem fits_all (r : Reg) : fits r.info = true := by cases r <;> rfl

theorem contains_all (r : Reg) : Reg.all.contains r = true := by cases r <;> rfl

theorem apart_pairs : (Reg.all.all fun a => Reg.all.all fun b => decide (a = b) || apart a.info b.info) = true := by decide +kernel

/-- Two registers of the tables never share an address. -/
theorem apart_all (r r' : Reg) (h : r ≠ r') : apart r.info r'.info = true := by
  have h1 := List.all_eq_true.mp apart_pairs r (List.contains_iff_mem.mp (contains_all r))
  have h2 := List.all_eq_true.mp h1 r' (List.contains_iff_mem.mp (contains_all r'))
  simpa [h] using h2

theorem addr_base (r : Reg) (i : Nat) (h : i < r.total) :
    ∃ c j, c < r.info.copies ∧ j < r.info.count ∧ i = c * r.info.count + j ∧
      r.addr i = 0x01C000000000 + (r.info.win + c) * 0x1000000 + r.info.off + r.info.stride * j := by
  have hf := fits_all r
  simp only [fits, Bool.and_eq_true, decide_eq_true_eq] at hf
  refine ⟨i / r.info.count, i % r.info.count, ?_, Nat.mod_lt _ hf.1.1, ?_, rfl⟩
  · rw [Nat.div_lt_iff_lt_mul hf.1.1]; exact h
  · rw [Nat.mul_comm]; exact (Nat.div_add_mod _ _).symm

/-- Words of registers lie at different addresses when the registers or their numbers differ. -/
theorem addr_ne {r r' : Reg} {i i' : Nat} (hi : i < r.total) (hi' : i' < r'.total) (h : r ≠ r' ∨ i ≠ i') : r.addr i ≠ r'.addr i' := by
  obtain ⟨c, j, hc, hj, ei, ea⟩ := addr_base r i hi
  obtain ⟨c', j', hc', hj', ei', ea'⟩ := addr_base r' i' hi'
  have hf := fits_all r
  have hf' := fits_all r'
  simp only [fits, Bool.and_eq_true, decide_eq_true_eq] at hf hf'
  have hm : r.info.stride * j + r.info.stride ≤ r.info.stride * r.info.count := by
    rw [← Nat.mul_succ]; exact Nat.mul_le_mul_left _ hj
  have hm' : r'.info.stride * j' + r'.info.stride ≤ r'.info.stride * r'.info.count := by
    rw [← Nat.mul_succ]; exact Nat.mul_le_mul_left _ hj'
  rw [ea, ea']
  intro e
  have hw : r.info.win + c = r'.info.win + c' ∧ r.info.off + r.info.stride * j = r'.info.off + r'.info.stride * j' := by omega
  by_cases hr : r = r'
  · subst hr
    have hcc : c = c' := by omega
    have hjj : j = j' := Nat.eq_of_mul_eq_mul_left hf.1.2 (by omega)
    rcases h with h | h
    · exact h rfl
    · exact h (by rw [ei, ei', hcc, hjj])
  · have ha := apart_all r r' hr
    simp only [apart, Bool.or_eq_true, Bool.and_eq_true, decide_eq_true_eq] at ha
    rcases ha with ((((ha | ha) | ha) | ha) | ⟨hs, hn⟩)
    · omega
    · omega
    · omega
    · omega
    · have h1 := congrArg (· % r.info.stride) hw.2
      simp only [Nat.add_mul_mod_self_left] at h1
      rw [hs] at h1
      simp only [Nat.add_mul_mod_self_left] at h1
      rw [← hs] at h1 hn
      exact hn h1

/-- A field's bits lie within its register. -/
abbrev Fld.Fits (f : Fld) : Prop := f.lo + f.width ≤ 64

theorem word_put (d : Dev) (f : Fld) (i v : Nat) (h : f.Fits) :
    ((d.put f i v).word f.reg i).toNat = putBits (d.word f.reg i).toNat f.lo f.width v := by
  have := putBits_lt (d.word f.reg i).toNat f.lo f.width v 64 (d.word f.reg i).isLt h
  simpa [Dev.put, Dev.setWord, Dev.word] using this

/-- A field reads back what was put into it. -/
theorem get_put_same (d : Dev) (f : Fld) (i v : Nat) (h : f.Fits) : (d.put f i v).get f i = v % 2 ^ f.width := by
  simp only [Dev.get, word_put d f i v h, bits_putBits_same]

/-- Another field of the same word stays. -/
theorem get_put_field (d : Dev) (f g : Fld) (i v : Nat) (h : f.Fits) (hr : g.reg = f.reg)
    (hd : g.lo + g.width ≤ f.lo ∨ f.lo + f.width ≤ g.lo) : (d.put f i v).get g i = d.get g i := by
  simp only [Dev.get, hr, word_put d f i v h]
  rcases hd with hd | hd
  · exact bits_putBits_below _ _ _ _ _ _ hd
  · exact bits_putBits_above _ _ _ _ _ _ hd

/-- Every other word stays. -/
theorem word_setWord_other (d : Dev) {r r' : Reg} {i j : Nat} (v : Word) (hi : i < r.total) (hj : j < r'.total) (h : r' ≠ r ∨ j ≠ i) :
    (d.setWord r i v).word r' j = d.word r' j := by
  simp [Dev.setWord, Dev.word, Tab.get_set_other _ _ _ (addr_ne hj hi h)]

theorem get_put_other (d : Dev) {f g : Fld} {i j : Nat} (v : Nat) (hi : i < f.reg.total) (hj : j < g.reg.total) (h : g.reg ≠ f.reg ∨ j ≠ i) :
    (d.put f i v).get g j = d.get g j := by
  simp only [Dev.get, Dev.put, word_setWord_other d _ hi hj h]

@[simp] theorem word_setWord_same (d : Dev) (r : Reg) (i : Nat) (v : Word) : (d.setWord r i v).word r i = v := by
  simp [Dev.setWord, Dev.word]

end Machine

end Sys2Proof
end

