-- ==== Sys2Proof/Laws/Memory.lean ====
section
/-!
SUPPORT. Memory: every change keeps its canonical form, and a byte that is written reads back.
-/

namespace Sys2Proof

/-! ### Rising lists -/

theorem rising_iff {α : Type} (l : List (Nat × α)) : rising l = true ↔ l.Pairwise fun a b => a.1 < b.1 := by
  induction l with
  | nil => simp [rising]
  | cons x t ih =>
    obtain ⟨k, v⟩ := x
    cases t with
    | nil => simp [rising]
    | cons y t =>
      obtain ⟨k', v'⟩ := y
      rw [rising, Bool.and_eq_true, ih, decide_eq_true_iff]
      refine ⟨fun ⟨hk, h⟩ => List.pairwise_cons.2 ⟨fun a ha => ?_, h⟩, fun h => ⟨(List.pairwise_cons.1 h).1 (k', v') (by simp), (List.pairwise_cons.1 h).2⟩⟩
      rcases List.mem_cons.1 ha with rfl | ha
      · exact hk
      · exact Nat.lt_trans hk ((List.pairwise_cons.1 h).1 a ha)

theorem mem_insertKey {α : Type} {k : Nat} {v : α} {l : List (Nat × α)} {x : Nat × α} (h : x ∈ insertKey k v l) : x = (k, v) ∨ x ∈ l := by
  induction l with
  | nil => simpa [insertKey] using h
  | cons y t ih =>
    obtain ⟨k', v'⟩ := y
    simp only [insertKey] at h
    split at h
    · simpa using h
    · split at h
      · rcases List.mem_cons.1 h with h | h
        · exact .inl h
        · exact .inr (List.mem_cons_of_mem _ h)
      · rcases List.mem_cons.1 h with h | h
        · exact .inr (h ▸ List.mem_cons_self)
        · exact (ih h).imp id (List.mem_cons_of_mem _)

/-- Putting a value into a table with rising keys keeps them rising. -/
theorem rising_insertKey {α : Type} (k : Nat) (v : α) {l : List (Nat × α)} (h : rising l = true) : rising (insertKey k v l) = true := by
  rw [rising_iff] at h ⊢
  induction l with
  | nil => simp [insertKey]
  | cons y t ih =>
    obtain ⟨k', v'⟩ := y
    obtain ⟨h1, h2⟩ := List.pairwise_cons.1 h
    simp only [insertKey]
    split
    · rename_i hk
      refine List.pairwise_cons.2 ⟨fun a ha => ?_, h⟩
      rcases List.mem_cons.1 ha with rfl | ha
      · exact hk
      · exact Nat.lt_trans hk (h1 a ha)
    · split
      · rename_i hk; subst hk; exact List.pairwise_cons.2 ⟨fun a ha => h1 a ha, h2⟩
      · rename_i hk hk'
        refine List.pairwise_cons.2 ⟨fun a ha => ?_, ih h2⟩
        rcases mem_insertKey ha with rfl | ha
        · show k' < k; omega
        · exact h1 a ha

theorem eraseKey_sublist {α : Type} (k : Nat) (l : List (Nat × α)) : (eraseKey k l).Sublist l := by
  induction l with
  | nil => simp [eraseKey]
  | cons y t ih =>
    obtain ⟨k', v'⟩ := y
    simp only [eraseKey]
    split
    · exact List.sublist_cons_self _ _
    · exact ih.cons_cons _

/-- Taking a key out keeps the keys rising. -/
theorem rising_eraseKey {α : Type} (k : Nat) {l : List (Nat × α)} (h : rising l = true) : rising (eraseKey k l) = true := by
  rw [rising_iff] at h ⊢; exact h.sublist (eraseKey_sublist k l)

/-- After a key is taken out of a list with rising keys it is not listed, and the others are as before. -/
theorem lookupKey_eraseKey {α : Type} (k j : Nat) {l : List (Nat × α)} (h : rising l = true) :
    lookupKey j (eraseKey k l) = if j = k then none else lookupKey j l := by
  rw [rising_iff] at h
  induction l with
  | nil => simp [eraseKey, lookupKey]
  | cons y t ih =>
    obtain ⟨k', v'⟩ := y
    obtain ⟨h1, h2⟩ := List.pairwise_cons.1 h
    simp only [eraseKey]
    split
    · rename_i hk
      subst hk
      by_cases hj : j = k
      · subst hj
        have none_of (l : List (Nat × α)) (hl : ∀ a ∈ l, j < a.1) : lookupKey j l = none := by
          induction l with
          | nil => rfl
          | cons z l ih' =>
            obtain ⟨q, u⟩ := z
            have : j < q := hl (q, u) (by simp)
            simp only [lookupKey]
            rw [if_neg (by omega)]
            exact ih' fun a ha => hl a (List.mem_cons_of_mem _ ha)
        simp [none_of t h1]
      · simp [lookupKey, hj]
    · rename_i hk
      simp only [lookupKey, ih h2]
      by_cases hj : j = k
      · subst hj; simp [hk]
      · simp [hj]

namespace Machine

theorem risingNat_iff (l : List Nat) : risingNat l = true ↔ l.Pairwise (· < ·) := by
  induction l with
  | nil => simp [risingNat]
  | cons x t ih =>
    cases t with
    | nil => simp [risingNat]
    | cons y t =>
      rw [risingNat, Bool.and_eq_true, ih, decide_eq_true_iff]
      refine ⟨fun ⟨hk, h⟩ => List.pairwise_cons.2 ⟨fun a ha => ?_, h⟩, fun h => ⟨(List.pairwise_cons.1 h).1 y (by simp), (List.pairwise_cons.1 h).2⟩⟩
      rcases List.mem_cons.1 ha with rfl | ha
      · exact hk
      · exact Nat.lt_trans hk ((List.pairwise_cons.1 h).1 a ha)

theorem mem_insertNat {k x : Nat} {l : List Nat} : x ∈ insertNat k l ↔ x = k ∨ x ∈ l := by
  induction l with
  | nil => simp [insertNat]
  | cons y t ih =>
    simp only [insertNat]
    split
    · simp
    · split
      · rename_i h; subst h; simp
      · simp only [List.mem_cons, ih]; exact or_left_comm

theorem risingNat_insertNat (k : Nat) {l : List Nat} (h : risingNat l = true) : risingNat (insertNat k l) = true := by
  rw [risingNat_iff] at h ⊢
  induction l with
  | nil => simp [insertNat]
  | cons y t ih =>
    obtain ⟨h1, h2⟩ := List.pairwise_cons.1 h
    simp only [insertNat]
    split
    · rename_i hk
      refine List.pairwise_cons.2 ⟨fun a ha => ?_, h⟩
      rcases List.mem_cons.1 ha with rfl | ha
      · exact hk
      · exact Nat.lt_trans hk (h1 a ha)
    · split
      · exact h
      · rename_i hk hk'
        refine List.pairwise_cons.2 ⟨fun a ha => ?_, ih h2⟩
        rcases mem_insertNat.1 ha with rfl | ha
        · omega
        · exact h1 a ha

theorem risingNat_filter (p : Nat → Bool) {l : List Nat} (h : risingNat l = true) : risingNat (l.filter p) = true := by
  rw [risingNat_iff] at h ⊢; exact h.sublist List.filter_sublist

/-! ### The canonical form -/

/-- What the canonical form says. -/
theorem Mem.wf_iff (m : Mem) : m.wf = true ↔ rising m.cells = true ∧ (∀ c ∈ m.cells, c.1 < hbmTop ∨ c.2 ≠ 0) ∧ risingNat m.bad = true ∧ risingNat m.soft = true ∧
    ∀ w ∈ m.soft, w ∉ m.bad := by
  simp [Mem.wf, and_assoc]

theorem Mem.wf_put {m : Mem} (h : m.wf = true) (a : Nat) (b : Byte) : (m.put a b).wf = true := by
  rw [Mem.wf_iff] at h ⊢
  obtain ⟨h1, h2, h3⟩ := h
  refine ⟨?_, fun c hc => ?_, h3⟩
  · simp only [Mem.put]
    split
    · exact rising_eraseKey a h1
    · exact rising_insertKey a b h1
  · simp only [Mem.put] at hc
    split at hc
    · exact h2 c ((eraseKey_sublist a _).subset hc)
    · rename_i hn
      rcases mem_insertKey hc with rfl | hc
      · show a < hbmTop ∨ b ≠ 0
        by_cases ha : a < hbmTop
        · exact .inl ha
        · exact .inr fun hb => hn ⟨Nat.le_of_not_lt ha, hb⟩
      · exact h2 c hc

theorem Mem.wf_puts {m : Mem} (h : m.wf = true) (a : Nat) (bs : List Byte) : (m.puts a bs).wf = true := by
  induction bs generalizing m a with
  | nil => exact h
  | cons b bs ih => exact ih (Mem.wf_put h a b) (a + 1)

theorem rising_filter {α : Type} (p : Nat × α → Bool) {l : List (Nat × α)} (h : rising l = true) : rising (l.filter p) = true := by
  rw [rising_iff] at h ⊢; exact h.sublist List.filter_sublist

/-- Leaving cells and marks out keeps the canonical form. -/
theorem Mem.wf_filter {m : Mem} (h : m.wf = true) (p : Host.Cell → Bool) (q r : Nat → Bool) (e g : Tab Nat) :
    ({ cells := m.cells.filter p, bad := m.bad.filter q, soft := m.soft.filter r, epochs := e, pages := g } : Mem).wf = true := by
  rw [Mem.wf_iff] at h ⊢
  obtain ⟨h1, h2, h3, h4, h5⟩ := h
  exact ⟨rising_filter p h1, fun c hc => h2 c (List.mem_filter.1 hc).1, risingNat_filter q h3, risingNat_filter r h4,
    fun w hw hb => h5 w (List.mem_filter.1 hw).1 (List.mem_filter.1 hb).1⟩

theorem Mem.wf_marks {m : Mem} (h : m.wf = true) (bad soft : List Nat) (hb : risingNat bad = true) (hs : risingNat soft = true) (hd : ∀ w ∈ soft, w ∉ bad) :
    ({ m with bad, soft } : Mem).wf = true := by
  rw [Mem.wf_iff] at h ⊢
  exact ⟨h.1, h.2.1, hb, hs, hd⟩

/-- Every change of memory keeps its canonical form. -/
theorem Mem.wf_apply {m : Mem} (h : m.wf = true) (x : MemWr) : (m.apply x).wf = true := by
  have all : ∀ l : List Host.Cell, l.filter (fun _ => true) = l := by simp
  obtain ⟨-, -, h3, h4, h5⟩ := (Mem.wf_iff m).1 h
  cases x with
  | bytes a bs =>
    have h' := Mem.wf_filter (Mem.wf_puts h a bs) (fun _ => true) (fun w => !coversWord a bs.length w) (fun w => !coversWord a bs.length w) (m.puts a bs).epochs (m.puts a bs).pages
    rw [all] at h'
    exact h'
  | zero a n => exact Mem.wf_filter h _ _ _ m.epochs m.pages
  | forget u => exact Mem.wf_filter h _ _ _ (m.epochs.modify 0 u (· + 1)) m.pages
  | forgetChannel hash ch =>
    rw [Mem.apply]
    exact Mem.wf_filter h _ _ _ m.epochs _
  | poison w =>
    refine Mem.wf_marks h _ _ (risingNat_insertNat w h3) (risingNat_filter _ h4) fun x hx hb => ?_
    rw [List.mem_filter] at hx
    rcases mem_insertNat.1 hb with rfl | hb
    · simp at hx
    · exact h5 x hx.1 hb
  | upset w =>
    refine Mem.wf_marks h _ _ h3 ?_ fun x hx hb => ?_
    · split
      · exact h4
      · exact risingNat_insertNat w h4
    · split at hx
      · exact h5 x hx hb
      · rename_i hw
        rcases mem_insertNat.1 hx with rfl | hx
        · exact hw hb
        · exact h5 x hx hb
  | heal w => exact Mem.wf_marks h _ _ h3 (risingNat_filter _ h4) fun x hx hb => h5 x (List.mem_filter.1 hx).1 hb

/-- Every list of changes keeps the canonical form. -/
theorem Mem.wf_applyAll {m : Mem} (h : m.wf = true) (l : List MemWr) : (m.applyAll l).wf = true := by
  induction l generalizing m with
  | nil => exact h
  | cons x t ih => exact ih (Mem.wf_apply h x)

/-- The memory right after reset has the canonical form. -/
theorem Mem.wf_reset : ({} : Mem).wf = true := by decide

/-! ### Bytes -/

/-- A byte that is written reads back, and every other byte is as before. -/
theorem Mem.byte_put {m : Mem} (h : m.wf = true) (a c : Nat) (b : Byte) : (m.put a b).byte c = if c = a then b else m.byte c := by
  have hr := ((Mem.wf_iff m).1 h).1
  have hd : (m.put a b).dflt c = m.dflt c := rfl
  simp only [Mem.byte, hd]
  simp only [Mem.put]
  split
  · rename_i hz
    rw [lookupKey_eraseKey a c hr]
    by_cases hc : c = a
    · subst hc
      simp only [if_true, Option.getD_none, Mem.dflt]
      rw [if_neg (by omega), hz.2]
    · simp [hc]
  · rw [lookupKey_insertKey]
    by_cases hc : c = a <;> simp [hc]

/-- The bytes that are written read back, and every byte outside them is as before. -/
theorem Mem.byte_puts {m : Mem} (h : m.wf = true) (a c : Nat) (bs : List Byte) :
    (m.puts a bs).byte c = if a ≤ c then (bs[c - a]?).getD (m.byte c) else m.byte c := by
  induction bs generalizing m a with
  | nil => simp [Mem.puts]
  | cons b bs ih =>
    rw [Mem.puts, ih (Mem.wf_put h a b), Mem.byte_put h]
    by_cases hc : c = a
    · subst hc
      rw [if_neg (by omega), if_pos rfl, if_pos (Nat.le_refl _)]
      simp
    · by_cases hl : a ≤ c
      · obtain ⟨n, rfl⟩ : ∃ n, c = a + 1 + n := ⟨c - (a + 1), by omega⟩
        have e1 : a + 1 + n - (a + 1) = n := by omega
        have e2 : a + 1 + n - a = n + 1 := by omega
        simp [e1, e2, hc, hl]
      · have : ¬ a + 1 ≤ c := by omega
        simp [hl, this, hc]

/-- A change of memory as bytes gives the bytes that were put. -/
@[simp] theorem Mem.byte_apply_bytes (m : Mem) (a c : Nat) (bs : List Byte) : (m.apply (.bytes a bs)).byte c = (m.puts a bs).byte c := rfl

end Machine

end Sys2Proof
end

