-- ==== Sys2Proof/Laws/Access.lean ====
section
/-!
SUPPORT. Accesses to memory: what a load and a store do, once for every unit that makes them.
-/

namespace Sys2Proof.Machine

/-! ### Loads -/

theorem Mem.touched_none {l : List Nat} {a n : Nat} (h : ∀ w ∈ l, ¬ (4 * w < a + n ∧ a < 4 * w + 4)) : Mem.touched l a n = none := by
  simpa [Mem.touched, List.find?_eq_none] using h

theorem Mem.hits_none {l : List Nat} {a n : Nat} (h : ∀ w ∈ l, ¬ (4 * w < a + n ∧ a < 4 * w + 4)) : Mem.hits l [(a, n)] = [] := by
  rw [Mem.hits, List.filter_eq_nil_iff]; intro x hx; simpa using h x hx

/-- A read that touches no word with an error changes nothing. -/
theorem Work.meet_clean {w : Work} {part : Option Nat} {reader : Nat} {l : List (Nat × Nat)} (hb : Mem.hits w.mem.bad l = []) (hs : Mem.hits w.mem.soft l = []) :
    w.meet part reader l = (w, none) := by
  simp [Work.meet, hb, hs]

/-- Outside the views an access reaches memory at its own address. -/
theorem Region.target_plain {a : Nat} (h : isView a = false) : Region.target a = a := by
  unfold isView at h; unfold Region.target; split at h <;> simp_all

/-- Outside the views byte `i` of an access is the one `i` above its address. -/
theorem Region.seen_plain {a : Nat} (h : isView a = false) (i : Nat) : Region.seen a i = a + i := by
  unfold isView at h; unfold Region.seen; split at h <;> simp_all

/-- Outside the views an access sees the bytes from its address up. -/
theorem Mem.seen_plain (m : Mem) {a : Nat} (h : isView a = false) (n : Nat) : m.seen a n = m.read a n := by
  simp [Mem.seen, Mem.read, Region.seen_plain h]

/-- An access of fewer bytes than a tile that goes through meets no view (R164). -/
theorem Dev.reach_plain {d : Dev} {who : Option Nat} {a n : Nat} (h : (d.reach who a n).1 = .ok) (hn : 0 < n) (ht : n < 1024) : isView a = false := by
  unfold isView
  split
  · rename_i size b hv
    simp only [Dev.reach, hv] at h
    split at h
    · cases h
    · rename_i hm
      have : n % (1024 * size) = 0 := by omega
      rcases Nat.eq_zero_or_pos size with rfl | hs
      · simp at this; omega
      · rw [Nat.mod_eq_of_lt (by have := Nat.mul_le_mul_left 1024 hs; omega)] at this; omega
  · rfl

/-- What an access that goes through meets: neither its requester's interface, nor a bond that is down, nor its targets stop it (R13, R17, R40). -/
theorem Dev.reachFrom_ok {d : Dev} {via who : Option Nat} {a n : Nat} : (d.reachFrom via who a n).1 = .ok ↔ (d.reach who a n).1 = .ok ∧ d.bondCut via a n = false := by
  generalize hr : d.reach who a n = r
  obtain ⟨st, x⟩ := r
  cases hb : d.bondCut via a n <;> cases st <;> simp [Dev.reachFrom, hr, hb, Dev.refused]

/-- A load that is served, of bytes none of which has an error, returns them and changes nothing. -/
theorem Work.load_seen {w : Work} {via who : Option Nat} {reader a n : Nat} (h : w.dev.serves via who a n) (hc : Clean w.mem (Region.target a) n) :
    w.loadFrom via who reader a n = (w, .ok, 0, w.mem.seen a n) := by
  have e : w.dev.reachFrom via who a n = (.ok, (w.dev.reachFrom via who a n).2) := Prod.ext h.1 rfl
  have hw : ({ w with held := w.held || w.dev.inMargin a n } : Work) = w := by simp [h.2]
  rw [Work.loadFrom, e]
  simp only [hw, Work.meet_clean (Mem.hits_none hc.1) (Mem.hits_none hc.2)]

/-- A load outside the views returns the bytes from its address up. -/
theorem Work.load_clean {w : Work} {via who : Option Nat} {reader a n : Nat} (h : w.dev.serves via who a n) (hv : isView a = false) (hc : Clean w.mem a n) :
    w.loadFrom via who reader a n = (w, .ok, 0, w.mem.read a n) := by
  rw [Work.load_seen h (by rwa [Region.target_plain hv]), Mem.seen_plain _ hv]

/-- A load that may not reach its bytes answers why and changes nothing. -/
theorem Work.load_refused {w : Work} {via who : Option Nat} {reader a n : Nat} (h : (w.dev.reachFrom via who a n).1 ≠ .ok) :
    w.loadFrom via who reader a n = (w, (w.dev.reachFrom via who a n).1, (w.dev.reachFrom via who a n).2, []) := by
  generalize hr : w.dev.reachFrom via who a n = r at h
  obtain ⟨st, x⟩ := r
  cases st <;> first | exact absurd rfl h | simp [Work.loadFrom, hr]

/-! ### Stores -/

/-- A store that its requester's interface refuses answers why and changes nothing. -/
theorem Work.store_refused {w : Work} {via who : Option Nat} {reader a : Nat} {bs : List Byte} (h : Dev.refused (w.dev.reach who a bs.length).1 = true) :
    w.storeFrom via who reader a bs = (w, (w.dev.reach who a bs.length).1, (w.dev.reach who a bs.length).2) := by
  generalize hr : w.dev.reach who a bs.length = r at h
  obtain ⟨st, x⟩ := r
  cases st <;> first | (simp [Dev.refused] at h; done) | simp [Work.storeFrom, Dev.reachFrom, hr, Dev.refused]

theorem Work.storeUnit_clean {w : Work} {who : Option Nat} {reader a u : Nat} {bs : List Byte} (hb : w.mem.bad = []) (hs : w.mem.soft = []) :
    w.storeUnit who reader a bs u =
      (w.write (.bytes (Nat.max a u) ((bs.drop (Nat.max a u - a)).take (Nat.min (a + bs.length) (u + Work.mergeUnit a) - Nat.max a u))), .ok) := by
  simp only [Work.storeUnit]
  rw [Work.meet_clean (by simp [hb, Mem.hits]) (by simp [hs, Mem.hits])]

/-- What a store leaves: the device, the queue of changes applied to memory, the canonical form, and the bytes from `a` to `e`. -/
structure Stored (w w' : Work) (a e : Nat) (bs : List Byte) : Prop where
  dev : w'.dev = w.dev
  bad : w'.mem.bad = []
  soft : w'.mem.soft = []
  wf : w'.mem.wf = true
  log : ∃ l, w'.log = l ++ w.log ∧ w'.mem = w.mem.applyAll l.reverse
  byte : ∀ c, w'.mem.byte c = if a ≤ c ∧ c < e then (bs[c - a]?).getD (w.mem.byte c) else w.mem.byte c

theorem Mem.bad_puts (m : Mem) (a : Nat) (bs : List Byte) : (m.puts a bs).bad = m.bad := by
  induction bs generalizing m a with
  | nil => rfl
  | cons b bs ih => exact ih (m.put a b) (a + 1)

theorem Mem.soft_puts (m : Mem) (a : Nat) (bs : List Byte) : (m.puts a bs).soft = m.soft := by
  induction bs generalizing m a with
  | nil => rfl
  | cons b bs ih => exact ih (m.put a b) (a + 1)

/-- The next unit of a store adds the bytes that fall into it. -/
theorem Stored.next {w w' : Work} {a u g : Nat} {bs : List Byte} (hg : g = Work.mergeUnit a) (h : Stored w w' a (min (a + bs.length) (max a u)) bs) (who : Option Nat) (reader : Nat) :
    Stored w (w'.storeUnit who reader a bs u).1 a (min (a + bs.length) (max a (u + g))) bs := by
  have hb := h.bad
  rw [Work.storeUnit_clean hb h.soft, ← hg]
  refine ⟨h.dev, ?_, ?_, Mem.wf_apply h.wf _, ?_, fun c => ?_⟩
  · simp [Work.write, Mem.apply, Mem.bad_puts, hb]
  · simp [Work.write, Mem.apply, Mem.soft_puts, h.soft]
  · obtain ⟨l, h1, h2⟩ := h.log
    exact ⟨.bytes (Nat.max a u) ((bs.drop (Nat.max a u - a)).take (Nat.min (a + bs.length) (u + g) - Nat.max a u)) :: l,
      by simp only [Work.write, h1, List.cons_append], by simp [Work.write, Mem.applyAll, h2]⟩
  · simp only [Work.write, Mem.byte_apply_bytes, Mem.byte_puts h.wf, h.byte c]
    change (if max a u ≤ c then (((bs.drop (max a u - a)).take (min (a + bs.length) (u + g) - max a u))[c - max a u]?).getD _ else _) = _
    by_cases h1 : max a u ≤ c
    · by_cases h2 : c < min (a + bs.length) (u + g)
      · have i1 : ((bs.drop (max a u - a)).take (min (a + bs.length) (u + g) - max a u))[c - max a u]? = bs[c - a]? := by
          rw [List.getElem?_take_of_lt (by omega), List.getElem?_drop]; congr 1; omega
        rw [if_pos h1, i1, if_neg (by omega), if_pos (by omega)]
      · have i1 : ((bs.drop (max a u - a)).take (min (a + bs.length) (u + g) - max a u))[c - max a u]? = none := by
          rw [List.getElem?_eq_none]; simp; omega
        rw [if_pos h1, i1, if_neg (by omega), if_neg (by omega)]; rfl
    · rw [if_neg h1]
      by_cases h2 : a ≤ c ∧ c < min (a + bs.length) (max a u)
      · rw [if_pos h2, if_pos (by omega)]
      · rw [if_neg h2, if_neg (by omega)]

/-- In memory without errors the units of a store write all its bytes and no other. -/
theorem Work.storeUnits_clean {w : Work} {a : Nat} {bs : List Byte} (who : Option Nat) (reader : Nat) (hw : w.mem.wf = true) (hb : w.mem.bad = []) (hs : w.mem.soft = []) :
    ∃ w', w.storeUnits who reader a bs = (w', .ok) ∧ Stored w w' a (a + bs.length) bs := by
  generalize hg : mergeUnit a = g
  have hp : 0 < g := by rw [← hg, mergeUnit]; split <;> omega
  have hle : a / g * g ≤ a := Nat.div_mul_le_self _ _
  have step : ∀ n, ∃ w', (List.range n).foldl (fun (r : Work × Status) i =>
      let (w, s) := storeUnit r.1 who reader a bs ((a / g + i) * g)
      (w, r.2.orElse s)) (w, .ok) = (w', .ok) ∧ Stored w w' a (min (a + bs.length) (max a ((a / g + n) * g))) bs := by
    intro n
    induction n with
    | zero => exact ⟨w, rfl, rfl, hb, hs, hw, ⟨[], by simp, rfl⟩, fun c => by rw [if_neg (by rw [Nat.add_zero]; omega)]⟩
    | succ n ih =>
      obtain ⟨w', h1, h2⟩ := ih
      refine ⟨(w'.storeUnit who reader a bs ((a / g + n) * g)).1, ?_, ?_⟩
      · rw [List.range_succ, List.foldl_append, h1]
        simp only [List.foldl_cons, List.foldl_nil]
        rw [Work.storeUnit_clean h2.bad h2.soft]
        rfl
      · have h3 := h2.next hg.symm who reader
        rw [show (a / g + (n + 1)) * g = (a / g + n) * g + g by rw [← Nat.add_assoc, Nat.add_mul, Nat.one_mul]]
        exact h3
  obtain ⟨w', h1, h2⟩ := step (if bs.length = 0 then 0 else (a + bs.length - 1) / g - a / g + 1)
  refine ⟨w', ?_, ?_⟩
  · simp only [storeUnits, hg, h1]
  · have hm : min (a + bs.length) (max a ((a / g + if bs.length = 0 then 0 else (a + bs.length - 1) / g - a / g + 1) * g)) = a + bs.length := by
      split
      · omega
      · have h3 : a / g ≤ (a + bs.length - 1) / g := Nat.div_le_div_right (by omega)
        have h4 : a / g + ((a + bs.length - 1) / g - a / g + 1) = (a + bs.length - 1) / g + 1 := by omega
        have h5 : a + bs.length - 1 < ((a + bs.length - 1) / g + 1) * g := by
          rw [Nat.mul_comm]; exact Nat.lt_mul_div_succ _ hp
        rw [h4]; omega
    rw [hm] at h2
    exact h2

/-- In memory without errors a store that may reach its bytes writes them, where its view shows them, and no other, and leaves the device as it was. -/
theorem Work.store_seen {w : Work} {via who : Option Nat} {reader a : Nat} {bs : List Byte} (h : (w.dev.reachFrom via who a bs.length).1 = .ok) (hw : w.mem.wf = true) (hb : w.mem.bad = []) (hs : w.mem.soft = []) :
    ∃ w', w.storeFrom via who reader a bs = (w', .ok, 0) ∧ Stored w w' (Region.target a) (Region.target a + bs.length)
      ((List.range bs.length).map fun i => (bs[Region.seen a i - Region.target a]?).getD 0) := by
  have e : w.dev.reachFrom via who a bs.length = (.ok, (w.dev.reachFrom via who a bs.length).2) := Prod.ext h rfl
  obtain ⟨w', h1, h2⟩ := Work.storeUnits_clean (a := Region.target a) (bs := (List.range bs.length).map fun i => (bs[Region.seen a i - Region.target a]?).getD 0)
    who reader hw hb hs
  refine ⟨w', ?_, by simpa using h2⟩
  rw [Work.storeFrom, e]
  simp only [h1, if_true]

/-- Outside the views a store writes its bytes from its address up. -/
theorem Work.store_clean {w : Work} {via who : Option Nat} {reader a : Nat} {bs : List Byte} (h : (w.dev.reachFrom via who a bs.length).1 = .ok) (hv : isView a = false) (hw : w.mem.wf = true) (hb : w.mem.bad = []) (hs : w.mem.soft = []) :
    ∃ w', w.storeFrom via who reader a bs = (w', .ok, 0) ∧ Stored w w' a (a + bs.length) bs := by
  obtain ⟨w', h1, h2⟩ := Work.store_seen (reader := reader) h hw hb hs
  refine ⟨w', h1, ?_⟩
  have hl : ((List.range bs.length).map fun i => (bs[Region.seen a i - Region.target a]?).getD 0) = bs := by
    apply List.ext_getElem <;> simp +contextual [Region.target_plain hv, Region.seen_plain hv]
  rwa [hl, Region.target_plain hv] at h2

end Sys2Proof.Machine
end

