-- ==== Sys2Proof/Laws/Core.lean ====
section
/-!
SUPPORT. Running a command in its domain, and issuing a core instruction: what each shared lift does, said once.
-/

namespace Sys2Proof.Machine

/-- A domain that has been released performs the effect. -/
theorem runDev_of_released {k : Nat} {f : Dev → Dev} {s : State} (h : s.dev.released k = true) :
    runDev k f s = .next { s with dev := f s.dev } := by simp [runDev, h]

/-- A domain that has not been released performs nothing (R379). -/
theorem runDev_of_held {k : Nat} {f : Dev → Dev} {s : State} (h : s.dev.released k = false) : runDev k f s = .next s := by
  simp [runDev, h]

/-- A released domain performs an effect on memory by its list of changes. -/
theorem runWork_of_released {k : Nat} {f : Work → Work} {s : State} (h : s.dev.released k = true) : runWork k f s = .next (s.work f) := by
  simp only [runWork, h, State.work, if_true]
  split <;> rfl

/-- An effect of which no read is held back changes memory by its list of changes, and the device. -/
theorem work_of_unheld {f : Work → Work} {s : State} (h : (f ⟨s.mem, [], s.dev, false⟩).held = false) :
    s.work f = { s with mem := s.mem.applyAll (f ⟨s.mem, [], s.dev, false⟩).log.reverse, dev := (f ⟨s.mem, [], s.dev, false⟩).dev } := by
  simp [State.work, h]

/-- A domain that has not been released changes no memory either. -/
theorem runWork_of_held {k : Nat} {f : Work → Work} {s : State} (h : s.dev.released k = false) : runWork k f s = .next s := by
  simp [runWork, h]

/-- Everything that a device effect can do: the queue and the memory stay. -/
theorem runDev_next {k : Nat} {f : Dev → Dev} {s t : State} (h : runDev k f s = .next t) :
    t.pending = s.pending ∧ t.mem = s.mem ∧ (t.dev = f s.dev ∨ t.dev = s.dev) := by
  unfold runDev at h
  split at h <;> cases h <;> simp

/-- Everything that an effect on memory can do: the queue stays, and memory changes by a list of changes. -/
theorem runWork_next {k : Nat} {f : Work → Work} {s t : State} (h : runWork k f s = .next t) :
    t.pending = s.pending ∧ ∃ l, t.mem = s.mem.applyAll l := by
  unfold runWork at h
  split at h
  · dsimp only at h
    split at h <;> cases h
    · exact ⟨rfl, [], rfl⟩
    · exact ⟨rfl, _, rfl⟩
  · cases h; exact ⟨rfl, [], rfl⟩

/-- A core that meets the conditions of issue issues the word. -/
theorem gate_go {s : State} {c : Fin 1024} {w : Word} {top : Nat} (h : Issues s c w top) : s.dev.gate c w top = .go := by
  obtain ⟨-, h2, h3, h4, h5, h6, h7, h8, h9, h10, h11⟩ := h
  unfold Dev.gate
  rw [if_neg (by simp [h2, h3, h4, h5, h8]), if_neg h6, if_neg (by simpa using h7), if_neg (by simp [h9]), if_neg (by simpa using h10),
    if_neg (by rintro ⟨a, b, d⟩; rcases h11 with h | h | h <;> contradiction)]

/-- The effect of an instruction that issues. -/
theorem issue_go {s : State} {c : Fin 1024} {w : Word} {top : Nat} {f : Core → Dev → Dev} (h : Issues s c w top) :
    s.dev.issue c w top f = f (s.dev.core c) s.dev := by simp [Dev.issue, gate_go h]

/-- The effect of an instruction on its own core. -/
theorem issueCore_go {s : State} {c : Fin 1024} {w : Word} {top : Nat} {f : Core → Core} (h : Issues s c w top) :
    s.dev.issueCore c w top f = s.dev.setCore c (f (s.dev.core c)) := issue_go h

/-- An instruction whose whole effect is on its core, run. -/
theorem runDev_issueCore {s : State} {c : Fin 1024} {w : Word} {top : Nat} {f : Core → Core} (h : Issues s c w top) :
    runDev (coreDom c) (fun d => d.issueCore c w top f) s = .next (s.withCore c (f (s.dev.core c))) := by
  simp [runDev_of_released h.1, issueCore_go h, State.withCore, State.on]

/-- An instruction on the device, run. -/
theorem runDev_issue {s : State} {c : Fin 1024} {w : Word} {top : Nat} {f : Core → Dev → Dev} (h : Issues s c w top) :
    runDev (coreDom c) (fun d => d.issue c w top f) s = .next { s with dev := f (s.dev.core c) s.dev } := by
  simp [runDev_of_released h.1, issue_go h]

/-- An instruction that touches memory, issued. -/
theorem work_issue_go {s : State} {c : Fin 1024} {w : Word} {top : Nat} {f : Core → Work → Work} (h : Issues s c w top) (m : Mem) (l : List MemWr) (b : Bool) :
    Work.issue ⟨m, l, s.dev, b⟩ c w top f = f (s.dev.core c) ⟨m, l, s.dev, b⟩ := by simp [Work.issue, gate_go h]

end Sys2Proof.Machine
end

