-- ==== Sys2Proof/Laws/State.lean ====
section
/-!
SUPPORT. What the updates of the state leave alone: one lemma per field and update, and reading back what an update wrote.
-/

namespace Sys2Proof.Machine

/-! ### The device -/

@[simp] theorem Dev.setWord_snaps (d : Dev) (r : Reg) (i : Nat) (v : Word) : (d.setWord r i v).snaps = d.snaps := rfl
@[simp] theorem Dev.setWord_now (d : Dev) (r : Reg) (i : Nat) (v : Word) : (d.setWord r i v).now = d.now := rfl
@[simp] theorem Dev.setWord_reply (d : Dev) (r : Reg) (i : Nat) (v : Word) : (d.setWord r i v).reply = d.reply := rfl
@[simp] theorem Dev.setWord_out (d : Dev) (r : Reg) (i : Nat) (v : Word) : (d.setWord r i v).out = d.out := rfl
@[simp] theorem Dev.setWord_fresh (d : Dev) (r : Reg) (i : Nat) (v : Word) : (d.setWord r i v).fresh = d.fresh := rfl
@[simp] theorem Dev.setWord_dieReleased (d : Dev) (r : Reg) (i : Nat) (v : Word) : (d.setWord r i v).dieReleased = d.dieReleased := rfl
@[simp] theorem Dev.setWord_cores (d : Dev) (r : Reg) (i : Nat) (v : Word) : (d.setWord r i v).cores = d.cores := rfl
@[simp] theorem Dev.setWord_fuses (d : Dev) (r : Reg) (i : Nat) (v : Word) : (d.setWord r i v).fuses = d.fuses := rfl
@[simp] theorem Dev.setWord_testCore (d : Dev) (r : Reg) (i : Nat) (v : Word) : (d.setWord r i v).testCore = d.testCore := rfl
@[simp] theorem Dev.setWord_ports (d : Dev) (r : Reg) (i : Nat) (v : Word) : (d.setWord r i v).ports = d.ports := rfl
@[simp] theorem Dev.setWord_dead (d : Dev) (r : Reg) (i : Nat) (v : Word) : (d.setWord r i v).dead = d.dead := rfl
@[simp] theorem Dev.setWord_boot (d : Dev) (r : Reg) (i : Nat) (v : Word) : (d.setWord r i v).boot = d.boot := rfl
@[simp] theorem Dev.setWord_hbm (d : Dev) (r : Reg) (i : Nat) (v : Word) : (d.setWord r i v).hbm = d.hbm := rfl
@[simp] theorem Dev.setWord_sync (d : Dev) (r : Reg) (i : Nat) (v : Word) : (d.setWord r i v).sync = d.sync := rfl
@[simp] theorem Dev.setWord_tw (d : Dev) (r : Reg) (i : Nat) (v : Word) : (d.setWord r i v).tw = d.tw := rfl
@[simp] theorem Dev.setWord_fab (d : Dev) (r : Reg) (i : Nat) (v : Word) : (d.setWord r i v).fab = d.fab := rfl
@[simp] theorem Dev.setWord_light (d : Dev) (r : Reg) (i : Nat) (v : Word) : (d.setWord r i v).light = d.light := rfl
@[simp] theorem Dev.setWord_ply (d : Dev) (r : Reg) (i : Nat) (v : Word) : (d.setWord r i v).ply = d.ply := rfl
@[simp] theorem Dev.setWord_zql (d : Dev) (r : Reg) (i : Nat) (v : Word) : (d.setWord r i v).zql = d.zql := rfl
@[simp] theorem Dev.setWord_mon (d : Dev) (r : Reg) (i : Nat) (v : Word) : (d.setWord r i v).mon = d.mon := rfl
@[simp] theorem Dev.setWord_tap (d : Dev) (r : Reg) (i : Nat) (v : Word) : (d.setWord r i v).tap = d.tap := rfl
@[simp] theorem Dev.setWord_frzDrive (d : Dev) (r : Reg) (i : Nat) (v : Word) : (d.setWord r i v).frzDrive = d.frzDrive := rfl
@[simp] theorem Dev.setWord_evq (d : Dev) (r : Reg) (i : Nat) (v : Word) : (d.setWord r i v).evq = d.evq := rfl
@[simp] theorem Dev.put_snaps (d : Dev) (f : Fld) (i v : Nat) : (d.put f i v).snaps = d.snaps := rfl
@[simp] theorem Dev.put_now (d : Dev) (f : Fld) (i v : Nat) : (d.put f i v).now = d.now := rfl
@[simp] theorem Dev.put_reply (d : Dev) (f : Fld) (i v : Nat) : (d.put f i v).reply = d.reply := rfl
@[simp] theorem Dev.put_out (d : Dev) (f : Fld) (i v : Nat) : (d.put f i v).out = d.out := rfl
@[simp] theorem Dev.put_fresh (d : Dev) (f : Fld) (i v : Nat) : (d.put f i v).fresh = d.fresh := rfl
@[simp] theorem Dev.put_dieReleased (d : Dev) (f : Fld) (i v : Nat) : (d.put f i v).dieReleased = d.dieReleased := rfl
@[simp] theorem Dev.put_cores (d : Dev) (f : Fld) (i v : Nat) : (d.put f i v).cores = d.cores := rfl
@[simp] theorem Dev.put_fuses (d : Dev) (f : Fld) (i v : Nat) : (d.put f i v).fuses = d.fuses := rfl
@[simp] theorem Dev.put_testCore (d : Dev) (f : Fld) (i v : Nat) : (d.put f i v).testCore = d.testCore := rfl
@[simp] theorem Dev.put_ports (d : Dev) (f : Fld) (i v : Nat) : (d.put f i v).ports = d.ports := rfl
@[simp] theorem Dev.put_dead (d : Dev) (f : Fld) (i v : Nat) : (d.put f i v).dead = d.dead := rfl
@[simp] theorem Dev.put_boot (d : Dev) (f : Fld) (i v : Nat) : (d.put f i v).boot = d.boot := rfl
@[simp] theorem Dev.put_hbm (d : Dev) (f : Fld) (i v : Nat) : (d.put f i v).hbm = d.hbm := rfl
@[simp] theorem Dev.put_sync (d : Dev) (f : Fld) (i v : Nat) : (d.put f i v).sync = d.sync := rfl
@[simp] theorem Dev.put_tw (d : Dev) (f : Fld) (i v : Nat) : (d.put f i v).tw = d.tw := rfl
@[simp] theorem Dev.put_fab (d : Dev) (f : Fld) (i v : Nat) : (d.put f i v).fab = d.fab := rfl
@[simp] theorem Dev.put_light (d : Dev) (f : Fld) (i v : Nat) : (d.put f i v).light = d.light := rfl
@[simp] theorem Dev.put_ply (d : Dev) (f : Fld) (i v : Nat) : (d.put f i v).ply = d.ply := rfl
@[simp] theorem Dev.put_zql (d : Dev) (f : Fld) (i v : Nat) : (d.put f i v).zql = d.zql := rfl
@[simp] theorem Dev.put_mon (d : Dev) (f : Fld) (i v : Nat) : (d.put f i v).mon = d.mon := rfl
@[simp] theorem Dev.put_tap (d : Dev) (f : Fld) (i v : Nat) : (d.put f i v).tap = d.tap := rfl
@[simp] theorem Dev.put_frzDrive (d : Dev) (f : Fld) (i v : Nat) : (d.put f i v).frzDrive = d.frzDrive := rfl
@[simp] theorem Dev.put_evq (d : Dev) (f : Fld) (i v : Nat) : (d.put f i v).evq = d.evq := rfl
@[simp] theorem Dev.resetReg_snaps (d : Dev) (r : Reg) (i : Nat) : (d.resetReg r i).snaps = d.snaps := rfl
@[simp] theorem Dev.resetReg_now (d : Dev) (r : Reg) (i : Nat) : (d.resetReg r i).now = d.now := rfl
@[simp] theorem Dev.resetReg_reply (d : Dev) (r : Reg) (i : Nat) : (d.resetReg r i).reply = d.reply := rfl
@[simp] theorem Dev.resetReg_out (d : Dev) (r : Reg) (i : Nat) : (d.resetReg r i).out = d.out := rfl
@[simp] theorem Dev.resetReg_fresh (d : Dev) (r : Reg) (i : Nat) : (d.resetReg r i).fresh = d.fresh := rfl
@[simp] theorem Dev.resetReg_dieReleased (d : Dev) (r : Reg) (i : Nat) : (d.resetReg r i).dieReleased = d.dieReleased := rfl
@[simp] theorem Dev.resetReg_cores (d : Dev) (r : Reg) (i : Nat) : (d.resetReg r i).cores = d.cores := rfl
@[simp] theorem Dev.resetReg_fuses (d : Dev) (r : Reg) (i : Nat) : (d.resetReg r i).fuses = d.fuses := rfl
@[simp] theorem Dev.resetReg_testCore (d : Dev) (r : Reg) (i : Nat) : (d.resetReg r i).testCore = d.testCore := rfl
@[simp] theorem Dev.resetReg_ports (d : Dev) (r : Reg) (i : Nat) : (d.resetReg r i).ports = d.ports := rfl
@[simp] theorem Dev.resetReg_dead (d : Dev) (r : Reg) (i : Nat) : (d.resetReg r i).dead = d.dead := rfl
@[simp] theorem Dev.resetReg_boot (d : Dev) (r : Reg) (i : Nat) : (d.resetReg r i).boot = d.boot := rfl
@[simp] theorem Dev.resetReg_hbm (d : Dev) (r : Reg) (i : Nat) : (d.resetReg r i).hbm = d.hbm := rfl
@[simp] theorem Dev.resetReg_sync (d : Dev) (r : Reg) (i : Nat) : (d.resetReg r i).sync = d.sync := rfl
@[simp] theorem Dev.resetReg_tw (d : Dev) (r : Reg) (i : Nat) : (d.resetReg r i).tw = d.tw := rfl
@[simp] theorem Dev.resetReg_fab (d : Dev) (r : Reg) (i : Nat) : (d.resetReg r i).fab = d.fab := rfl
@[simp] theorem Dev.resetReg_light (d : Dev) (r : Reg) (i : Nat) : (d.resetReg r i).light = d.light := rfl
@[simp] theorem Dev.resetReg_ply (d : Dev) (r : Reg) (i : Nat) : (d.resetReg r i).ply = d.ply := rfl
@[simp] theorem Dev.resetReg_zql (d : Dev) (r : Reg) (i : Nat) : (d.resetReg r i).zql = d.zql := rfl
@[simp] theorem Dev.resetReg_mon (d : Dev) (r : Reg) (i : Nat) : (d.resetReg r i).mon = d.mon := rfl
@[simp] theorem Dev.resetReg_tap (d : Dev) (r : Reg) (i : Nat) : (d.resetReg r i).tap = d.tap := rfl
@[simp] theorem Dev.resetReg_frzDrive (d : Dev) (r : Reg) (i : Nat) : (d.resetReg r i).frzDrive = d.frzDrive := rfl
@[simp] theorem Dev.resetReg_evq (d : Dev) (r : Reg) (i : Nat) : (d.resetReg r i).evq = d.evq := rfl
@[simp] theorem Dev.answer_regs (d : Dev) (s : Status) : (d.answer s).regs = d.regs := rfl
@[simp] theorem Dev.answer_snaps (d : Dev) (s : Status) : (d.answer s).snaps = d.snaps := rfl
@[simp] theorem Dev.answer_now (d : Dev) (s : Status) : (d.answer s).now = d.now := rfl
@[simp] theorem Dev.answer_out (d : Dev) (s : Status) : (d.answer s).out = d.out := rfl
@[simp] theorem Dev.answer_fresh (d : Dev) (s : Status) : (d.answer s).fresh = d.fresh := rfl
@[simp] theorem Dev.answer_dieReleased (d : Dev) (s : Status) : (d.answer s).dieReleased = d.dieReleased := rfl
@[simp] theorem Dev.answer_cores (d : Dev) (s : Status) : (d.answer s).cores = d.cores := rfl
@[simp] theorem Dev.answer_fuses (d : Dev) (s : Status) : (d.answer s).fuses = d.fuses := rfl
@[simp] theorem Dev.answer_testCore (d : Dev) (s : Status) : (d.answer s).testCore = d.testCore := rfl
@[simp] theorem Dev.answer_ports (d : Dev) (s : Status) : (d.answer s).ports = d.ports := rfl
@[simp] theorem Dev.answer_dead (d : Dev) (s : Status) : (d.answer s).dead = d.dead := rfl
@[simp] theorem Dev.answer_boot (d : Dev) (s : Status) : (d.answer s).boot = d.boot := rfl
@[simp] theorem Dev.answer_hbm (d : Dev) (s : Status) : (d.answer s).hbm = d.hbm := rfl
@[simp] theorem Dev.answer_sync (d : Dev) (s : Status) : (d.answer s).sync = d.sync := rfl
@[simp] theorem Dev.answer_tw (d : Dev) (s : Status) : (d.answer s).tw = d.tw := rfl
@[simp] theorem Dev.answer_fab (d : Dev) (s : Status) : (d.answer s).fab = d.fab := rfl
@[simp] theorem Dev.answer_light (d : Dev) (s : Status) : (d.answer s).light = d.light := rfl
@[simp] theorem Dev.answer_ply (d : Dev) (s : Status) : (d.answer s).ply = d.ply := rfl
@[simp] theorem Dev.answer_zql (d : Dev) (s : Status) : (d.answer s).zql = d.zql := rfl
@[simp] theorem Dev.answer_mon (d : Dev) (s : Status) : (d.answer s).mon = d.mon := rfl
@[simp] theorem Dev.answer_tap (d : Dev) (s : Status) : (d.answer s).tap = d.tap := rfl
@[simp] theorem Dev.answer_frzDrive (d : Dev) (s : Status) : (d.answer s).frzDrive = d.frzDrive := rfl
@[simp] theorem Dev.answer_evq (d : Dev) (s : Status) : (d.answer s).evq = d.evq := rfl
@[simp] theorem Dev.answerData_regs (d : Dev) (l : List Nat) : (d.answerData l).regs = d.regs := rfl
@[simp] theorem Dev.answerData_snaps (d : Dev) (l : List Nat) : (d.answerData l).snaps = d.snaps := rfl
@[simp] theorem Dev.answerData_now (d : Dev) (l : List Nat) : (d.answerData l).now = d.now := rfl
@[simp] theorem Dev.answerData_out (d : Dev) (l : List Nat) : (d.answerData l).out = d.out := rfl
@[simp] theorem Dev.answerData_fresh (d : Dev) (l : List Nat) : (d.answerData l).fresh = d.fresh := rfl
@[simp] theorem Dev.answerData_dieReleased (d : Dev) (l : List Nat) : (d.answerData l).dieReleased = d.dieReleased := rfl
@[simp] theorem Dev.answerData_cores (d : Dev) (l : List Nat) : (d.answerData l).cores = d.cores := rfl
@[simp] theorem Dev.answerData_fuses (d : Dev) (l : List Nat) : (d.answerData l).fuses = d.fuses := rfl
@[simp] theorem Dev.answerData_testCore (d : Dev) (l : List Nat) : (d.answerData l).testCore = d.testCore := rfl
@[simp] theorem Dev.answerData_ports (d : Dev) (l : List Nat) : (d.answerData l).ports = d.ports := rfl
@[simp] theorem Dev.answerData_dead (d : Dev) (l : List Nat) : (d.answerData l).dead = d.dead := rfl
@[simp] theorem Dev.answerData_boot (d : Dev) (l : List Nat) : (d.answerData l).boot = d.boot := rfl
@[simp] theorem Dev.answerData_hbm (d : Dev) (l : List Nat) : (d.answerData l).hbm = d.hbm := rfl
@[simp] theorem Dev.answerData_sync (d : Dev) (l : List Nat) : (d.answerData l).sync = d.sync := rfl
@[simp] theorem Dev.answerData_tw (d : Dev) (l : List Nat) : (d.answerData l).tw = d.tw := rfl
@[simp] theorem Dev.answerData_fab (d : Dev) (l : List Nat) : (d.answerData l).fab = d.fab := rfl
@[simp] theorem Dev.answerData_light (d : Dev) (l : List Nat) : (d.answerData l).light = d.light := rfl
@[simp] theorem Dev.answerData_ply (d : Dev) (l : List Nat) : (d.answerData l).ply = d.ply := rfl
@[simp] theorem Dev.answerData_zql (d : Dev) (l : List Nat) : (d.answerData l).zql = d.zql := rfl
@[simp] theorem Dev.answerData_mon (d : Dev) (l : List Nat) : (d.answerData l).mon = d.mon := rfl
@[simp] theorem Dev.answerData_tap (d : Dev) (l : List Nat) : (d.answerData l).tap = d.tap := rfl
@[simp] theorem Dev.answerData_frzDrive (d : Dev) (l : List Nat) : (d.answerData l).frzDrive = d.frzDrive := rfl
@[simp] theorem Dev.answerData_evq (d : Dev) (l : List Nat) : (d.answerData l).evq = d.evq := rfl
@[simp] theorem Dev.send_regs (d : Dev) (k : MsgKind) (x : Nat) (l : List Nat) : (d.send k x l).regs = d.regs := rfl
@[simp] theorem Dev.send_snaps (d : Dev) (k : MsgKind) (x : Nat) (l : List Nat) : (d.send k x l).snaps = d.snaps := rfl
@[simp] theorem Dev.send_now (d : Dev) (k : MsgKind) (x : Nat) (l : List Nat) : (d.send k x l).now = d.now := rfl
@[simp] theorem Dev.send_reply (d : Dev) (k : MsgKind) (x : Nat) (l : List Nat) : (d.send k x l).reply = d.reply := rfl
@[simp] theorem Dev.send_fresh (d : Dev) (k : MsgKind) (x : Nat) (l : List Nat) : (d.send k x l).fresh = d.fresh := rfl
@[simp] theorem Dev.send_dieReleased (d : Dev) (k : MsgKind) (x : Nat) (l : List Nat) : (d.send k x l).dieReleased = d.dieReleased := rfl
@[simp] theorem Dev.send_cores (d : Dev) (k : MsgKind) (x : Nat) (l : List Nat) : (d.send k x l).cores = d.cores := rfl
@[simp] theorem Dev.send_fuses (d : Dev) (k : MsgKind) (x : Nat) (l : List Nat) : (d.send k x l).fuses = d.fuses := rfl
@[simp] theorem Dev.send_testCore (d : Dev) (k : MsgKind) (x : Nat) (l : List Nat) : (d.send k x l).testCore = d.testCore := rfl
@[simp] theorem Dev.send_ports (d : Dev) (k : MsgKind) (x : Nat) (l : List Nat) : (d.send k x l).ports = d.ports := rfl
@[simp] theorem Dev.send_dead (d : Dev) (k : MsgKind) (x : Nat) (l : List Nat) : (d.send k x l).dead = d.dead := rfl
@[simp] theorem Dev.send_boot (d : Dev) (k : MsgKind) (x : Nat) (l : List Nat) : (d.send k x l).boot = d.boot := rfl
@[simp] theorem Dev.send_hbm (d : Dev) (k : MsgKind) (x : Nat) (l : List Nat) : (d.send k x l).hbm = d.hbm := rfl
@[simp] theorem Dev.send_sync (d : Dev) (k : MsgKind) (x : Nat) (l : List Nat) : (d.send k x l).sync = d.sync := rfl
@[simp] theorem Dev.send_tw (d : Dev) (k : MsgKind) (x : Nat) (l : List Nat) : (d.send k x l).tw = d.tw := rfl
@[simp] theorem Dev.send_fab (d : Dev) (k : MsgKind) (x : Nat) (l : List Nat) : (d.send k x l).fab = d.fab := rfl
@[simp] theorem Dev.send_light (d : Dev) (k : MsgKind) (x : Nat) (l : List Nat) : (d.send k x l).light = d.light := rfl
@[simp] theorem Dev.send_ply (d : Dev) (k : MsgKind) (x : Nat) (l : List Nat) : (d.send k x l).ply = d.ply := rfl
@[simp] theorem Dev.send_zql (d : Dev) (k : MsgKind) (x : Nat) (l : List Nat) : (d.send k x l).zql = d.zql := rfl
@[simp] theorem Dev.send_mon (d : Dev) (k : MsgKind) (x : Nat) (l : List Nat) : (d.send k x l).mon = d.mon := rfl
@[simp] theorem Dev.send_tap (d : Dev) (k : MsgKind) (x : Nat) (l : List Nat) : (d.send k x l).tap = d.tap := rfl
@[simp] theorem Dev.send_frzDrive (d : Dev) (k : MsgKind) (x : Nat) (l : List Nat) : (d.send k x l).frzDrive = d.frzDrive := rfl
@[simp] theorem Dev.send_evq (d : Dev) (k : MsgKind) (x : Nat) (l : List Nat) : (d.send k x l).evq = d.evq := rfl
@[simp] theorem Dev.setCore_regs (d : Dev) (c : Nat) (k : Core) : (d.setCore c k).regs = d.regs := rfl
@[simp] theorem Dev.setCore_snaps (d : Dev) (c : Nat) (k : Core) : (d.setCore c k).snaps = d.snaps := rfl
@[simp] theorem Dev.setCore_now (d : Dev) (c : Nat) (k : Core) : (d.setCore c k).now = d.now := rfl
@[simp] theorem Dev.setCore_reply (d : Dev) (c : Nat) (k : Core) : (d.setCore c k).reply = d.reply := rfl
@[simp] theorem Dev.setCore_out (d : Dev) (c : Nat) (k : Core) : (d.setCore c k).out = d.out := rfl
@[simp] theorem Dev.setCore_fresh (d : Dev) (c : Nat) (k : Core) : (d.setCore c k).fresh = d.fresh := rfl
@[simp] theorem Dev.setCore_dieReleased (d : Dev) (c : Nat) (k : Core) : (d.setCore c k).dieReleased = d.dieReleased := rfl
@[simp] theorem Dev.setCore_fuses (d : Dev) (c : Nat) (k : Core) : (d.setCore c k).fuses = d.fuses := rfl
@[simp] theorem Dev.setCore_testCore (d : Dev) (c : Nat) (k : Core) : (d.setCore c k).testCore = d.testCore := rfl
@[simp] theorem Dev.setCore_ports (d : Dev) (c : Nat) (k : Core) : (d.setCore c k).ports = d.ports := rfl
@[simp] theorem Dev.setCore_dead (d : Dev) (c : Nat) (k : Core) : (d.setCore c k).dead = d.dead := rfl
@[simp] theorem Dev.setCore_boot (d : Dev) (c : Nat) (k : Core) : (d.setCore c k).boot = d.boot := rfl
@[simp] theorem Dev.setCore_hbm (d : Dev) (c : Nat) (k : Core) : (d.setCore c k).hbm = d.hbm := rfl
@[simp] theorem Dev.setCore_sync (d : Dev) (c : Nat) (k : Core) : (d.setCore c k).sync = d.sync := rfl
@[simp] theorem Dev.setCore_tw (d : Dev) (c : Nat) (k : Core) : (d.setCore c k).tw = d.tw := rfl
@[simp] theorem Dev.setCore_fab (d : Dev) (c : Nat) (k : Core) : (d.setCore c k).fab = d.fab := rfl
@[simp] theorem Dev.setCore_light (d : Dev) (c : Nat) (k : Core) : (d.setCore c k).light = d.light := rfl
@[simp] theorem Dev.setCore_ply (d : Dev) (c : Nat) (k : Core) : (d.setCore c k).ply = d.ply := rfl
@[simp] theorem Dev.setCore_zql (d : Dev) (c : Nat) (k : Core) : (d.setCore c k).zql = d.zql := rfl
@[simp] theorem Dev.setCore_mon (d : Dev) (c : Nat) (k : Core) : (d.setCore c k).mon = d.mon := rfl
@[simp] theorem Dev.setCore_tap (d : Dev) (c : Nat) (k : Core) : (d.setCore c k).tap = d.tap := rfl
@[simp] theorem Dev.setCore_frzDrive (d : Dev) (c : Nat) (k : Core) : (d.setCore c k).frzDrive = d.frzDrive := rfl
@[simp] theorem Dev.setCore_evq (d : Dev) (c : Nat) (k : Core) : (d.setCore c k).evq = d.evq := rfl
@[simp] theorem Dev.modCore_regs (d : Dev) (c : Nat) (f : Core → Core) : (d.modCore c f).regs = d.regs := rfl
@[simp] theorem Dev.modCore_snaps (d : Dev) (c : Nat) (f : Core → Core) : (d.modCore c f).snaps = d.snaps := rfl
@[simp] theorem Dev.modCore_now (d : Dev) (c : Nat) (f : Core → Core) : (d.modCore c f).now = d.now := rfl
@[simp] theorem Dev.modCore_reply (d : Dev) (c : Nat) (f : Core → Core) : (d.modCore c f).reply = d.reply := rfl
@[simp] theorem Dev.modCore_out (d : Dev) (c : Nat) (f : Core → Core) : (d.modCore c f).out = d.out := rfl
@[simp] theorem Dev.modCore_fresh (d : Dev) (c : Nat) (f : Core → Core) : (d.modCore c f).fresh = d.fresh := rfl
@[simp] theorem Dev.modCore_dieReleased (d : Dev) (c : Nat) (f : Core → Core) : (d.modCore c f).dieReleased = d.dieReleased := rfl
@[simp] theorem Dev.modCore_fuses (d : Dev) (c : Nat) (f : Core → Core) : (d.modCore c f).fuses = d.fuses := rfl
@[simp] theorem Dev.modCore_testCore (d : Dev) (c : Nat) (f : Core → Core) : (d.modCore c f).testCore = d.testCore := rfl
@[simp] theorem Dev.modCore_ports (d : Dev) (c : Nat) (f : Core → Core) : (d.modCore c f).ports = d.ports := rfl
@[simp] theorem Dev.modCore_dead (d : Dev) (c : Nat) (f : Core → Core) : (d.modCore c f).dead = d.dead := rfl
@[simp] theorem Dev.modCore_boot (d : Dev) (c : Nat) (f : Core → Core) : (d.modCore c f).boot = d.boot := rfl
@[simp] theorem Dev.modCore_hbm (d : Dev) (c : Nat) (f : Core → Core) : (d.modCore c f).hbm = d.hbm := rfl
@[simp] theorem Dev.modCore_sync (d : Dev) (c : Nat) (f : Core → Core) : (d.modCore c f).sync = d.sync := rfl
@[simp] theorem Dev.modCore_tw (d : Dev) (c : Nat) (f : Core → Core) : (d.modCore c f).tw = d.tw := rfl
@[simp] theorem Dev.modCore_fab (d : Dev) (c : Nat) (f : Core → Core) : (d.modCore c f).fab = d.fab := rfl
@[simp] theorem Dev.modCore_light (d : Dev) (c : Nat) (f : Core → Core) : (d.modCore c f).light = d.light := rfl
@[simp] theorem Dev.modCore_ply (d : Dev) (c : Nat) (f : Core → Core) : (d.modCore c f).ply = d.ply := rfl
@[simp] theorem Dev.modCore_zql (d : Dev) (c : Nat) (f : Core → Core) : (d.modCore c f).zql = d.zql := rfl
@[simp] theorem Dev.modCore_mon (d : Dev) (c : Nat) (f : Core → Core) : (d.modCore c f).mon = d.mon := rfl
@[simp] theorem Dev.modCore_tap (d : Dev) (c : Nat) (f : Core → Core) : (d.modCore c f).tap = d.tap := rfl
@[simp] theorem Dev.modCore_frzDrive (d : Dev) (c : Nat) (f : Core → Core) : (d.modCore c f).frzDrive = d.frzDrive := rfl
@[simp] theorem Dev.modCore_evq (d : Dev) (c : Nat) (f : Core → Core) : (d.modCore c f).evq = d.evq := rfl

@[simp] theorem Dev.answer_reply (d : Dev) (s : Status) : (d.answer s).reply = (s, []) := rfl
@[simp] theorem Dev.answerData_reply (d : Dev) (l : List Nat) : (d.answerData l).reply = (.ok, l) := rfl
@[simp] theorem Dev.send_out (d : Dev) (k : MsgKind) (x : Nat) (l : List Nat) : (d.send k x l).out = d.out ++ [⟨k, x, l⟩] := rfl
@[simp] theorem Dev.core_setCore (d : Dev) (c : Nat) (k : Core) : (d.setCore c k).core c = k := by simp [Dev.core, Dev.setCore]
@[simp] theorem Dev.setCore_setCore (d : Dev) (c : Nat) (k k' : Core) : (d.setCore c k).setCore c k' = d.setCore c k' := by
  simp [Dev.setCore]
theorem Dev.core_setCore_other (d : Dev) {c c' : Nat} (k : Core) (h : c' ≠ c) : (d.setCore c k).core c' = d.core c' := by
  simp [Dev.core, Dev.setCore, Tab.get_set_other _ _ _ h]
@[simp] theorem Dev.core_put (d : Dev) (f : Fld) (i v c : Nat) : (d.put f i v).core c = d.core c := rfl
@[simp] theorem Dev.core_answer (d : Dev) (s : Status) (c : Nat) : (d.answer s).core c = d.core c := rfl
@[simp] theorem Dev.word_setCore (d : Dev) (c : Nat) (k : Core) (r : Reg) (i : Nat) : (d.setCore c k).word r i = d.word r i := rfl
@[simp] theorem Dev.get_setCore (d : Dev) (c : Nat) (k : Core) (f : Fld) (i : Nat) : (d.setCore c k).get f i = d.get f i := rfl
@[simp] theorem Dev.word_answer (d : Dev) (s : Status) (r : Reg) (i : Nat) : (d.answer s).word r i = d.word r i := rfl
@[simp] theorem Dev.get_answer (d : Dev) (s : Status) (f : Fld) (i : Nat) : (d.answer s).get f i = d.get f i := rfl
@[simp] theorem Dev.get_send (d : Dev) (k : MsgKind) (x : Nat) (l : List Nat) (f : Fld) (i : Nat) : (d.send k x l).get f i = d.get f i := rfl

/-! ### Several fields, counters and events -/

@[simp] theorem Dev.putAll_snaps (d : Dev) (i : Nat) (l : List (Fld × Nat)) : (d.putAll i l).snaps = d.snaps := by
  induction l generalizing d with
  | nil => rfl
  | cons x t ih => exact ih _
@[simp] theorem Dev.putAll_now (d : Dev) (i : Nat) (l : List (Fld × Nat)) : (d.putAll i l).now = d.now := by
  induction l generalizing d with
  | nil => rfl
  | cons x t ih => exact ih _
@[simp] theorem Dev.putAll_reply (d : Dev) (i : Nat) (l : List (Fld × Nat)) : (d.putAll i l).reply = d.reply := by
  induction l generalizing d with
  | nil => rfl
  | cons x t ih => exact ih _
@[simp] theorem Dev.putAll_out (d : Dev) (i : Nat) (l : List (Fld × Nat)) : (d.putAll i l).out = d.out := by
  induction l generalizing d with
  | nil => rfl
  | cons x t ih => exact ih _
@[simp] theorem Dev.putAll_fresh (d : Dev) (i : Nat) (l : List (Fld × Nat)) : (d.putAll i l).fresh = d.fresh := by
  induction l generalizing d with
  | nil => rfl
  | cons x t ih => exact ih _
@[simp] theorem Dev.putAll_dieReleased (d : Dev) (i : Nat) (l : List (Fld × Nat)) : (d.putAll i l).dieReleased = d.dieReleased := by
  induction l generalizing d with
  | nil => rfl
  | cons x t ih => exact ih _
@[simp] theorem Dev.putAll_cores (d : Dev) (i : Nat) (l : List (Fld × Nat)) : (d.putAll i l).cores = d.cores := by
  induction l generalizing d with
  | nil => rfl
  | cons x t ih => exact ih _
@[simp] theorem Dev.putAll_fuses (d : Dev) (i : Nat) (l : List (Fld × Nat)) : (d.putAll i l).fuses = d.fuses := by
  induction l generalizing d with
  | nil => rfl
  | cons x t ih => exact ih _
@[simp] theorem Dev.putAll_testCore (d : Dev) (i : Nat) (l : List (Fld × Nat)) : (d.putAll i l).testCore = d.testCore := by
  induction l generalizing d with
  | nil => rfl
  | cons x t ih => exact ih _
@[simp] theorem Dev.putAll_ports (d : Dev) (i : Nat) (l : List (Fld × Nat)) : (d.putAll i l).ports = d.ports := by
  induction l generalizing d with
  | nil => rfl
  | cons x t ih => exact ih _
@[simp] theorem Dev.putAll_dead (d : Dev) (i : Nat) (l : List (Fld × Nat)) : (d.putAll i l).dead = d.dead := by
  induction l generalizing d with
  | nil => rfl
  | cons x t ih => exact ih _
@[simp] theorem Dev.putAll_boot (d : Dev) (i : Nat) (l : List (Fld × Nat)) : (d.putAll i l).boot = d.boot := by
  induction l generalizing d with
  | nil => rfl
  | cons x t ih => exact ih _
@[simp] theorem Dev.putAll_hbm (d : Dev) (i : Nat) (l : List (Fld × Nat)) : (d.putAll i l).hbm = d.hbm := by
  induction l generalizing d with
  | nil => rfl
  | cons x t ih => exact ih _
@[simp] theorem Dev.putAll_sync (d : Dev) (i : Nat) (l : List (Fld × Nat)) : (d.putAll i l).sync = d.sync := by
  induction l generalizing d with
  | nil => rfl
  | cons x t ih => exact ih _
@[simp] theorem Dev.putAll_tw (d : Dev) (i : Nat) (l : List (Fld × Nat)) : (d.putAll i l).tw = d.tw := by
  induction l generalizing d with
  | nil => rfl
  | cons x t ih => exact ih _
@[simp] theorem Dev.putAll_fab (d : Dev) (i : Nat) (l : List (Fld × Nat)) : (d.putAll i l).fab = d.fab := by
  induction l generalizing d with
  | nil => rfl
  | cons x t ih => exact ih _
@[simp] theorem Dev.putAll_light (d : Dev) (i : Nat) (l : List (Fld × Nat)) : (d.putAll i l).light = d.light := by
  induction l generalizing d with
  | nil => rfl
  | cons x t ih => exact ih _
@[simp] theorem Dev.putAll_ply (d : Dev) (i : Nat) (l : List (Fld × Nat)) : (d.putAll i l).ply = d.ply := by
  induction l generalizing d with
  | nil => rfl
  | cons x t ih => exact ih _
@[simp] theorem Dev.putAll_zql (d : Dev) (i : Nat) (l : List (Fld × Nat)) : (d.putAll i l).zql = d.zql := by
  induction l generalizing d with
  | nil => rfl
  | cons x t ih => exact ih _
@[simp] theorem Dev.putAll_mon (d : Dev) (i : Nat) (l : List (Fld × Nat)) : (d.putAll i l).mon = d.mon := by
  induction l generalizing d with
  | nil => rfl
  | cons x t ih => exact ih _
@[simp] theorem Dev.putAll_tap (d : Dev) (i : Nat) (l : List (Fld × Nat)) : (d.putAll i l).tap = d.tap := by
  induction l generalizing d with
  | nil => rfl
  | cons x t ih => exact ih _
@[simp] theorem Dev.putAll_frzDrive (d : Dev) (i : Nat) (l : List (Fld × Nat)) : (d.putAll i l).frzDrive = d.frzDrive := by
  induction l generalizing d with
  | nil => rfl
  | cons x t ih => exact ih _
@[simp] theorem Dev.putAll_evq (d : Dev) (i : Nat) (l : List (Fld × Nat)) : (d.putAll i l).evq = d.evq := by
  induction l generalizing d with
  | nil => rfl
  | cons x t ih => exact ih _
@[simp] theorem Dev.bump_snaps (d : Dev) (r : Reg) (i n : Nat) : ((d.bump r i n).1).snaps = d.snaps := by
  simp only [Dev.bump]; split <;> rfl
@[simp] theorem Dev.bump_now (d : Dev) (r : Reg) (i n : Nat) : ((d.bump r i n).1).now = d.now := by
  simp only [Dev.bump]; split <;> rfl
@[simp] theorem Dev.bump_reply (d : Dev) (r : Reg) (i n : Nat) : ((d.bump r i n).1).reply = d.reply := by
  simp only [Dev.bump]; split <;> rfl
@[simp] theorem Dev.bump_out (d : Dev) (r : Reg) (i n : Nat) : ((d.bump r i n).1).out = d.out := by
  simp only [Dev.bump]; split <;> rfl
@[simp] theorem Dev.bump_fresh (d : Dev) (r : Reg) (i n : Nat) : ((d.bump r i n).1).fresh = d.fresh := by
  simp only [Dev.bump]; split <;> rfl
@[simp] theorem Dev.bump_dieReleased (d : Dev) (r : Reg) (i n : Nat) : ((d.bump r i n).1).dieReleased = d.dieReleased := by
  simp only [Dev.bump]; split <;> rfl
@[simp] theorem Dev.bump_cores (d : Dev) (r : Reg) (i n : Nat) : ((d.bump r i n).1).cores = d.cores := by
  simp only [Dev.bump]; split <;> rfl
@[simp] theorem Dev.bump_fuses (d : Dev) (r : Reg) (i n : Nat) : ((d.bump r i n).1).fuses = d.fuses := by
  simp only [Dev.bump]; split <;> rfl
@[simp] theorem Dev.bump_testCore (d : Dev) (r : Reg) (i n : Nat) : ((d.bump r i n).1).testCore = d.testCore := by
  simp only [Dev.bump]; split <;> rfl
@[simp] theorem Dev.bump_ports (d : Dev) (r : Reg) (i n : Nat) : ((d.bump r i n).1).ports = d.ports := by
  simp only [Dev.bump]; split <;> rfl
@[simp] theorem Dev.bump_dead (d : Dev) (r : Reg) (i n : Nat) : ((d.bump r i n).1).dead = d.dead := by
  simp only [Dev.bump]; split <;> rfl
@[simp] theorem Dev.bump_boot (d : Dev) (r : Reg) (i n : Nat) : ((d.bump r i n).1).boot = d.boot := by
  simp only [Dev.bump]; split <;> rfl
@[simp] theorem Dev.bump_hbm (d : Dev) (r : Reg) (i n : Nat) : ((d.bump r i n).1).hbm = d.hbm := by
  simp only [Dev.bump]; split <;> rfl
@[simp] theorem Dev.bump_sync (d : Dev) (r : Reg) (i n : Nat) : ((d.bump r i n).1).sync = d.sync := by
  simp only [Dev.bump]; split <;> rfl
@[simp] theorem Dev.bump_tw (d : Dev) (r : Reg) (i n : Nat) : ((d.bump r i n).1).tw = d.tw := by
  simp only [Dev.bump]; split <;> rfl
@[simp] theorem Dev.bump_fab (d : Dev) (r : Reg) (i n : Nat) : ((d.bump r i n).1).fab = d.fab := by
  simp only [Dev.bump]; split <;> rfl
@[simp] theorem Dev.bump_light (d : Dev) (r : Reg) (i n : Nat) : ((d.bump r i n).1).light = d.light := by
  simp only [Dev.bump]; split <;> rfl
@[simp] theorem Dev.bump_ply (d : Dev) (r : Reg) (i n : Nat) : ((d.bump r i n).1).ply = d.ply := by
  simp only [Dev.bump]; split <;> rfl
@[simp] theorem Dev.bump_zql (d : Dev) (r : Reg) (i n : Nat) : ((d.bump r i n).1).zql = d.zql := by
  simp only [Dev.bump]; split <;> rfl
@[simp] theorem Dev.bump_mon (d : Dev) (r : Reg) (i n : Nat) : ((d.bump r i n).1).mon = d.mon := by
  simp only [Dev.bump]; split <;> rfl
@[simp] theorem Dev.bump_tap (d : Dev) (r : Reg) (i n : Nat) : ((d.bump r i n).1).tap = d.tap := by
  simp only [Dev.bump]; split <;> rfl
@[simp] theorem Dev.bump_frzDrive (d : Dev) (r : Reg) (i n : Nat) : ((d.bump r i n).1).frzDrive = d.frzDrive := by
  simp only [Dev.bump]; split <;> rfl
@[simp] theorem Dev.bump_evq (d : Dev) (r : Reg) (i n : Nat) : ((d.bump r i n).1).evq = d.evq := by
  simp only [Dev.bump]; split <;> rfl
@[simp] theorem Dev.raise_snaps (d : Dev) (k : EvKind) (p u x : Nat) (s : Status) : (d.raise k p u x s).snaps = d.snaps := by
  simp only [Dev.raise]; split
  · simp
  · rfl
@[simp] theorem Dev.raise_now (d : Dev) (k : EvKind) (p u x : Nat) (s : Status) : (d.raise k p u x s).now = d.now := by
  simp only [Dev.raise]; split
  · simp
  · rfl
@[simp] theorem Dev.raise_reply (d : Dev) (k : EvKind) (p u x : Nat) (s : Status) : (d.raise k p u x s).reply = d.reply := by
  simp only [Dev.raise]; split
  · simp
  · rfl
@[simp] theorem Dev.raise_out (d : Dev) (k : EvKind) (p u x : Nat) (s : Status) : (d.raise k p u x s).out = d.out := by
  simp only [Dev.raise]; split
  · simp
  · rfl
@[simp] theorem Dev.raise_fresh (d : Dev) (k : EvKind) (p u x : Nat) (s : Status) : (d.raise k p u x s).fresh = d.fresh := by
  simp only [Dev.raise]; split
  · simp
  · rfl
@[simp] theorem Dev.raise_dieReleased (d : Dev) (k : EvKind) (p u x : Nat) (s : Status) : (d.raise k p u x s).dieReleased = d.dieReleased := by
  simp only [Dev.raise]; split
  · simp
  · rfl
@[simp] theorem Dev.raise_cores (d : Dev) (k : EvKind) (p u x : Nat) (s : Status) : (d.raise k p u x s).cores = d.cores := by
  simp only [Dev.raise]; split
  · simp
  · rfl
@[simp] theorem Dev.raise_fuses (d : Dev) (k : EvKind) (p u x : Nat) (s : Status) : (d.raise k p u x s).fuses = d.fuses := by
  simp only [Dev.raise]; split
  · simp
  · rfl
@[simp] theorem Dev.raise_testCore (d : Dev) (k : EvKind) (p u x : Nat) (s : Status) : (d.raise k p u x s).testCore = d.testCore := by
  simp only [Dev.raise]; split
  · simp
  · rfl
@[simp] theorem Dev.raise_ports (d : Dev) (k : EvKind) (p u x : Nat) (s : Status) : (d.raise k p u x s).ports = d.ports := by
  simp only [Dev.raise]; split
  · simp
  · rfl
@[simp] theorem Dev.raise_dead (d : Dev) (k : EvKind) (p u x : Nat) (s : Status) : (d.raise k p u x s).dead = d.dead := by
  simp only [Dev.raise]; split
  · simp
  · rfl
@[simp] theorem Dev.raise_boot (d : Dev) (k : EvKind) (p u x : Nat) (s : Status) : (d.raise k p u x s).boot = d.boot := by
  simp only [Dev.raise]; split
  · simp
  · rfl
@[simp] theorem Dev.raise_hbm (d : Dev) (k : EvKind) (p u x : Nat) (s : Status) : (d.raise k p u x s).hbm = d.hbm := by
  simp only [Dev.raise]; split
  · simp
  · rfl
@[simp] theorem Dev.raise_sync (d : Dev) (k : EvKind) (p u x : Nat) (s : Status) : (d.raise k p u x s).sync = d.sync := by
  simp only [Dev.raise]; split
  · simp
  · rfl
@[simp] theorem Dev.raise_tw (d : Dev) (k : EvKind) (p u x : Nat) (s : Status) : (d.raise k p u x s).tw = d.tw := by
  simp only [Dev.raise]; split
  · simp
  · rfl
@[simp] theorem Dev.raise_fab (d : Dev) (k : EvKind) (p u x : Nat) (s : Status) : (d.raise k p u x s).fab = d.fab := by
  simp only [Dev.raise]; split
  · simp
  · rfl
@[simp] theorem Dev.raise_light (d : Dev) (k : EvKind) (p u x : Nat) (s : Status) : (d.raise k p u x s).light = d.light := by
  simp only [Dev.raise]; split
  · simp
  · rfl
@[simp] theorem Dev.raise_ply (d : Dev) (k : EvKind) (p u x : Nat) (s : Status) : (d.raise k p u x s).ply = d.ply := by
  simp only [Dev.raise]; split
  · simp
  · rfl
@[simp] theorem Dev.raise_zql (d : Dev) (k : EvKind) (p u x : Nat) (s : Status) : (d.raise k p u x s).zql = d.zql := by
  simp only [Dev.raise]; split
  · simp
  · rfl
@[simp] theorem Dev.raise_mon (d : Dev) (k : EvKind) (p u x : Nat) (s : Status) : (d.raise k p u x s).mon = d.mon := by
  simp only [Dev.raise]; split
  · simp
  · rfl
@[simp] theorem Dev.raise_tap (d : Dev) (k : EvKind) (p u x : Nat) (s : Status) : (d.raise k p u x s).tap = d.tap := by
  simp only [Dev.raise]; split
  · simp
  · rfl
@[simp] theorem Dev.raise_frzDrive (d : Dev) (k : EvKind) (p u x : Nat) (s : Status) : (d.raise k p u x s).frzDrive = d.frzDrive := by
  simp only [Dev.raise]; split
  · simp
  · rfl
@[simp] theorem Dev.count_snaps (d : Dev) (r : Reg) (i n : Nat) : (d.count r i n).snaps = d.snaps := by
  simp only [Dev.count]; split <;> simp
@[simp] theorem Dev.count_now (d : Dev) (r : Reg) (i n : Nat) : (d.count r i n).now = d.now := by
  simp only [Dev.count]; split <;> simp
@[simp] theorem Dev.count_reply (d : Dev) (r : Reg) (i n : Nat) : (d.count r i n).reply = d.reply := by
  simp only [Dev.count]; split <;> simp
@[simp] theorem Dev.count_out (d : Dev) (r : Reg) (i n : Nat) : (d.count r i n).out = d.out := by
  simp only [Dev.count]; split <;> simp
@[simp] theorem Dev.count_fresh (d : Dev) (r : Reg) (i n : Nat) : (d.count r i n).fresh = d.fresh := by
  simp only [Dev.count]; split <;> simp
@[simp] theorem Dev.count_dieReleased (d : Dev) (r : Reg) (i n : Nat) : (d.count r i n).dieReleased = d.dieReleased := by
  simp only [Dev.count]; split <;> simp
@[simp] theorem Dev.count_cores (d : Dev) (r : Reg) (i n : Nat) : (d.count r i n).cores = d.cores := by
  simp only [Dev.count]; split <;> simp
@[simp] theorem Dev.count_fuses (d : Dev) (r : Reg) (i n : Nat) : (d.count r i n).fuses = d.fuses := by
  simp only [Dev.count]; split <;> simp
@[simp] theorem Dev.count_testCore (d : Dev) (r : Reg) (i n : Nat) : (d.count r i n).testCore = d.testCore := by
  simp only [Dev.count]; split <;> simp
@[simp] theorem Dev.count_ports (d : Dev) (r : Reg) (i n : Nat) : (d.count r i n).ports = d.ports := by
  simp only [Dev.count]; split <;> simp
@[simp] theorem Dev.count_dead (d : Dev) (r : Reg) (i n : Nat) : (d.count r i n).dead = d.dead := by
  simp only [Dev.count]; split <;> simp
@[simp] theorem Dev.count_boot (d : Dev) (r : Reg) (i n : Nat) : (d.count r i n).boot = d.boot := by
  simp only [Dev.count]; split <;> simp
@[simp] theorem Dev.count_hbm (d : Dev) (r : Reg) (i n : Nat) : (d.count r i n).hbm = d.hbm := by
  simp only [Dev.count]; split <;> simp
@[simp] theorem Dev.count_sync (d : Dev) (r : Reg) (i n : Nat) : (d.count r i n).sync = d.sync := by
  simp only [Dev.count]; split <;> simp
@[simp] theorem Dev.count_tw (d : Dev) (r : Reg) (i n : Nat) : (d.count r i n).tw = d.tw := by
  simp only [Dev.count]; split <;> simp
@[simp] theorem Dev.count_fab (d : Dev) (r : Reg) (i n : Nat) : (d.count r i n).fab = d.fab := by
  simp only [Dev.count]; split <;> simp
@[simp] theorem Dev.count_light (d : Dev) (r : Reg) (i n : Nat) : (d.count r i n).light = d.light := by
  simp only [Dev.count]; split <;> simp
@[simp] theorem Dev.count_ply (d : Dev) (r : Reg) (i n : Nat) : (d.count r i n).ply = d.ply := by
  simp only [Dev.count]; split <;> simp
@[simp] theorem Dev.count_zql (d : Dev) (r : Reg) (i n : Nat) : (d.count r i n).zql = d.zql := by
  simp only [Dev.count]; split <;> simp
@[simp] theorem Dev.count_mon (d : Dev) (r : Reg) (i n : Nat) : (d.count r i n).mon = d.mon := by
  simp only [Dev.count]; split <;> simp
@[simp] theorem Dev.count_tap (d : Dev) (r : Reg) (i n : Nat) : (d.count r i n).tap = d.tap := by
  simp only [Dev.count]; split <;> simp
@[simp] theorem Dev.count_frzDrive (d : Dev) (r : Reg) (i n : Nat) : (d.count r i n).frzDrive = d.frzDrive := by
  simp only [Dev.count]; split <;> simp

/-! ### The state -/

@[simp] theorem State.on_dev (s : State) (f : Dev → Dev) : (s.on f).dev = f s.dev := rfl
@[simp] theorem State.on_mem (s : State) (f : Dev → Dev) : (s.on f).mem = s.mem := rfl
@[simp] theorem State.on_pending (s : State) (f : Dev → Dev) : (s.on f).pending = s.pending := rfl
@[simp] theorem State.withCore_mem (s : State) (c : Nat) (k : Core) : (s.withCore c k).mem = s.mem := rfl
@[simp] theorem State.withCore_pending (s : State) (c : Nat) (k : Core) : (s.withCore c k).pending = s.pending := rfl
@[simp] theorem State.withCore_core (s : State) (c : Nat) (k : Core) : (s.withCore c k).dev.core c = k := by
  simp [State.withCore, State.on]

end Sys2Proof.Machine
end

