-- ==== Sys2Proof/Tests/Slice0.lean ====
section
/-!
SUPPORT. Tests of single commands on small states, and witnesses that the hypotheses of the statements can be met. Each expected value is computed by hand from the rules.
-/

namespace Sys2Proof.Tests

open Sys2Proof.Machine

set_option Elab.async false

/-- A device with every domain released, the wrappers open, every bond port up and further fields put. -/
def dev (l : List (Fld × Nat × Nat)) : Dev :=
  ((F.RST_STAT_DOMAINS, 0, 255) :: (F.LBI_DIE_STAT_WRAP_CLOSED, 0, 0) :: (F.LBI_DIE_STAT_WRAP_CLOSED, 1, 0) :: (F.LBI_DIE_STAT_PORTS_ACTIVE, 0, 64) ::
    (F.LBI_DIE_STAT_PORTS_ACTIVE, 1, 64) :: l).foldl
    (fun (d : Dev) x => d.put x.1 x.2.1 x.2.2) {}

/-- A state with nothing waiting. -/
def st (d : Dev) (m : Mem := {}) : State := ⟨[], m, d⟩

/-- The device after a command. -/
def after (c : Instr) (s : State) : Dev :=
  match exec c s with
  | .next t => t.dev
  | _ => s.dev

/-- The memory after a command. -/
def memAfter (c : Instr) (s : State) : Mem :=
  match exec c s with
  | .next t => t.mem
  | _ => s.mem

/-- Partition 0 is ACTIVE with core group 0, flow, fabric and barrier blocks 0, port 0 and the first 16 GiB of HBM. -/
def part0 : List (Fld × Nat × Nat) :=
  [(F.ZQL_PCTL_STATE, 0, 1), (F.ZQL_PGRP_GROUPS, 0, 1), (F.ZQL_PFLOW_FLOWS, 0, 1), (F.ZQL_PSYNC_PF, 0, 1), (F.ZQL_PSYNC_BAR, 0, 1), (F.HBM_PART_VALID, 0, 1),
    (F.HBM_PART_SIZE, 0, 1), (F.TWIST_ALIGN_STATE, 0, 2)]

/-- A unit of 128-bit blocks that arrives on lane 0 of fibre 0 of engine 0, behind 58 zero bits. -/
def arrives (l : List Nat) (sender : Fin 65536 := 1) : Arrival := ⟨0, 0, 0, sender, 0, (encodeBlocks 0 l).1.map (BitVec.ofNat 136)⟩

/-- A control unit that arrives. -/
def control (unit : Nat) (sender : Fin 65536 := 1) : Arrival := arrives [bits unit 0 128, bits unit 128 128] sender

/-- The control unit that a message carries as the first one of its lane. -/
def spoken (m : Msg) : Nat := let l := (decodeBlocks 0 m.body).1; l.getD 0 0 + l.getD 1 0 * 2 ^ 128

/-- The drop ring of receive lane 0 of fibre 0 of engine 0 is verified. -/
def hearing : Fld × Nat × Nat := (F.LANE_RING_STATE, 1152, 4)

/-- Lane 0 of fibre 0 of engine 0 reaches a part with its ring verified and its distaff serving. -/
def laneTo (part : Nat) : List (Fld × Nat × Nat) :=
  [(F.LANE_RING_STATE, 0, 4), (F.OPT_DSTAT_STATE, 0, 3), (F.OPT_DSTAT_SERVES, 0, 0), (F.OPT_DSTAT_BASE_OK, 0, 1), (F.FAB_PMAP_VALID, 0, 1), (F.FAB_PMAP_DEST, 0, part)]

/-- A word of the register layout (R126). -/
def rw (top rd ra rb i fn imm : Nat) (tmo : Nat := 0) : Word :=
  BitVec.ofNat 64 (top * 2 ^ 56 + rd * 2 ^ 51 + ra * 2 ^ 46 + rb * 2 ^ 41 + i * 2 ^ 40 + fn * 2 ^ 36 + tmo * 2 ^ 32 + imm)

/-- A word of the stream layout (R135, R136). -/
def vw (top dst sa sb sc fn : Nat) (srd srs imm : Nat := 0) : Word :=
  BitVec.ofNat 64 (top * 2 ^ 56 + dst * 2 ^ 52 + sa * 2 ^ 48 + sb * 2 ^ 44 + sc * 2 ^ 40 + fn * 2 ^ 36 + srd * 2 ^ 28 + srs * 2 ^ 23 + imm)

/-- A device of partition 0 whose core 0 runs the word `w` at index 0. -/
def runs (w : Word) (k : Core := {}) (l : List (Fld × Nat × Nat) := []) : Dev :=
  (dev (part0 ++ l)).setCore 0 { k with run := .run, istore := ⟨[(0, w)]⟩ }

/-! ### Commands are well formed -/

/-- A host frame with the given type, LEN, OP and FN. -/
def frame (type len op fn : Nat) (payload : List Byte) : HostFrame :=
  ⟨BitVec.ofNat 64 (0x5B + type * 2 ^ 8 + len * 2 ^ 40), BitVec.ofNat 64 (op * 2 ^ 24 + fn * 2 ^ 36), 0, 0, payload, 0⟩

/-- A packet of one unit. -/
def packet : Packet :=
  { ch := 0, lenm1 := 0, dst := 0, src := 1, slice := 5, rflow := 0, sflow := 0, seq := 0, epoch := 0, last := false, ovf := false, retx := false, via := false
    ply := false, tag := false, mcid := 0, off := 0, sync := 0, pctr := 0, sig := false, payload := List.replicate 256 7 }

/-- A beacon of root 9. -/
def beacon : Beacon := { root := 9, hops := 1, count := 50, offset := 0, period := 1000, nextPeriod := 0, nextAt := 0, sender := 9 }

/-- Each check of WellFormed refuses a term that breaks it. -/
theorem test_ill_formed :
    ([.sadd 0 (rw 0x02 0 0 0 0 0 0), .mop 0 0 none, .read 0 (frame 3 0 0 0 []), .write 0 (frame 3 1 0 0 []), .attest 0 (frame 10 0 0x10 0 []), .sqDoorbell 0 (frame 5 0 0 1 []),
      .cqDoorbell 0 (frame 5 0 0 0 []), .packetReceive (arrives [0, 0]) false,
      .acknowledgement (arrives [0]), .prime (arrives [0]), .beaconReceive (arrives [0]) 0, .calibrationRequest (arrives [0]), .calibrationAnswer (arrives []), .flitReceive 0 true 0 0 [] 0 false,
      .pilotWindow 0 0 false [], .distaffPowerReading 0 0 [], .distaffForceReading 0 0 [] [], .bypass 4] : List Instr).all (fun i => !i.wellFormed) = true := by decide +kernel

theorem test_well_formed :
    ([.sadd 0 (rw 0x01 0 0 0 0 0 0), .read 0 (frame 1 0 0 0 []), .read 0 (frame 15 0 0 0 []), .identity 0 (frame 10 0 0x77 0 []), .sqDoorbell 0 (frame 5 0 0 0 []), .bypass 5, .packetReceive (arrives (List.replicate 20 0)) false,
      .acknowledgement (arrives [0, 0])] :
      List Instr).all (·.wellFormed) = true := by decide +kernel

/-! ### Class S -/

theorem test_scalar_results : ∀ x ∈ ([(0x01, Instr.sadd, 5), (0x02, .ssub, 9), (0x03, .smul, 2 ^ 64 - 14), (0x04, .sand, 6), (0x05, .sor, 2 ^ 64 - 1), (0x06, .sxor, 2 ^ 64 - 7),
      (0x07, .sshl, 7 * 2 ^ 62 % 2 ^ 64), (0x08, .sshr, 0), (0x09, .ssra, 0), (0x0A, .sslt, 0), (0x0B, .ssltu, 1), (0x0C, .sli, 2 ^ 64 - 2), (0x0D, .slih, (2 ^ 32 - 2) * 2 ^ 32 + 3)] :
      List (Nat × (Fin 1024 → Word → Instr) × Nat)),
    let w := if x.1 < 0x0C then rw x.1 1 2 0 1 0 0xFFFFFFFE else rw x.1 1 0 0 0 0 0xFFFFFFFE
    let s := st (runs w { sregs := ⟨[(1, 3), (2, 7)]⟩ })
    Issues s 0 w x.1 ∧ ((after (x.2.1 0 w) s).core 0).reg 1 = BitVec.ofNat 64 x.2.2 ∧ ((after (x.2.1 0 w) s).core 0).pc = 1 := by decide +kernel

theorem test_snop : let s := st (runs (rw 0x00 0 0 0 0 0 0)); Issues s 0 (rw 0x00 0 0 0 0 0 0) 0x00 ∧ ((after (.snop 0 (rw 0x00 0 0 0 0 0 0)) s).core 0).pc = 1 := by decide +kernel

theorem test_s0 : (({} : Core).setReg 0 9).reg 0 = 0 ∧ (({} : Core).setReg 31 9).reg 31 = 9 ∧ (({} : Core).setReg 31 9).reg 30 = 0 := by decide +kernel

theorem test_branch : ∀ x ∈ ([(0, 1), (1, 3), (2, 3), (3, 1), (4, 3), (5, 1)] : List (Nat × Nat)),
    let w := rw 0x10 0 1 2 0 x.1 3
    let s := st (runs w { sregs := ⟨[(1, 5), (2, 6)]⟩ })
    Issues s 0 w 0x10 ∧ ((after (.sbr 0 w) s).core 0).pc = x.2 := by decide +kernel

theorem test_branch_out : let w := rw 0x10 0 1 1 0 0 0xFFFFFFFF
    let s := st (runs w)
    Issues s 0 w 0x10 ∧ ((after (.sbr 0 w) s).core 0).run = .stopping ∧ ((after (.sbr 0 w) s).core 0).haltStatus = .formatFault ∧ ((after (.sbr 0 w) s).core 0).pc = 0 := by
  decide +kernel

theorem test_jumps : let w := rw 0x11 1 0 0 0 0 8191
    let v := rw 0x12 1 2 0 0 0 0xFFFFFFFF
    let s := st (runs w)
    let t := st (runs v { sregs := ⟨[(2, 8192)]⟩ })
    Issues s 0 w 0x11 ∧ ((after (.sjal 0 w) s).core 0).pc = 8191 ∧ ((after (.sjal 0 w) s).core 0).reg 1 = 1 ∧
      Issues t 0 v 0x12 ∧ ((after (.sjalr 0 v) t).core 0).pc = 8191 := by decide +kernel

theorem test_waitq : let w := rw 0x13 0 0 0 0 0 0
    let s := st (runs w)
    let t := st (runs w { mq := [{ seq := 0 }] })
    Issues s 0 w 0x13 ∧ (s.dev.core 0).outstanding 0 ≤ 0 ∧ ((after (.swaitq 0 w) s).core 0).pc = 1 ∧
      Issues t 0 w 0x13 ∧ 0 < (t.dev.core 0).outstanding 0 ∧ ((after (.swaitq 0 w) t).core 0).pc = 0 := by decide +kernel

theorem test_sstat : let w := rw 0x14 1 0 0 0 2 0
    let s := st (runs w { first := ⟨[(2, .formatFault)]⟩, more := [2] })
    Issues s 0 w 0x14 ∧ (s.dev.core 0).outstanding 2 = 0 ∧ ((after (.sstat 0 w) s).core 0).more = [] ∧
      (let t := st (runs w { xq := [{ seq := 0, addr := 0 }] }); Issues t 0 w 0x14 ∧ (t.dev.core 0).outstanding 2 ≠ 0 ∧ ((after (.sstat 0 w) t).core 0).pc = 0) := by decide +kernel

theorem test_sinfo : ∀ x ∈ ([(0, 0), (1, 0), (2, 77), (3, 1800), (4, 0x0100)] : List (Nat × Nat)),
    let w := rw 0x15 1 0 0 0 x.1 0
    let s := st { runs w {} [(F.FAB_ID_ID, 0, 77)] with now := 1000 }
    Issues s 0 w 0x15 ∧ ((after (.sinfo 0 w) s).core 0).reg 1 = BitVec.ofNat 64 x.2 := by decide +kernel

theorem test_shalt : let w := rw 0x16 0 0 0 0 0 0
    let s := st (runs w { pc := 8191, istore := ⟨[]⟩ })
    let t : State := st ((dev part0).setCore 0 { pc := 8191, run := .run, istore := ⟨[(8191, w)]⟩ })
    ¬ Issues s 0 w 0x16 ∧ Issues t 0 w 0x16 ∧ ((after (.shalt 0 w) t).core 0).haltCause = 1 ∧ ((after (.shalt 0 w) t).core 0).run = .stopping := by decide +kernel

theorem test_halt_completes : let s (x : Nat) := st ((dev part0).setCore 0 { run := .stopping, haltCause := x })
    (∀ x ∈ [1, 3], (s x).dev.released (coreDom (0 : Fin 1024)) = true ∧ ((s x).dev.core 0).quiet = true ∧ ((after (.coreHaltComplete 0) (s x)).core 0).run = .halt) ∧
      (after (.coreHaltComplete 0) (s 3)).evq.map (·.kind) = [.coreHalted] ∧ (after (.coreHaltComplete 0) (s 1)).evq = [] := by decide +kernel

theorem test_illegal_words : let w := rw 0x01 0 0 0 0 1 0
    let v := rw 0x1F 0 0 0 0 0 0
    let s := st (runs w)
    let t := st (runs v)
    let u := st (runs w { ibad := [0] })
    Faults s 0 w .formatFault ∧ ((after (.sadd 0 w) s).core 0).haltStatus = .formatFault ∧ (Instr.sadd 0 w).wellFormed = true ∧
      Faults t 0 v .formatFault ∧ usedMask (Op.top v) = none ∧ ((after (.reservedOpcode 0 v) t).core 0).haltStatus = .formatFault ∧
      Faults u 0 w .eccUncorrected ∧ ((after (.reservedOpcode 0 w) u).core 0).haltStatus = .eccUncorrected := by decide +kernel

/-- The address of the first word of core 0's under-core store, as the base of SLD and SST. -/
def under0 : Core := { sregs := ⟨[(1, 0x8899AABBCCDDEEFF), (2, 0x10000000000), (3, 0x10000200000)]⟩ }

theorem test_own_load : let w := rw 0x0E 1 2 0 0 6 4
    let s := st (runs w under0) { cells := [(0x10000000004, 0x80), (0x10000000007, 0x80)] }
    Issues s 0 w 0x0E ∧ (s.dev.reachFrom (some 0) (s.dev.partOfCore 0) 0x10000000004 4).1 = .ok ∧ ownStore 0 0x10000000004 = true ∧ Clean s.mem 0x10000000004 4 ∧
      ((after (.sld 0 w) s).core 0).reg 1 = 0xFFFFFFFF80000080 := by decide +kernel

theorem test_own_store : let w := rw 0x0F 0 2 1 0 1 2
    let s := st (runs w under0) { bad := [0x4000000000] }
    let t := st (runs w under0)
    Issues s 0 w 0x0F ∧ Issues t 0 w 0x0F ∧ (t.dev.reachFrom (some 0) (t.dev.partOfCore 0) 0x10000000002 2).1 = .ok ∧ Clean t.mem 0x10000000000 16 ∧
      (memAfter (.sst 0 w) t).cells = [(0x10000000002, 0xFF), (0x10000000003, 0xEE)] ∧ ¬ Clean s.mem 0x10000000000 16 ∧ (memAfter (.sst 0 w) s).cells = [] := by decide +kernel

theorem test_far_access : let w := rw 0x0E 1 3 0 0 3 8
    let v := rw 0x0F 0 3 1 0 3 8
    let s := st (runs w under0)
    let t := st (runs v under0)
    Issues s 0 w 0x0E ∧ (s.dev.reachFrom (some 0) (s.dev.partOfCore 0) 0x10000200008 8).1 = .ok ∧ ownStore 0 0x10000200008 = false ∧ ((after (.sld 0 w) s).core 0).pending = [1] ∧
      Issues t 0 v 0x0F ∧ ((after (.sst 0 v) t).core 0).sq.length = 1 ∧
      (let own := rw 0x0F 0 2 1 0 1 2; let u := st (runs own { under0 with sq := [⟨0, false, 0x10000200008, 8, false, 0, 7, 0⟩] })
       Issues u 0 own 0x0F ∧ (after (.sst 0 own) u).core 0 = u.dev.core 0) := by decide +kernel

theorem test_misaligned : let w := rw 0x0E 1 2 0 0 1 1
    let v := rw 0x0F 0 2 1 0 1 1
    let s := st (runs w under0)
    let t := st (runs v under0)
    Issues s 0 w 0x0E ∧ ((after (.sld 0 w) s).core 0).haltStatus = .formatFault ∧ Issues t 0 v 0x0F ∧ ((after (.sst 0 v) t).core 0).haltStatus = .formatFault := by decide +kernel

theorem test_far_completes : let r : Remote := ⟨0, true, 0x10000200008, 1, true, 1, 0, 0⟩
    let q : Remote := { r with load := false, size := 2, value := 0x1234 }
    let s := st ((dev part0).setCore 0 { sq := [r], pending := [1] }) { cells := [(0x10000200008, 0x80)] }
    let t := st ((dev part0).setCore 0 { sq := [q] })
    (s.dev.reachFrom (some 0) (s.dev.partOfCore 0) 0x10000200008 1).1 = .ok ∧ s.dev.margined (s.dev.partOfCore 0) 0x10000200008 1 = false ∧ Clean s.mem r.addr 1 ∧ ((after (.scalarLoadComplete 0) s).core 0).reg 1 = 2 ^ 64 - 128 ∧
      ((after (.scalarLoadComplete 0) s).core 0).pending = [] ∧ Clean t.mem (q.addr / 32 * 32) 32 ∧
      (memAfter (.scalarStoreComplete 0) t).cells = [(0x10000200008, 0x34), (0x10000200009, 0x12)] := by decide +kernel

/-- A margin run on the channel of an HBM address holds a scalar access back; without it the access completes. -/
theorem test_access_waits : ∀ busy ∈ [0, 1], let r : Remote := ⟨0, true, 0x40, 1, false, 1, 0, 0⟩
    let s := st ((dev (part0 ++ [(F.HBM_MRG_CTL_BUSY, 0, busy), (F.HBM_MRG_CTL_CHANNEL, 0, 0)])).setCore 0 { sq := [r], pending := [1] })
    s.dev.margined (s.dev.partOfCore 0) r.addr r.size = decide (busy = 1) ∧ ((after (.scalarLoadComplete 0) s).core 0).sq.length = busy := by decide +kernel

/-! ### Class M -/

/-- A MOP word (R126). -/
def mw (kind fmt acc km1 : Nat) : Word :=
  BitVec.ofNat 64 (0x20 * 2 ^ 56 + kind * 2 ^ 53 + fmt * 2 ^ 50 + fmt * 2 ^ 47 + acc * 2 ^ 44 + 1 * 2 ^ 39 + 2 * 2 ^ 34 + 3 * 2 ^ 29 + km1 * 2 ^ 8)

/-- An MDRN word (R126). -/
def dw (mode out : Nat) : Word := BitVec.ofNat 64 (0x21 * 2 ^ 56 + mode * 2 ^ 53 + out * 2 ^ 49 + 1 * 2 ^ 41)

/-- A core whose operand registers lie in the bobbin of core 0: activations at its base, weights at 0x1000, rows of 0x200 bytes. -/
def mcore : Core := { sregs := ⟨[(1, 0x14000000000), (2, 0x14000001000), (3, 0x20000000200)]⟩ }

theorem test_mop : let w := mw 0 5 0 0
    let s := st (runs w mcore) { cells := [(0x14000000001, 0xFD), (0x14000001002, 5)] }
    let k := s.dev.core 0
    let m := k.mopArgs w
    Issues s 0 w 0x20 ∧ k.mq.length < 8 ∧ k.mopOk 0 w = true ∧ s.dev.isSet F.MTX_STAT_FAILED 0 = false ∧ m.acc = false ∧ (∀ r ∈ m.reads, Clean s.mem r.1 r.2) ∧
      ((after (.mop 0 w none) s).core 0).a0.cells.get 0 130 = 2 ^ 32 - 15 ∧ ((after (.mop 0 w none) s).core 0).a0.tag = .int32 := by decide +kernel

theorem test_mop_acc : let w := mw 5 5 1 0
    let s := st (runs w { mcore with a0 := ⟨.int32, ⟨[(0, 7)]⟩⟩ }) { cells := [(0x14000000000, 5), (0x14000001000, 0xFF)] }
    let m := (s.dev.core 0).mopArgs w
    Issues s 0 w 0x20 ∧ (s.dev.core 0).mopOk 0 w = true ∧ m.acc = true ∧ ((s.dev.core 0).bank m.bank).tag = m.tag ∧
      ((after (.mop 0 w none) s).core 0).a0.cells.get 0 0 = 8 := by decide +kernel

theorem test_mop_stops : let w := mw 5 5 1 0
    let v := mw 0 0 0 0
    let u := BitVec.ofNat 64 (v.toNat + 2 ^ 24)
    let s := st (runs w mcore)
    let t := st (runs u mcore)
    let f := st (runs v mcore [(F.MTX_STAT_FAILED, 0, 1)])
    Issues s 0 w 0x20 ∧ ((after (.mop 0 w none) s).core 0).mq.map (·.status) = [.formatFault] ∧
      Issues t 0 u 0x20 ∧ (t.dev.core 0).mopOk 0 u = false ∧ ((after (.mop 0 u none) t).core 0).mq.map (·.status) = [.formatFault] ∧
      Issues f 0 v 0x20 ∧ (f.dev.core 0).mopOk 0 v = true ∧ f.dev.isSet F.MTX_STAT_FAILED 0 = true ∧ ((after (.mop 0 v none) f).core 0).mq.map (·.status) = [.eccUncorrected] := by
  decide +kernel

theorem test_mdrn : ∀ mode ∈ [4, 5], let w := dw mode 0
    let s := st (runs w { mcore with a0 := ⟨.int32, ⟨[(3, 9), (5, 9), (6, 2 ^ 32 - 4)]⟩⟩ })
    let k := s.dev.core 0
    let m := k.drnArgs w
    let b := k.bank m.bank
    s.mem.wf = true ∧ Issues s 0 w 0x21 ∧ k.mq.length < 8 ∧ drnFieldsOk w = true ∧ s.dev.isSet F.MTX_STAT_FAILED 0 = false ∧ b.tag ≠ .failed ∧ m.ok 0 b.tag = true ∧
      (m.mode = 4 ∨ m.mode = 5) ∧ (memAfter (.mdrn 0 w none) s).nat 0x14000000000 8 = (if mode = 4 then 3 * 2 ^ 32 + 9 else 7 * 2 ^ 32 - 4) := by decide +kernel

/-- A parity check that fails ends a MOP of a float kind with a FAILED bank, and a residue check one of an integer kind. -/
theorem test_mop_checks : ∀ x ∈ ([(0, 5, ⟨1, 2, 3, false⟩), (2, 5, ⟨0, 0, 0, true⟩)] : List (Nat × Nat × ArrayCheck)), let w := mw x.1 x.2.1 0 0
    let s := st (runs w mcore)
    let k := (after (.mop 0 w (some x.2.2)) s).core 0
    Issues s 0 w 0x20 ∧ (s.dev.core 0).mopOk 0 w = true ∧ (x.2.2.parity || ((s.dev.core 0).mopArgs w).kind = 0 || ((s.dev.core 0).mopArgs w).kind = 2) = true ∧ k.a0.tag = .failed ∧
      k.mq.map (·.status) = [.eccUncorrected] := by decide +kernel

theorem test_matrix_key_dropped : let w := mw 0 5 0 0
    let s := st { runs w mcore with hbm := { revoked := [0] } }
    Issues s 0 w 0x20 ∧ (s.dev.core 0).mopOk 0 w = true ∧ s.dev.keyStatus (s.dev.partOfCore 0) = .keyRevoked ∧ ((after (.mop 0 w none) s).core 0).mq.map (·.status) = [.keyRevoked] := by decide +kernel

/-- STORE, ADD and UPDATE_MAX drains of an INT32 bank pass their checks; a record's candidate is held against the stored one. -/
theorem test_mdrn_modes : ∀ mode ∈ [0, 1, 6], let w := BitVec.ofNat 64 ((dw mode (if mode < 4 then 5 else 0)).toNat + (if mode = 0 then 4 * 2 ^ 36 else 0))
    let s := st (runs w { sregs := ⟨[(1, 0x14000000000), (4, 512)]⟩, a0 := ⟨.int32, ⟨[(3, 9)]⟩⟩ })
    let k := s.dev.core 0
    let m := k.drnArgs w
    s.mem.wf = true ∧ Issues s 0 w 0x21 ∧ drnFieldsOk w = true ∧ m.mode = mode ∧ m.ok 0 (k.bank m.bank).tag = true ∧ m.sr = false ∧
      (mode = 0 → m.drow = 512 ∧ ((m.row (k.bank m.bank) 0 1).1.drop 12).take 5 = [9, 0, 0, 0, 0]) := by decide +kernel

theorem test_mdrn_values : let w := dw 6 0
    let s := st (runs w { sregs := ⟨[(1, 0x14000000000)]⟩, a0 := ⟨.int32, ⟨[(3, 9)]⟩⟩ })
    drainAdd 1 .int32 3 9 = (12, false, false) ∧ drainAdd 3 .int32 3 9 = (3, false, false) ∧ drainAdd 1 .int32 (2 ^ 31 - 1) 9 = (2 ^ 31 - 1, false, true) ∧
      reduceRow ((s.dev.core 0).drnArgs w) ((s.dev.core 0).bank false) 0 (some 3) = 3 * 2 ^ 32 + 9 := by decide +kernel

theorem test_mdrn_check : let w := dw 4 0
    let s := st (runs w { mcore with a0 := ⟨.int32, ⟨[(3, 9)]⟩⟩ })
    let k := (after (.mdrn 0 w (some ⟨0, 1, 2, true⟩)) s).core 0
    Issues s 0 w 0x21 ∧ drnFieldsOk w = true ∧ k.a0.tag = .failed ∧ k.mq.map (·.status) = [.eccUncorrected] := by decide +kernel

theorem test_mseed : ∀ x ∈ [0, 5], let w := rw 0x22 0 1 0 0 0 0
    let s := st (runs w { sregs := ⟨[(1, BitVec.ofNat 64 x)]⟩, mgen := 3 })
    Issues s 0 w 0x22 ∧ (s.dev.core 0).mq.length < 8 ∧ ((after (.mseed 0 w) s).core 0).mgen = (if x = 0 then 3 else 5) ∧
      ((after (.mseed 0 w) s).core 0).first.get .ok 0 = (if x = 0 then .formatFault else .ok) := by decide +kernel

theorem test_matrix_completes : ∀ drain ∈ [false, true], let x : Staged := { seq := 0, drain, status := .eccUncorrected, flags := 3 }
    let s := st ((dev part0).setCore 0 { mq := [x] })
    s.dev.released (coreDom (0 : Fin 1024)) = true ∧ (s.dev.core 0).mq = x :: [] ∧
      ((after (if drain then .mdrnComplete 0 else .mopComplete 0) s).core 0).first.get .ok 0 = .eccUncorrected := by decide +kernel

theorem test_self_test : let s := st (dev [])
    let t := st { dev [(F.MTX_TEST_CTL_BUSY, 0, 1)] with testCore := some 9 }
    s.dev.released 1 = true ∧ s.dev.isSet F.MTX_TEST_CTL_BUSY = false ∧ s.dev.partOfCore 9 = none ∧ (after (.mtxTestStart .mgmt 9) s).get F.MTX_TEST_CTL_CORE = 9 ∧
      (after (.mtxTestStart (.part 0) 9) s).reply = (.partitionDenied, []) ∧ t.dev.testCore = some 9 ∧ (after (.mtxTestEnd none) t).isSet F.MTX_TEST_CTL_PASS = true ∧
      (after (.mtxTestEnd (some 2)) t).get F.MTX_STAT_FAILED_ARRAY 9 = 2 ∧ s.dev.dieClosed 9 = false ∧ ({} : Dev).dieClosed 9 = true ∧
      (after (.mtxTestStart .mgmt 9) (st (dev [(F.LBI_DIE_STAT_WRAP_CLOSED, 0, 1)]))).reply = (.isolated, []) := by decide +kernel

/-! ### Class V -/

/-- The four words of roving `i`. -/
def rov (i base fmt : Nat) (stride count : Nat) (seg : Nat := 0) (upd : Nat := 0) (segsrc : Nat := 0) : List (Nat × Word) :=
  [(4 * i, BitVec.ofNat 64 (base + fmt * 2 ^ 48 + segsrc * 2 ^ 52 + upd * 2 ^ 55)), (4 * i + 1, BitVec.ofNat 64 (stride + count * 2 ^ 32)), (4 * i + 2, BitVec.ofNat 64 seg)]

/-- A core with a source of two elements in each of a format in d1, d2 and d4, a BIT mask in d3, 16-bit indices in d5 and a destination in d0. -/
def vcore (fmt size : Nat) (dfmt dsize count : Nat) : Core :=
  { rovings := ⟨rov 0 0x14000002000 dfmt dsize count ++ rov 1 0x14000000000 fmt size 2 ++ rov 2 0x14000000100 fmt size 2 ++ rov 3 0x14000000200 12 0 2 ++
      rov 4 0x14000000300 fmt size 2 ++ rov 5 0x14000000400 10 2 2⟩ }

/-- Elements 1 and 2 as INT8 in d1, 4 and 5 in d2, the mask 0, 1 in d3, 2 and 3 in d4, the indices 1 and 0 in d5. -/
def vmem : Mem :=
  { cells := [(0x14000000000, 1), (0x14000000001, 2), (0x14000000100, 4), (0x14000000101, 5), (0x14000000200, 2), (0x14000000300, 2), (0x14000000301, 3), (0x14000000400, 1)] }

theorem test_stream_integers : ∀ x ∈ ([(0x40, false, fun w => planBinary w FV.add (· + ·), Instr.vadd, vw 0x40 0 1 2 0 0, 0x0705), (0x41, false, fun w => planBinary w FV.sub (· - ·), .vsub, vw 0x41 0 1 2 0 0, 0xFDFD),
      (0x42, false, fun w => planBinary w FV.mul (· * ·), .vmul, vw 0x42 0 1 2 0 0, 0x0A04), (0x43, false, planVfma, .vfma, vw 0x43 0 1 2 4 0, 0x0D06), (0x44, false, fun w => planBinary w FV.max max, .vmax, vw 0x44 0 1 2 0 0, 0x0504),
      (0x45, false, fun w => planBinary w FV.min min, .vmin, vw 0x45 0 1 2 0 0, 0x0201), (0x46, false, fun w => planUnary w FV.abs fun a => a.natAbs, .vabs, vw 0x46 0 1 0 0 0, 0x0201),
      (0x47, false, fun w => planUnary w FV.neg fun a => -a, .vneg, vw 0x47 0 1 0 0 0, 0xFEFF), (0x4D, false, planVcvt, .vcvt, vw 0x4D 0 1 0 0 0, 0x0201), (0x48, false, planVbit, .vbit, vw 0x48 0 1 0 0 3, 0xFDFE),
      (0x49, false, fun w => planShift w shiftLeft, .vshl, vw 0x49 0 1 2 0 0, 0x4010), (0x4A, false, fun w => planShift w shiftRight, .vshr, vw 0x4A 0 2 1 0 0, 0x0102), (0x4C, false, planVsel, .vsel, vw 0x4C 0 3 1 2 0, 0x0204),
      (0x50, false, planVscan, .vscan, vw 0x50 0 1 0 0 0, 0x0100), (0x51, true, planVsred, .vsred, vw 0x51 0 1 0 0 0, 0x0003), (0x53, true, planVcmprs, .vcmprs, vw 0x53 0 1 3 0 0, 0x0002),
      (0x54, true, planVexpnd, .vexpnd, vw 0x54 0 1 3 0 0, 0x0100), (0x55, false, planVgath, .vgath, vw 0x55 0 1 5 0 0, 0x0102), (0x56, false, planVscat, .vscat, vw 0x56 0 1 5 0 0, 0x0102)] :
      List (Nat × Bool × (Word → Core → Mem → (Nat → Nat) → VPlan) × (Fin 1024 → Word → Instr) × Word × Nat)),
    let w := x.2.2.2.2.1
    let s := st (runs w (vcore 6 1 6 1 2)) vmem
    let p := x.2.2.1 w (s.dev.core 0) s.mem fun _ => 0
    s.mem.wf = true ∧ Issues s 0 w x.1 ∧ (s.dev.core 0).vq.length < 8 ∧ p.valid 0 = true ∧ (p.run p.n).status ≠ .eccUncorrected ∧
      (memAfter (x.2.2.2.1 0 w) s).nat 0x14000002000 2 = x.2.2.2.2.2 := by decide +kernel

theorem test_vcmp : let w := vw 0x4B 0 1 2 0 2
    let s := st (runs w (vcore 6 1 12 0 2)) vmem
    let p := planVcmp w (s.dev.core 0) s.mem fun _ => 0
    Issues s 0 w 0x4B ∧ p.valid 0 = true ∧ (p.run p.n).status ≠ .eccUncorrected ∧ (memAfter (.vcmp 0 w) s).nat 0x14000002000 1 = 3 := by decide +kernel

theorem test_vsarg : let w := vw 0x52 0 1 0 0 0
    let s := st (runs w (vcore 6 1 6 1 1)) vmem
    let p := planVsarg w (s.dev.core 0) s.mem fun _ => 0
    Issues s 0 w 0x52 ∧ p.valid 0 = true ∧ (p.run p.n).status ≠ .eccUncorrected ∧ (memAfter (.vsarg 0 w) s).nat 0x14000002000 8 = 2 + 2 ^ 32 := by decide +kernel

theorem test_vfn : let w := vw 0x4F 0 1 0 0 4
    let s := st (runs w (vcore 0 4 0 4 1)) { cells := [(0x14000000002, 0x80), (0x14000000003, 0x40)] }
    let p := planVfn w (s.dev.core 0) s.mem fun _ => 0
    Issues s 0 w 0x4F ∧ p.valid 0 = true ∧ (p.run p.n).status ≠ .eccUncorrected ∧ (memAfter (.vfn 0 w) s).nat 0x14000002000 4 = 0x40000000 := by decide +kernel

theorem test_vqfp4 : let w := vw 0x4E 0 1 0 0 0
    let s := st (runs w { rovings := ⟨rov 0 0x14000002000 5 0 32 ++ [(3, 0x14000003000)] ++ rov 1 0x14000000000 0 4 32⟩ }) { cells := [(0x14000000002, 0xC0), (0x14000000003, 0x40)] }
    let p := planVqfp4 w (s.dev.core 0) s.mem fun _ => 0
    Issues s 0 w 0x4E ∧ p.valid 0 = true ∧ (p.run p.n).status ≠ .eccUncorrected ∧ (memAfter (.vqfp4 0 w) s).nat 0x14000003000 1 = 127 ∧
      (memAfter (.vqfp4 0 w) s).nat 0x14000002000 1 = 7 := by decide +kernel

theorem test_stream_faults : ∀ x ∈ ([(0x40, fun w => planBinary w FV.add (· + ·)), (0x41, fun w => planBinary w FV.sub (· - ·)), (0x42, fun w => planBinary w FV.mul (· * ·)), (0x43, planVfma),
      (0x44, fun w => planBinary w FV.max max), (0x45, fun w => planBinary w FV.min min), (0x46, fun w => planUnary w FV.abs fun a => a.natAbs), (0x47, fun w => planUnary w FV.neg fun a => -a),
      (0x4D, planVcvt), (0x4F, planVfn), (0x48, planVbit), (0x49, fun w => planShift w shiftLeft), (0x4A, fun w => planShift w shiftRight), (0x4B, planVcmp), (0x4C, planVsel), (0x4E, planVqfp4),
      (0x50, planVscan), (0x51, planVsred), (0x52, planVsarg), (0x53, planVcmprs), (0x54, planVexpnd), (0x55, planVgath), (0x56, planVscat)] : List (Nat × (Word → Core → Mem → (Nat → Nat) → VPlan))),
    let w := vw x.1 0 1 0 0 0
    let s := st (runs w (vcore 6 1 13 1 2)) vmem
    Issues s 0 w x.1 ∧ (s.dev.core 0).vq.length < 8 ∧ (x.2 w (s.dev.core 0) s.mem fun _ => 0).valid 0 = false := by decide +kernel

/-- SAT with an integer destination (R135). -/
theorem test_stream_sat : let w := vw 0x40 0 1 2 0 0 0 0 (2 ^ 34)
    let s := st (runs w (vcore 6 1 6 1 2)) vmem
    (planBinary w FV.add (· + ·) (s.dev.core 0) s.mem fun _ => 0).valid 0 = false ∧ wordOk w = true := by decide +kernel

theorem test_vseed : ∀ x ∈ [0, 9], let w := vw 0x57 0 0 0 0 0 0 4 0
    let s := st (runs w { sregs := ⟨[(4, BitVec.ofNat 64 x)]⟩, vgen := 3 })
    Issues s 0 w 0x57 ∧ ((after (.vseed 0 w) s).core 0).vgen = (if x = 0 then 3 else 9) ∧ ((after (.vseed 0 w) s).core 0).vq = [] := by decide +kernel

theorem test_rovings_memory : ∀ x ∈ [(0x58, true), (0x58, false), (0x59, true), (0x59, false)],
    let w := if x.1 = 0x58 then vw 0x58 1 0 0 0 0 0 4 1 else vw 0x59 0 2 0 0 0 0 4 1
    let base := if x.2 then 0x14000000000 else 0x14000000010
    let s := st (runs w { sregs := ⟨[(4, BitVec.ofNat 64 base)]⟩, rovings := ⟨[(8, 0x1234)]⟩ }) { cells := [(0x14000000020, 5)] }
    let a := (s.dev.core 0).rovAddress w
    s.mem.wf = true ∧ Issues s 0 w x.1 ∧ (a % 32 = 0 ↔ x.2 = true) ∧ inOwn 0 a 32 = true ∧ (s.dev.reachFrom (some 0) (s.dev.partOfCore 0) a 32).1 = .ok ∧ Clean s.mem a 32 ∧
      (x.2 = true → ((after (.vrld 0 w) s).core 0).rovings.get 0 4 = (if x.1 = 0x58 then 5 else 0) ∧ (memAfter (.vrst 0 w) s).nat a 8 = (if x.1 = 0x58 then 5 else 0x1234)) := by
  decide +kernel

theorem test_rovings_fields : let w := vw 0x5A 1 0 0 0 5 0 4 0
    let v := vw 0x5B 0 1 0 0 4 7 0 0
    let s (x : Nat) := st (runs w { sregs := ⟨[(4, BitVec.ofNat 64 x)]⟩, rovings := ⟨[(5, 0xFFFFFFFE)]⟩ })
    let t := st (runs v { rovings := ⟨[(5, 0xFFFFFFFE)]⟩ })
    Issues (s 6) 0 w 0x5A ∧ ((after (.vrset 0 w) (s 6)).core 0).rovings.get 0 5 = 0x6FFFFFFFE ∧ Issues (s (2 ^ 24)) 0 w 0x5A ∧
      ((after (.vrset 0 w) (s (2 ^ 24))).core 0).first.get .ok 1 = .formatFault ∧ Issues t 0 v 0x5B ∧ ((after (.vrget 0 v) t).core 0).reg 7 = 2 ^ 64 - 2 := by decide +kernel

theorem test_stream_completes : let x : Staged := { seq := 0, status := .formatFault, result := some (3, 9) }
    let s := st ((dev part0).setCore 0 { vq := [x], pending := [3] })
    s.dev.released (coreDom (0 : Fin 1024)) = true ∧ (s.dev.core 0).vq = x :: [] ∧ ((after (.streamOpComplete 0) s).core 0).reg 3 = 9 ∧ ((after (.streamOpComplete 0) s).core 0).pending = [] ∧
      (after (.requestPromotion 0) s).word .STR_PROMO 0 = 1 := by decide +kernel

/-! ### A full queue -/

theorem test_full_queues : ∀ x ∈ (([mw 0 5 0 0, dw 0 0, rw 0x22 0 1 0 0 0 0].map fun w => (w, 0)) ++ ([0x40, 0x41, 0x42, 0x43, 0x44, 0x45, 0x46, 0x47, 0x48, 0x49, 0x4A, 0x4B, 0x4C, 0x4D, 0x4E, 0x4F, 0x50,
      0x51, 0x52, 0x53, 0x54, 0x55, 0x56, 0x57, 0x58, 0x59, 0x5A, 0x5B].map fun t => (vw t 0 0 0 0 0, 0)) ++ [(rw 0x60 0 1 0 0 0 0, 0), (rw 0x80 1 1 2 0 0 0, 0), (rw 0x81 1 1 2 0 0 0, 0), (rw 0x82 1 1 0 0 0 0, 0),
      (rw 0x83 1 1 0 0 0 0, 0)] : List (Word × Nat)),
    let full : Core := { mq := List.replicate 8 { seq := 0 }, vq := List.replicate 8 { seq := 0 }, xq := List.replicate 16 { seq := 0, addr := 0 },
                         yq := List.replicate 16 { seq := 0, kind := .sig, id := 0, x := 0, rd := 0 } }
    let s := st (runs x.1 full)
    Issues s 0 x.1 (Op.top x.1) ∧ 8 ≤ (s.dev.core 0).mq.length ∧ 8 ≤ (s.dev.core 0).vq.length ∧ 16 ≤ (s.dev.core 0).xq.length ∧ 16 ≤ (s.dev.core 0).yq.length := by decide +kernel

/-! ### Classes X, Y and T -/

theorem test_xdma : ∀ x ∈ [(0x14000000020, true), (0x14000000010, false), (0x10000000020, false)], let w := rw 0x60 0 1 0 0 0 0
    let s := st (runs w { sregs := ⟨[(1, BitVec.ofNat 64 x.1)]⟩ })
    Issues s 0 w 0x60 ∧ (s.dev.core 0).xq.length < 16 ∧ ((x.1 % 32 = 0 ∧ inBobbin 0 x.1 32 = true) ↔ x.2 = true) ∧
      ((after (.xdma 0 w) s).core 0).xq.map (·.addr) = (if x.2 then [x.1] else []) ∧
      ((after (.xdma 0 w) s).core 0).first.get .ok 2 = (if x.2 then .ok else .formatFault) := by decide +kernel

theorem test_xild : ∀ x ∈ [(0x14000000008, 8192, 0, true), (0x14000000008, 8192, 1, false), (0x14000000008, 0, 0, false), (0x14000000004, 1, 0, false), (0x15000000000, 1, 0, false)],
    let w := rw 0x61 0 1 2 0 0 x.2.2.1
    let s := st (runs w { sregs := ⟨[(1, BitVec.ofNat 64 x.1), (2, BitVec.ofNat 64 x.2.1)]⟩ })
    let bad := bits (Op.imm w) 13 19 ≠ 0 ∨ x.2.1 = 0 ∨ 8192 < x.2.1 ∨ 8192 < bits (Op.imm w) 0 13 + x.2.1 ∨ x.1 % 8 ≠ 0 ∨
      s.dev.reachAt (s.dev.partOfCore 0) x.1 = .formatFault ∨ s.dev.reachAt (s.dev.partOfCore 0) x.1 = .partitionDenied
    Issues s 0 w 0x61 ∧ (s.dev.core 0).xq.length < 16 ∧ (bad ↔ x.2.2.2 = false) ∧ ((after (.xild 0 w) s).core 0).run = (if x.2.2.2 then .run else .stopping) := by decide +kernel

theorem test_xcnt : let w := rw 0x62 1 0 0 0 0 0
    let s := st (runs w { xq := [{ seq := 0, addr := 0 }] })
    Issues s 0 w 0x62 ∧ ((after (.xcnt 0 w) s).core 0).reg 1 = 1 := by decide +kernel

/-- A COPY of one row of 16 bytes from 0x14000001000 to 0x14000002000, as a descriptor at 0x14000000000. -/
def copyMem : Mem :=
  { cells := [(0x14000000001, 0x10), (0x14000000004, 0x40), (0x14000000005, 1), (0x14000000009, 0x20), (0x1400000000C, 0x40), (0x1400000000D, 1), (0x14000000010, 16),
      (0x14000000013, 1), (0x14000001003, 7)] }

theorem test_descriptor_starts : ∀ ok ∈ [true, false], let x : Dma := { seq := 0, addr := if ok then 0x14000000000 else 0x14000000020 }
    let s := st ((dev part0).setCore 0 { xq := [x] }) copyMem
    let e := Desc.of ((List.range 4).map fun i => s.mem.nat (x.addr + 8 * i) 8)
    s.mem.wf = true ∧ s.dev.released (coreDom (0 : Fin 1024)) = true ∧ (s.dev.core 0).xq = x :: [] ∧ (s.dev.reach (s.dev.partOfCore 0) x.addr 32).1 = .ok ∧ e.ok 0 = ok ∧
      (ok = true → e.kind = 0 ∧ e.xpose = 0 ∧ e.rows = 1 ∧ InStores e.src e.rowlen ∧ InStores e.dst e.rowlen ∧ (s.dev.reach (s.dev.partOfCore 0) e.src e.rowlen).1 = .ok ∧
        (s.dev.reach (s.dev.partOfCore 0) e.dst e.rowlen).1 = .ok ∧ (memAfter (.dmaDescriptorStart 0) s).byte 0x14000002003 = 7) := by decide +kernel

/-- A descriptor at 0x14000000000 of its four words. -/
def descMem (w0 w1 w2 w3 : Nat) : Mem := ({ cells := [] } : Mem).puts 0x14000000000 ([w0, w1, w2, w3].flatMap (leBytes 8))

/-- GATHER and SCATTER of two rows of 16 bytes by the index list 3, 1 at 0x14000000100: row 3 of the source comes first, or row 0 goes to row 3. -/
theorem test_gather_scatter : ∀ kind ∈ [1, 2], let x : Dma := { seq := 0, addr := 0x14000000000 }
    let m := (((descMem 0x14000001000 0x14000002000 (16 + 2 * 2 ^ 24 + kind * 2 ^ 50) 0x14000000100).puts 0x14000000100 ([3, 1].flatMap (leBytes 4))).puts 0x14000001000 [7]).puts 0x14000001030 [9]
    let s := st ((dev part0).setCore 0 { xq := [x] }) m
    let e := Desc.of ((List.range 4).map fun i => s.mem.nat (x.addr + 8 * i) 8)
    s.mem.wf = true ∧ e.ok 0 = true ∧ e.kind = kind ∧ e.xpose = 0 ∧ e.rows = 2 ∧ (∀ q < 2, InStores (e.src + 48) 16 ∧ InStores (e.dst + 48) 16 ∧ s.dev.serves (some 0) (s.dev.partOfCore 0) (e.idx + 4 * q) 4) ∧
      (∀ a ∈ [e.src, e.src + 16, e.src + 48, e.dst, e.dst + 16, e.dst + 48], s.dev.serves (some 0) (s.dev.partOfCore 0) a 16) ∧
      (memAfter (.dmaDescriptorStart 0) s).byte 0x14000002000 = (if kind = 1 then 9 else 0) ∧ (memAfter (.dmaDescriptorStart 0) s).byte 0x14000002030 = (if kind = 1 then 0 else 7) := by decide +kernel

/-- A COPY of 32 rows of 32 elements of one byte with XPOSE 1: element (1, 2) goes to (2, 1). -/
theorem test_transposes : let x : Dma := { seq := 0, addr := 0x14000000000 }
    let m := (descMem 0x14000001000 0x14000002000 (32 + 32 * 2 ^ 24 + 2 ^ 48) (32 + 32 * 2 ^ 32)).puts 0x14000001022 [7]
    let s := st ((dev part0).setCore 0 { xq := [x] }) m
    let e := Desc.of ((List.range 4).map fun i => s.mem.nat (x.addr + 8 * i) 8)
    s.mem.wf = true ∧ e.ok 0 = true ∧ e.kind = 0 ∧ e.xpose = 1 ∧ e.rows = 32 ∧ e.rowlen = 32 ∧ e.sstride = 32 ∧ e.dstride = 32 ∧ (∀ i < 32, InStores (e.src + 32 * i) 32 ∧ InStores (e.dst + 32 * i) 32) ∧
      (∀ i < 32, s.dev.serves (some 0) (s.dev.partOfCore 0) (e.src + 32 * i) 32 ∧ s.dev.serves (some 0) (s.dev.partOfCore 0) (e.dst + 32 * i) 32) ∧
      (memAfter (.dmaDescriptorStart 0) s).byte 0x14000002041 = 7 := by decide +kernel

/-- The completion record, and an XILD that starts and completes. -/
theorem test_record_and_xild : let x : Dma := { seq := 0, addr := 0, running := true, words := [0, 2 ^ 63 + 4 * 2 ^ 48, 0, 0], bytes := 48 }
    let s := st ((dev part0).setCore 0 { xq := [x] })
    let y : Dma := { seq := 0, addr := 0x14000000008, load := some (5, 1, 0x14000000008) }
    let t := st ((dev part0).setCore 0 { xq := [y] }) { cells := [(0x14000000008, 3)] }
    (Desc.of x.words).compEn = true ∧ (Desc.of x.words).sig = false ∧ (s.dev.reachFrom (some 0) (s.dev.partOfCore 0) (bobbinBase 0 + 16 * 4) 16).1 = .ok ∧
      (memAfter (.dmaDescriptorComplete 0 0) s).nat (bobbinBase 0 + 64) 8 = 48 * 2 ^ 16 ∧ ((after (.dmaDescriptorComplete 0 0) s).core 0).xq = [] ∧
      t.dev.margined (t.dev.partOfCore 0) 0x14000000008 8 = false ∧ t.dev.serves (some 0) (t.dev.partOfCore 0) 0x14000000008 8 ∧ Clean t.mem 0x14000000008 8 ∧ isView 0x14000000008 = false ∧
      Region.target 0x14000000008 = 0x14000000008 ∧ ((after (.dmaDescriptorStart 0) t).core 0).istore.get 0 5 = 3 ∧ ((after (.dmaDescriptorComplete 0 0) (st (after (.dmaDescriptorStart 0) t))).core 0).xq = [] := by
  decide +kernel

theorem test_descriptor_completes : ∀ sig ∈ [false, true], let x : Dma := { seq := 0, addr := 0, running := true, words := [5 * 2 ^ 48, 0, if sig then 2 ^ 52 else 0, 0], status := .isolated }
    let s := st ((dev part0).setCore 0 { xq := [x] })
    let e := Desc.of x.words
    s.dev.released (coreDom (0 : Fin 1024)) = true ∧ (s.dev.core 0).xq = x :: [] ∧ x.load = none ∧ x.readable = true ∧ e.compEn = false ∧ e.sig = sig ∧ s.dev.partOfSync e.sync = s.dev.partOfCore 0 ∧
      ((after (.dmaDescriptorComplete 0 0) s).core 0).xq.length = flag sig ∧ (after (.dmaDescriptorComplete 0 0) s).sync.arrivals.length = flag sig := by decide +kernel

theorem test_sync_instructions : ∀ x ∈ ([(0x80, Instr.ysig, .run), (0x81, .ywait, .wait), (0x82, .ybar, .run), (0x83, .yread, .run)] : List (Nat × (Fin 1024 → Word → Instr) × RunState)),
    let w := rw x.1 1 2 0 (flag (x.1 < 0x82)) 0 (if x.1 < 0x82 then 5 else 0)
    let s := st (runs w { sregs := ⟨[(2, if x.1 = 0x82 then 61440 else 7)]⟩ })
    let k := (after (x.2.1 0 w) s).core 0
    Issues s 0 w x.1 ∧ (s.dev.core 0).yq.length < 16 ∧ k.yq.length + (after (x.2.1 0 w) s).sync.arrivals.length = (if x.1 = 0x83 then 0 else 2) ∧ k.run = x.2.2 := by decide +kernel

theorem test_yread : let w := rw 0x83 1 2 0 0 0 (3 * 2 ^ 16)
    let s := st (runs w { sregs := ⟨[(2, 7)]⟩ } [(F.SYNC_OBJ_LO_VALUE, 10, 77)])
    Issues s 0 w 0x83 ∧ (s.dev.core 0).yq = [] ∧ (s.dev.core 0).sq = [] ∧ ((after (.yread 0 w) s).core 0).reg 1 = 77 ∧
      (let t := st (runs w { sregs := ⟨[(2, 7)]⟩ } [(F.SYNC_OBJ_LO_VALUE, 10, 77), (F.LBI_DIE_STAT_PORTS_ACTIVE, 0, 0)])
       t.dev.offBond 0 = true ∧ ((after (.yread 0 w) t).core 0).reg 1 = BitVec.ofNat 64 (Status.isolated.code * 2 ^ 32)) := by decide +kernel

theorem test_ywait_timeout : let x : Waiter := { id := 7, barrier := false, eq := false, x := 5, left := some 0, reply := .core 0 1 0 }
    let d := (dev part0).setCore 0 { run := .wait, stall := .sync 7, pending := [1], seq := 1, yq := [{ seq := 0, kind := .wait, id := 7, x := 5, rd := 1, sent := true }] }
    let s := st { d with sync := { waiters := [x] } }
    let k := (after (.ywaitTimeout 0) s).core 0
    s.dev.released (coreDom (0 : Fin 1024)) = true ∧ s.dev.sync.waiters.find? (fun y => match y.reply with
        | .core c' _ n => decide (c' = 0 ∧ y.left = some 0) && s.dev.awaits 0 n
        | _ => false) = some x ∧ k.run = .run ∧ k.pc = 1 ∧ (after (.ywaitTimeout 0) s).sync.waiters = [] := by decide +kernel

/-- A core of partition 0 in its plan twist 3 of slot 5. -/
def planned (w : Word) (k : Core) : State :=
  let d := runs w k [(F.TWIST_CNT_CNT, 0, 10), (F.TWIST_START_START, 0, 7)]
  st { d with tw := { d.tw with slot := 5 }, fab := { d.fab with plans := ⟨[(0, { active := some { slice := 1, guard := 0, ackRes := 0, rows := 0, cols := 0, myrow := 0, mycol := 0, rowNext := 0, colNext := 0 } })]⟩ } }

theorem test_tread : ∀ x ∈ [(0, 10), (1, 3), (2, 0), (3, 5)], let w := rw 0xA0 1 0 0 0 x.1 0
    Issues (planned w {}) 0 w 0xA0 ∧ ((after (.tread 0 w) (planned w {})).core 0).reg 1 = BitVec.ofNat 64 x.2 := by decide +kernel

theorem test_twait : ∀ x ∈ [(3, Stall.none, 1), (4, .twist 4, 0)], let w := rw 0xA1 0 0 0 0 0 x.1
    let s := planned w {}
    Issues s 0 w 0xA1 ∧ (s.dev.core 0).twistArg w = x.1 ∧ s.dev.corePlanTwist 0 = 3 ∧ ((after (.twait 0 w) s).core 0).stall = x.2.1 ∧ ((after (.twait 0 w) s).core 0).pc = x.2.2 := by
  decide +kernel

theorem test_due : let w := rw 0xA2 0 0 0 0 0 0xFFFFFFFF
    let v := rw 0xA3 0 0 0 0 0 0
    Issues (st (runs w)) 0 w 0xA2 ∧ ((after (.tdue 0 w) (st (runs w))).core 0).due = some (-1) ∧ Issues (st (runs v { due := some 4 })) 0 v 0xA3 ∧
      ((after (.tdone 0 v) (st (runs v { due := some 4 }))).core 0).due = none := by decide +kernel

theorem test_tskein : ∀ n ∈ [0, 8], let w := rw 0xA4 1 2 0 0 0 0
    let s := st (runs w { sregs := ⟨[(2, 0x14000000000)]⟩, tq := List.replicate n ⟨9, 0, 0, 0⟩ })
    Issues s 0 w 0xA4 ∧ (s.dev.core 0).tq.length = n ∧ ((after (.tskein 0 w) s).core 0).tq.length = (if n = 8 then 8 else 1) ∧ ((after (.tskein 0 w) s).core 0).pc = (if n = 8 then 0 else 1) := by
  decide +kernel

theorem test_tphase : let w := rw 0xA5 0 0 0 0 6 0
    Issues (st (runs w)) 0 w 0xA5 ∧ ((after (.tphase 0 w) (st (runs w))).core 0).phase = some 6 := by decide +kernel

/-! ### Running, stopping and loading a core -/

theorem test_core_control : ∀ x ∈ ([(.idle, 5), (.halt, 5), (.run, 0), (.wait, 0)] : List (RunState × Nat)),
    let s := st ((dev part0).setCore 0 { run := x.1, haltStatus := .formatFault })
    s.dev.released 2 = true ∧ s.dev.mayWriteCore (.part 0) 0 = true ∧ s.dev.dieClosed 0 = false ∧ ((after (.coreStart (.part 0) 0 5) s).core 0).pc = x.2 ∧
      (after (.coreStart (.part 0) 0 5) s).reply = (if x.2 = 5 then .ok else .formatFault, []) ∧
      ((after (.coreStop (.part 0) 0 5) s).core 0).run = (if x.2 = 5 then x.1 else .stopping) := by decide +kernel

theorem test_core_load : let s := st ((dev (part0 ++ [(F.CORE_ILD_COUNT, 0, 1), (F.CORE_ILD_SRC, 0, 0x14000000000)])).setCore 0 { run := .halt })
    let t := st ((dev part0).setCore 0 { run := .loading, beforeLoad := .halt, loadFrom := (0x14000000000, 1) }) { cells := [(0x14000000000, 9)] }
    ((after (.coreLoad (.part 0) 0 0) s).core 0).run = .loading ∧ t.dev.released (coreDom (0 : Fin 1024)) = true ∧ (t.dev.core 0).loadFrom = (0x14000000000, 1) ∧
      (t.dev.reach (t.dev.partOfCore 0) 0x14000000000 8).1 = .ok ∧ Clean t.mem 0x14000000000 8 ∧ ((after (.coreLoadComplete 0) t).core 0).istore.get 0 0 = 9 ∧
      ((after (.coreLoadComplete 0) t).core 0).run = .halt := by decide +kernel

/-! ### The bond and the compute dies -/

/-- A device with bond port 3 in a state, its die alive. -/
def bond (state : Nat) (x : BondPort := {}) (l : List (Fld × Nat × Nat) := []) : State :=
  st ((dev ([(F.LBI_DIE_STAT_ALIVE, 0, 1), (F.LBI_PORT_STAT_STATE, 3, state)] ++ l)).setBport 3 x)

theorem test_bond_starts : ∀ n ∈ [0, 16], let s := bond 0 { failures := n, seq := 255 }
    s.dev.released 2 = true ∧ s.dev.mayTrain 3 = true ∧ (s.dev.bport 3).failures = n ∧ (after (.bondTrainingStart 3) s).bondState 3 = (if n = 16 then 0 else 1) ∧
      (after (.retrainRetryTimer 3) s).bondState 3 = (if n = 16 then 1 else 0) ∧ (after (.bondTrainingStart 3) s).get F.LBI_PORT_STAT_SEQ 3 = 0 := by decide +kernel

theorem test_bond_clock : let a : BitVec 4 := 5
    let s := bond 1
    s.dev.bondState 3 = 1 ∧ a &&& 10 = 0 ∧ (after (.clockStepEnd 3 a 10) s).bondState 3 = 2 ∧ (after (.clockStepEnd 3 a 10) s).get F.LBI_PORT_STAT_CLK_ALT 3 = 5 ∧ a &&& 4 ≠ 0 ∧
      (after (.clockStepEnd 3 a 4) s).bondState 3 = 0 ∧ (after (.clockStepEnd 3 a 4) s).get F.LBI_PORT_STAT_REASON 3 = 1 := by decide +kernel

theorem test_bond_lanes : (bond 2).dev.bondState 3 = 2 ∧ (after (.laneTestEnd 3 [(1, 5)] []) (bond 2)).bondState 3 = 3 ∧
    ((after (.laneTestEnd 3 [(1, 5)] []) (bond 2)).bport 3).failedUp = [(1, 5)] := by decide +kernel

theorem test_capability_block : let w (i : Nat) : Word := BitVec.ofNat 64 ((computeCap[i]?).getD 0)
    let a : Agreement := ⟨0x10, 0x10, 0x3F, 512⟩
    let s := bond 3
    s.dev.bondState 3 = 3 ∧ capCrcOk ([w 0, w 1, w 2, w 3].map (·.toNat)) = true ∧ settleCap ([w 0, w 1, w 2, w 3].map (·.toNat)) = some a ∧
      (∀ i < 64, (s.dev.bport (64 * (3 / 64) + i)).agreed = none ∨ (s.dev.bport (64 * (3 / 64) + i)).agreed = some a) ∧ (after (.capabilityBlock 3 (w 0) (w 1) (w 2) (w 3)) s).bondState 3 = 4 ∧
      capCrcOk ([w 0, w 1, w 2, 0].map (·.toNat)) = false ∧ (s.dev.bport 3).capRetries < 4 ∧ ((after (.capabilityBlock 3 (w 0) (w 1) (w 2) 0) s).bport 3).capRetries = 1 := by decide +kernel

theorem test_repair_map : let s := bond 4 { failedUp := [(1, 5), (1, 160), (2, 164)] }
    let t := bond 4 { mapUp := some [] }
    (∀ g < 4, (groupFailed (s.dev.bport 3).failedUp g).length ≤ 8) ∧ (s.dev.bport 3).mapDown = none ∧ (after (.repairMap 3 true [1, 5]) s).get F.LBI_PORT_STAT_SPARES_UP 3 = 2 ∧
      (t.dev.bport 3).mapUp ≠ none ∧ (after (.repairMap 3 false [9]) t).bondState 3 = 5 := by decide +kernel

theorem test_width_beacon : ∀ x ∈ [(2, 5, 6), (1, 5, 5), (2, 6, 6)], let s := bond x.2.1 { agreed := some ⟨0x10, 0x10, 0x3F, 512⟩, seq := 9, mapUp := some [], mapDown := some [], beacons := x.1, failures := 4 }
    let v : Word := BitVec.ofNat 64 (s.dev.widthBeacon 3)
    s.dev.bondState 3 = x.2.1 ∧ v.toNat = s.dev.widthBeacon 3 ∧ (after (.widthBeacon 3 v) s).bondState 3 = x.2.2 ∧ (after (.widthBeacon 3 (v + 1)) s).bondState 3 = 0 ∧
      (v + 1).toNat ≠ s.dev.widthBeacon 3 ∧ (after (.widthBeaconSend 3) s).out.length = (if x.2.1 = 6 then 1 else 0) := by decide +kernel

theorem test_bond_port_control : ∀ n ∈ [0, 6], let s := bond n
    s.dev.bondState 3 ≠ 7 ∧ (s.dev.bport 3).locked = false ∧ s.dev.isSet F.LBI_DIE_STAT_ALIVE (3 / 64) = true ∧ (after (.lbiPortDisable .owner 3) s).get F.LBI_PORT_STAT_REASON 3 = 8 ∧
      (after (.lbiPortRetrain .mgmt 3) s).bondState 3 = 1 ∧ (after (.lbiPortDisable (.part 1) 3) s).reply = (.partitionDenied, []) := by decide +kernel

theorem test_flits : let s := bond 6 { up := { freshDir with rxNext := 4, unacked := [(7, ⟨0, 3, true, [1]⟩), (8, ⟨1, 4, true, [2]⟩)] }, down := freshDir }
    let words : List (BitVec 32) := List.replicate 16 9
    s.dev.bondState 3 = 6 ∧ (portDir (s.dev.bport 3) true).rxNext = 4 ∧ (portDir (s.dev.bport 3) false).rxNext = 0 ∧ (portDir (s.dev.bport 3) true).waiting = [] ∧
      ((after (.flitReceive 3 true 4 1 words 0 false) s).bport 3).up.rxNext = 5 ∧ after (.flitReceive 3 true 5 1 words 0 false) s = s.dev ∧
      ((after (.flitReceive 3 false 0 1 words 0 true) s).bport 3).down.discarding = true ∧ (portDir (s.dev.bport 3) true).unacked.any (·.1 = 7) = true ∧
      (after (.bondNakReceive 3 true 7) s).out.length = 2 ∧ ((after (.bondAcknowledgement 3 true 7) s).bport 3).up.unacked = [(8, ⟨1, 4, true, [2]⟩)] ∧
      ((after (.bondCreditReturn 3 true 0 5) s).bport 3).up.credits.get 0 0 = 64 := by decide +kernel

theorem test_network_message : ∀ op ∈ [1, 2], let m : NetMsg := ⟨0x14000000000, op, 0, 1, 0, 9, 0, 0, false, List.replicate 48 5⟩
    let d := (bond 6 { up := { freshDir with parts := ⟨[(0, m.flits)]⟩ }, down := freshDir } part0).dev
    let s := st d { cells := [(0x14000000001, 7)] }
    s.mem.wf = true ∧ s.dev.bondState 3 = 6 ∧ wholeMessage ((portDir (s.dev.bport 3) true).parts.get [] 0) = some (m, []) ∧ m.payload.length ≠ 0 ∧
      (s.dev.reach (some m.part) m.addr m.payload.length).1 = .ok ∧ Clean s.mem m.addr m.payload.length ∧
      (memAfter (.networkMessage 3 true 0) s).byte 0x14000000001 = (if op = 1 then 7 else 5) ∧ (after (.networkMessage 3 true 0) s).out.map (·.kind) = [.bondCredit, .bondFlit] := by decide +kernel

/-- R40: the transfer with an unacknowledged flit ends with ISOLATED, and a message that waits whole takes the other ACTIVE port; R30: a message longer than the
buffers returns its credits as it comes. -/
theorem test_port_drops : let f (t : Nat) : Flit := ⟨1, t, true, [1]⟩
    let s := st ((bond 6 { up := freshDir, down := { freshDir with unacked := [(7, f 3)], waiting := [f 4] } }).dev.put F.LBI_PORT_STAT_STATE 9 6 |>.setBport 9 { up := freshDir, down := freshDir })
    let d := after (.lbiPortDisable .owner 3) s
    let long := bond 6 { up := { freshDir with parts := ⟨[(0, [[0, 99 * 2 ^ 24], [1]])]⟩ } }
    (s.dev.losePort 3).reply = (.isolated, [3]) ∧ ((d.bport 9).down.unacked.map (·.2.tag)) = [4] ∧ d.bondState 3 = 0 ∧
      ((after (.networkMessage 3 true 0) long).bport 3).up.taken.get [] 0 = [[0, 99 * 2 ^ 24], [1]] ∧
      (after (.networkMessage 3 true 0) long).out = [⟨.bondCredit, 3, [1, 0, 2]⟩] := by decide +kernel

theorem test_bond_margin : let v : Word := BitVec.ofNat 64 (3 + 8 * 2 ^ 12)
    let s := bond 6 { agreed := some ⟨0x10, 0x10, 0x3F, 512⟩ }
    let t := bond 6 { agreed := some ⟨0x10, 0x10, 0x3F, 512⟩ } [(F.LBI_MRG_CTL_BUSY, 0, 1)]
    s.dev.bondState (bits v.toNat 0 7) = 6 ∧ s.dev.isSet F.LBI_MRG_CTL_BUSY = false ∧ bits v.toNat 12 8 ≠ 0 ∧ (s.dev.bport 3).agreed = some ⟨0x10, 0x10, 0x3F, 512⟩ ∧
      (0x3F : Nat).testBit 5 = true ∧ (after (.lbiMarginStart .mgmt v) s).isSet F.LBI_MRG_CTL_BUSY = true ∧ (after (.lbiMarginStart .mgmt 0) s).reply = (.isolated, []) ∧
      s.dev.bondState (bits (0 : Word).toNat 0 7) ≠ 6 ∧ t.dev.isSet F.LBI_MRG_CTL_BUSY = true := by decide +kernel

theorem test_die_loss : let s := bond 6
    s.dev.isSet F.LBI_DIE_STAT_ALIVE 0 = true ∧ s.dev.isSet F.LBI_DIE_STAT_LOST 0 = false ∧ 8 ≤ ((List.range 64).filter fun i => (0xFF : BitVec 64).getLsbD i).length ∧
      (after (.forwardedClockLoss 0 0x7F) s).isSet F.LBI_DIE_STAT_LOST 0 = false := by decide +kernel

/-- Core 0 of partition 0 has sent `o`, which reaches the frozen object 65. -/
def frozen (o : SyncOp) (y : List YOp) (stall : Stall) : State :=
  let d := (dev (part0 ++ [(F.SYNC_OBJ_LO_STATE, 65, 1), (F.ZQL_PORT_STAT_STATE, 1, 2)])).setCore 0 { run := .run, stall, pending := [1], seq := 1, yq := y }
  st { d with sync := { arrivals := [o] } }

/-- A wait and a signal of core 0 at the frozen object 65 end with ISOLATED, and so does a wait of port 1 (R45). -/
theorem test_frozen_object : ∀ eq ∈ [false, true], let y : YOp := { seq := 0, kind := .wait, id := 65, x := 5, rd := 1, sent := true }
    let s := frozen (.wait 65 5 eq 0 (some 3) (.core 0 1 0)) [y] (.sync 65)
    let t := frozen (.signal 65 5 0 0 15 3 (.core 0 1 0)) [{ y with kind := .sig }] .none
    let p := frozen (.wait 65 5 eq 0 none (.port 1 9)) [] .none
    let id := Status.isolated.code
    s.dev.objState 65 = 1 ∧ s.dev.partOfSync 65 = Dev.whoOf 0 ∧ (s.dev.nextOp 1).map (·.2.awaits 0 0) = some true ∧ ((after (.syncWaitStart 1) s).core 0).yq = [] ∧ ((after (.syncWaitStart 1) s).core 0).stall = .none ∧ (after (.syncWaitStart 1) s).sync.waiters = [] ∧
      ((after (.syncSignalApply 1) t).core 0).yq = [] ∧ (after (.syncSignalApply 1) t).objValue 65 = 0 ∧ ((after (.syncWaitStart 1) p).zport 1).queue.map (·.status) = [id] := by decide +kernel

theorem test_wrap_open : let x : BondPort := { agreed := some ⟨0x10, 0x10, 0x3F, 512⟩ }
    let d := dev [(F.LBI_DIE_STAT_ALIVE, 0, 1), (F.LBI_DIE_STAT_PORTS_ACTIVE, 0, 1), (F.LBI_DIE_STAT_WRAP_CLOSED, 0, 1)]
    let s := st { d with ports := ⟨(List.range 64).map fun i => (i, x)⟩ }
    s.dev.mayOpen 0 = true ∧ (after (.lbiWrapOpen .mgmt 0) s).isSet F.LBI_DIE_STAT_WRAP_CLOSED 0 = false := by decide +kernel

/-! ### HBM -/

/-- A request of 32 bytes at HBM address 32 through port 2. -/
def hbmRead : HbmAccess := { src := 5, who := some 0, use := .core, port := 2, tag := 9, addr := 32, len := 32, data := none, reqBad := false, respBad := false }

/-- Listed bytes of the unit at HBM address 32. -/
def hbmMem : Mem := { cells := (List.range 32).map fun i => ⟨32 + i, BitVec.ofNat 8 (i + 1)⟩ }

theorem test_hbm_read : let s := st (dev part0) hbmMem
    let t := st (dev (part0 ++ [(F.HBM_MRG_CTL_BUSY, 0, 1), (F.HBM_MRG_CTL_CHANNEL, 0, 0)])) hbmMem
    let d := after (.hbmRequest hbmRead) s
    let c := s.dev.channelOf 32
    s.dev.released 3 = true ∧ (s.dev.reach (some 0) 32 32).1 = .ok ∧ s.dev.underMargin c = false ∧ Dev.isStaple 32 32 = true ∧ (s.dev.chan c).staple.length < 128 ∧
      Dev.portShare (s.dev.chan c).staple 2 < 8 ∧ Clean s.mem 32 32 ∧ (d.chan c).staple.map (·.data.take 2) = [[1, 2]] ∧ d.out = [] ∧
      (t.dev.reach (some 0) 32 32).1 = .ok ∧ t.dev.underMargin (t.dev.channelOf 32) = true ∧ Dev.refused (t.dev.reach (some 1) 32 32).1 = true ∧ t.dev.hbmRoom { id := 0, src := 5, who := some 0, cls := 0, port := 2, addr := 32, len := 32, staple := true, data := none } = false ∧
      (after (.hbmRequest { hbmRead with who := some 1 }) s).out.map (·.kind) = [.hbmReply] := by decide +kernel

theorem test_hbm_write : let x := { hbmRead with data := some (List.replicate 32 7) }
    let s := st (dev part0) hbmMem
    (List.replicate 32 (7 : Byte)).length = x.len ∧ x.addr % 32 = 0 ∧ x.addr < hbmTop ∧ s.mem.wf = true ∧ (memAfter (.hbmRequest x) s).byte 40 = 7 ∧
      (after (.hbmRequest x) s).out.map (·.body) = [[9, 0]] := by decide +kernel

/-- A request that crosses a 256-byte boundary makes two entries (R158), one spoilt on its way is not performed (R167), and entries in the network go in when the run ends (R176). -/
theorem test_hbm_pieces : let x := { hbmRead with addr := 0x1F0, len := 0x120 }
    let s := st (dev part0) hbmMem
    let t := after (.hbmRequest x) s
    let m := after (.hbmRequest hbmRead) (st (dev (part0 ++ [(F.HBM_MRG_CTL_BUSY, 0, 1)])) hbmMem)
    x.pieces = [(0x1F0, 16), (0x200, 256), (0x300, 16)] ∧ (t.chan 0).bulk.map (·.len) = [16, 256, 16] ∧ t.hbm.requests.map (·.left) = [3] ∧ t.hbm.nextId = 1 ∧
      (after (.hbmRequest { hbmRead with reqBad := true }) s).out.map (·.body) = [[9, 1]] ∧ m.hbm.waiting.length = 1 ∧
      ((after (.hbmMarginEnd []) (st m hbmMem)).chan 0).staple.length = 1 ∧ (after (.hbmMarginEnd []) (st m hbmMem)).hbm.waiting = [] := by decide +kernel

/-- A whole aligned tile goes through a view; less does not (R164). -/
theorem test_hbm_view : let d := dev part0
    (d.reach (some 0) 0x20000000400 1024).1 = .ok ∧ (d.reach (some 0) 0x20000000400 32).1 = .formatFault ∧ (d.reach (some 0) 0x28000000400 2048).1 = .formatFault ∧
      Region.target 0x20000000400 = 0x400 ∧ Region.seen 0x20000000400 1 = 0x420 ∧ Region.seen 0x28000000000 2 = 64 ∧ Region.seen 0x28000000000 3 = 65 := by decide +kernel

theorem test_creel_grant : let r : HbmReq := { id := 3, src := 5, cls := 0, addr := 32, len := 1, write := false, port := 2, status := .ok, data := [1], arrival := 0, bursts := 1 }
    let d := dev part0
    let c : Fin 256 := 0
    let s := st ((d.setChan 0 { staple := [r], recent := ⟨[(1, [true, true, true])]⟩ }).modHbm fun h => { h with requests := [{ id := 3, src := 5, tag := 9, addr := 32, len := 1, left := 1, respBad := false }] })
    let ch := s.dev.chan c
    let aged : Chan := { ch with cycle := ch.cycle + 1, recent := ch.recent.mapValues fun _ l => Dev.ageStarts 1 l }
    s.dev.channelStatus c = .ok ∧ s.dev.underMargin c = false ∧ ((aged.recent.get [] 1).filter id).length + s.dev.level c < 4 ∧
      (s.dev.setChan 0 aged).hbmPick 0 1 [] = some (r, 0) ∧ (s.dev.setChan 0 aged).hbmPick 0 1 [0] = none ∧ s.dev.hbm.waiting = [] ∧
      (after (.hbmCreelGrant c 1 1 []) s).out.map (·.body) = [[9, 0, 1]] ∧ ((after (.hbmCreelGrant c 1 1 []) s).chan 0).staple = [] := by decide +kernel

/-- The last burst of a piece adds what it read; with the last piece the request answers with its bytes in order (R158, R160). -/
theorem test_last_burst : ∀ left ∈ [1, 2], let r : HbmReq := { id := 3, src := 5, cls := 0, addr := 256, len := 2, write := false, port := 2, status := .ok, data := [3, 4], arrival := 0, bursts := 1 }
    let q : HbmOpen := { id := 3, src := 5, tag := 9, addr := 254, len := 4, left, respBad := false, parts := [(254, [1, 2])] }
    let s := st (((dev part0).setChan 0 { bulk := [r] }).modHbm fun h => { h with requests := [q] })
    let t := after (.hbmCreelGrant 0 0 1 []) s
    ((s.dev.setChan 0 { s.dev.chan 0 with cycle := 1 }).hbmPick 0 0 []).map (·.1) = some r ∧ s.dev.hbm.requests.find? (·.id = r.id) = some q ∧ (Dev.coreUnit q.src).any s.dev.dieClosed = false ∧ (t.chan 0).bulk = [] ∧
      t.out.map (·.body) = (if left = 1 then [[9, 0, 1, 2, 3, 4]] else []) ∧ t.hbm.requests.map (·.left) = (if left = 1 then [] else [1]) ∧
      ((after (.hbmCreelGrant 0 0 1 []) (st ((dev part0).setChan 0 { bulk := [{ r with len := 40, bursts := 2 }] }))).chan 0).bulk = [{ r with len := 40 }] := by decide +kernel

/-- A write of two pieces is acknowledged once (R159). -/
theorem test_write_pieces : let x := { hbmRead with addr := 0x1E0, len := 64, data := some (List.replicate 64 7) }
    let s := st (dev part0)
    1 < x.pieces.length ∧ (s.dev.reach (some 0) 0x1E0 64).1 = .ok ∧ s.dev.hbm.waiting = [] ∧ isView 0x1E0 = false ∧ (after (.hbmRequest x) s).out.map (·.body) = [[9, 0]] ∧ (memAfter (.hbmRequest x) s).byte 0x200 = 7 := by decide +kernel

theorem test_patrol_scrub : let s := st (dev (part0 ++ [(F.HBM_STAT_READY, 0, 1)])) { soft := [3, 100] }
    s.dev.channelStatus 0 = .ok ∧ s.dev.isSet F.HBM_STAT_READY = true ∧ ((s.dev.setChan 0 { scrub := some 0 }).hbmPick 0 0 []).map (·.2) = some 384 ∧ (memAfter (.patrolScrub 0) s).soft = [100] ∧ ((after (.patrolScrub 0) s).chan 0).patrol = 32 ∧
      ((after (.patrolScrub 0) (st { (after (.patrolScrub 0) s).setChan 0 { patrol := 64, recent := ⟨[(0, [true])]⟩ } with reply := (.ok, []) } s.mem)).chan 0).scrub = some 0 := by decide +kernel

/-- A device with the limits of stack 2 set. -/
def warm (l : List (Fld × Nat × Nat)) (x : Therm := {}) : State :=
  st ((dev ([(F.HBM_THERM_CFG_THROTTLE, 0, 80), (F.HBM_THERM_CFG_HYST, 0, 5), (F.HBM_THERM_CFG_CRITICAL, 0, 100)] ++ l)).setTherm 2 x)

theorem test_throttle : ∀ x ∈ ([(80, 0, {}, 1), (79, 0, {}, 0), (80, 0, { since := 8 }, 0), (80, 3, {}, 3), (74, 2, { since := 99, cool := 99 }, 1), (75, 2, { since := 99, cool := 99 }, 2)] : List (Int × Nat × Therm × Nat)),
    let s := warm [(F.HBM_THERM_LEVEL, 2, x.2.1)] x.2.2.1
    s.dev.released 3 = true ∧ x.1 < s.dev.get F.HBM_THERM_CFG_CRITICAL ∧ (after (.stackTempReading 2 x.1) s).get F.HBM_THERM_LEVEL 2 = x.2.2.2 := by decide +kernel

theorem test_stack_leaves : let s := warm [(F.RST_RAIL_STAT_HBM, 0, 255)]
    (s.dev.therm 2).down = false ∧ (s.dev.therm 2).silent = false ∧ (after (.stackTempReading 2 100) s).channelStatus 10 = .isolated ∧
      (after (.stackTempReading 2 100) s).channelStatus 11 = .ok ∧ (after (.stackNoReading 2 false) s).get F.HBM_THERM_LEVEL 2 = 3 ∧
      (after (.stackNoReading 2 true) s).isSet F.HBM_THERM_CRIT 2 = true ∧ (after (.hbmRailOutOfTolerance 2) s).get F.RST_RAIL_STAT_HBM = 251 := by decide +kernel

theorem test_hbm_init : let s := st (dev [])
    s.dev.isSet F.HBM_STAT_READY = false ∧ (after (.hbmInitComplete [(7, [3, 70])]) s).isSet F.HBM_STAT_READY = true ∧ (after (.hbmInitComplete [(7, [3, 70])]) s).get F.HBM_CH_STAT_REPL_C0 7 = 70 ∧
      (after (.hbmInitComplete [(7, [3, 70])]) s).isSet F.HBM_CH_STAT_FAILED 7 = false := by decide +kernel

theorem test_hbm_margin : let s := st (dev [])
    let t := st (dev [(F.HBM_MRG_CTL_BUSY, 0, 1)])
    let v : Word := 5 + 3 * 2 ^ 16
    s.dev.validParts = [] ∧ bits v.toNat 16 8 ≠ 0 ∧ s.dev.isSet F.HBM_MRG_CTL_BUSY = false ∧ (after (.hbmMarginStart .owner v) s).get F.HBM_MRG_CTL_CHANNEL = 5 ∧
      (after (.hbmMarginStart (.part 2) v) s).reply = (.partitionDenied, []) ∧ (dev part0).validParts ≠ [] ∧ (after (.hbmMarginStart .mgmt v) (st (dev part0))).reply = (.writeRefused, []) ∧
      t.dev.isSet F.HBM_MRG_CTL_BUSY = true ∧ Dev.whole .mgmt = true ∧ (after (.hbmMarginStart .owner v) s).hbm.run = (5, 0) ∧
      (t.dev.writeHbmMrg .owner 9).get F.HBM_MRG_CTL_CHANNEL = 9 ∧ (t.dev.writeHbmMrg .owner 9).underMargin 0 = true := by decide +kernel

theorem test_hbm_ranges : let s := st (dev part0)
    let v : Word := 1 + 1 * 2 + 31 * 2 ^ 6
    let w : Word := 1 + 1 * 2 + 32 * 2 ^ 6
    let u : Word := 1 + 0 * 2 + 1 * 2 ^ 6
    let l := st (dev (part0 ++ [(F.ZQL_PCTL_STATE, 1, 1)]))
    s.dev.isSet F.HBM_PART_VALID 1 = false ∧ s.dev.rangeTaken 1 1 31 = false ∧ v.toNat.testBit 0 = true ∧ (after (.hbmPartWrite .mgmt 1 v) s).get F.HBM_PART_SIZE 1 = 31 ∧
      w.toNat.testBit 0 = true ∧ 32 < bits w.toNat 1 5 + bits w.toNat 6 6 ∧ (after (.hbmPartWrite .mgmt 1 w) s).reply = (.formatFault, []) ∧
      s.dev.rangeTaken 1 0 1 = true ∧ (after (.hbmPartWrite .mgmt 1 u) s).reply = (.formatFault, []) ∧
      s.dev.live 1 = false ∧ l.dev.live 1 = true ∧ (after (.hbmPartWrite .mgmt 1 v) l).reply = (.writeRefused, []) := by decide +kernel

theorem test_hbm_range_cleared : let s := st (dev (part0 ++ [(F.ZQL_PCTL_STATE, 0, 0)])) { cells := [(5, 9), (2 ^ 34, 3)] }
    let t := st (dev (part0 ++ [(F.HBM_PART_KEY_LIVE, 0, 1)]))
    (0 : Word).toNat.testBit 0 = false ∧ s.dev.isSet F.HBM_PART_VALID 0 = true ∧ s.dev.isSet F.HBM_PART_KEY_LIVE 0 = false ∧
      (memAfter (.hbmPartWrite .mgmt 0 0) s).cells = [(2 ^ 34, 3)] ∧ (after (.hbmPartWrite .mgmt 0 0) s).isSet F.HBM_PART_VALID 0 = false ∧
      t.dev.isSet F.HBM_PART_KEY_LIVE 0 = true ∧ (after (.hbmPartWrite .mgmt 0 0) t).reply = (.writeRefused, []) := by decide +kernel

theorem test_hbm_config : let s := st (dev [])
    let t := st (dev [(F.HBM_CFG_LOCK, 0, 1)])
    s.dev.isSet F.HBM_CFG_LOCK = false ∧ (after (.hbmCfgWrite .mgmt 1) s).get F.HBM_CFG_HASH = 1 ∧ t.dev.isSet F.HBM_CFG_LOCK = true ∧ (after (.hbmCfgWrite .owner 1) t).reply = (.writeRefused, []) := by
  decide +kernel

theorem test_hbm_keys : let s := st (dev (part0 ++ [(F.HBM_PART_KEY_LIVE, 0, 1), (F.CREEL_BIAS_HBM_BIAS, 3, 77)]))
    let t := st { (dev (part0 ++ [(F.HBM_PART_KEY_LIVE, 0, 1), (F.HBM_KEY_CTL_BUSY, 0, 1)])) with hbm := { dropping := [0] } }
    s.dev.isSet F.HBM_PART_KEY_LIVE 0 = true ∧ (5 : Fin 16).val.testBit 0 = true ∧
      t.dev.hbm.dropping = [0] ∧ (t.dev.modHbm fun h => { h with keys := ⟨[(0, 3)]⟩ }).hbm.keys.find 0 = some 3 ∧ rising ([(0, 1)] : List (Nat × Nat)) = true ∧ (after .hbmKeyDropDone t).isSet F.HBM_PART_KEY_LIVE 0 = false ∧ (after (.hbmCreelCommit .mgmt) s).hbm.bias.get 0 3 = 77 := by decide +kernel

/-! ### The twist -/

/-- A device in a state of alignment, with the twist logic given. -/
def tw (align : Nat) (t : Twist := {}) (l : List (Fld × Nat × Nat) := []) : State :=
  st { dev ([(F.TWIST_ALIGN_STATE, 0, align), (F.TWIST_CNT_CNT, 0, 50), (F.TWIST_CFG_HOLD, 0, 10)] ++ l) with tw := t }

theorem test_boundary : let s := tw 2 { boundary := 500, next := some (2000, 51) }
    s.dev.released 2 = true ∧ s.dev.align ≠ 0 ∧ (s.dev.nextTwist 1000500).tw.period = 2000 ∧ (s.dev.nextTwist 1000500).get F.TWIST_CNT_CNT = 51 ∧ (tw 2).dev.tw.next = none ∧
      s.dev.tw.slot < 63 ∧ (after .planSlotStart s).tw.slot = 1 ∧ (∀ e < 8, (s.dev.swOf e).quiet = false) ∧ (tw 0).dev.align = 0 ∧ (after .twistBoundary (tw 0)).get F.TWIST_CNT_CNT = 50 := by decide +kernel

/-- A beacon on lane 0. -/
def beaconOn (b : Beacon) : Arrival := control b.unit 9

theorem test_beacon_acquire : let s := tw 1 {} [hearing]
    let a := beaconOn { beacon with count := 70 }
    s.dev.delivers a = true ∧ a.control 0xB5 222 = true ∧ a.beacon = { beacon with count := 70 } ∧ s.dev.freeRoot = false ∧ s.dev.beaconOk a.beacon = true ∧ s.dev.isSource a.beacon = true ∧
      s.dev.get F.TWIST_CNT_CNT ≤ a.beacon.count ∧ (after (.beaconReceive a 0) s).get F.TWIST_CNT_CNT = 70 ∧ (after (.beaconReceive a 0) s).get F.TWIST_ALIGN_SOURCE = 9 ∧
      (tw 1).dev.delivers a = false ∧ (after (.beaconReceive a 0) (tw 1)).get F.TWIST_CNT_CNT = 50 ∧ s.dev.beaconOk { beacon with root := 256 } = false := by decide +kernel

theorem test_bad_beacon : let s := tw 1 {} [hearing]
    let a := { beaconOn beacon with blocks := [0, 0] }
    s.dev.delivers a = true ∧ a.control 0xB5 222 = false ∧ (after (.beaconReceive a 0) s).get F.TWIST_ALIGN_SOURCE = 0 := by decide +kernel

theorem test_beacon_locked : ∀ st ∈ [2, 3], let s := tw st { source := some beacon } [(F.TWIST_CAL_VALID, 0, 1), hearing]
    let a := beaconOn beacon
    let c := beaconOn { beacon with count := 51 }
    s.dev.align = st ∧ s.dev.delivers a = true ∧ a.control 0xB5 222 = true ∧ a.beacon = beacon ∧ s.dev.freeRoot = false ∧ s.dev.beaconOk beacon = true ∧ s.dev.isSource beacon = true ∧
      beacon.count = s.dev.get F.TWIST_CNT_CNT ∧ beacon.period = s.dev.tw.period ∧ s.dev.isSet F.TWIST_CAL_VALID = true ∧ s.dev.tw.source = some beacon ∧
      s.dev.beaconError beacon (-8000) = -8000 ∧ s.dev.beaconError beacon 8000 = 8000 ∧ (after (.beaconReceive a (-8000)) s).align = 2 ∧
      (after (.beaconReceive a 250) s).get F.TWIST_ALIGN_ERROR = 2 ∧ s.dev.isSource c.beacon = true ∧ (after (.beaconReceive c 0) s).get F.TWIST_ALIGN_REASON = 3 ∧
      (after (.beaconReceive a 8001) s).align = 4 := by decide +kernel

theorem test_holdover : let s := tw 3 { held := 10 }
    let t := { (tw 3) with dev := { (tw 3).dev with now := 100000000 } }
    s.dev.align = 3 ∧ s.dev.get F.TWIST_CFG_HOLD ≤ s.dev.tw.held ∧ (after .holdoverExpiry s).get F.TWIST_ALIGN_REASON = 1 ∧ 100000000 ≤ t.dev.now - t.dev.tw.heldAt ∧
      (after .holdoverExpiry t).align = 4 := by decide +kernel

/-- The source of a part is beacon's sender, which lane 0 reaches, with the exchanges of a calibration so far. -/
def calibrating (l : Option (List Int)) : State := tw 2 { source := some beacon, cal := l.map fun l => (0, l) } (hearing :: laneTo 9)

theorem test_calibration_request : let s := calibrating none
    let fits (d : Dev) (_ _ start guard : Nat) : Bool := decide (start - d.fab.slotBase + 2 ≤ d.slotBlocks guard (start - d.fab.slotBase))
    let a := control (CalUnit.unit 0xCA { sender := 9, target := 0 }) 9
    let d := after .calibrationStart s
    let c := after (.calibrationRequest a) s
    s.dev.tw.source = some beacon ∧ s.dev.tw.cal = none ∧ s.dev.isSet F.TWIST_CAL_VALID = false ∧ s.dev.openLane beacon.sender (fits s.dev) = some (0, 0) ∧ s.dev.fabId = 0 ∧
      d.out.map (fun m => (m.kind, bits (spoken m) 0 40)) = [(.calRequest, 0xCA + 9 * 2 ^ 24)] ∧ d.tw.cal = some (0, []) ∧ s.dev.delivers a = true ∧ a.control 0xCA 168 = true ∧ a.cal.target = 0 ∧
      c.out.map (fun m => (m.kind, bits (spoken m) 0 40)) = [(.calAnswer, 0xCB + 9 * 2 ^ 24)] := by decide +kernel

theorem test_calibration_answer : let t := calibrating (some (List.replicate 14 100))
    let u := calibrating (some (List.replicate 15 100))
    let a := control (CalUnit.unit 0xCB { sender := 9, target := 0, t2 := 100 }) 9
    let d := after (.calibrationAnswer a) u
    u.dev.delivers a = true ∧ a.control 0xCB 168 = true ∧ a.cal = { sender := 9, target := 0, t2 := 100 } ∧ (14 : Nat) + 1 < 16 ∧ (after (.calibrationAnswer a) t).out.map (·.kind) = [.calRequest] ∧
      (after (.calibrationAnswer a) t).tw.cal = some (0, List.replicate 15 100) ∧ d.isSet F.TWIST_CAL_VALID = true ∧ d.get F.TWIST_CAL_DELAY = 50000 := by decide +kernel

theorem test_calibration_dark : let s := tw 2 { source := some beacon } [hearing]
    (s.dev.openLane 9 fun _ _ _ _ => true) = none ∧ (after .calibrationStart s).out = [] := by decide +kernel

theorem test_twist_config : let v : Word := 2 + 20 * 2 ^ 19
    let w : Word := 20 * 2 ^ 19
    let s := tw 0
    let t := tw 0 {} [(F.TWIST_CFG_ROOT, 0, 1), (F.TWIST_CNT_INIT_INIT, 0, 60)]
    let u := tw 2 {} [(F.TWIST_CFG_ENABLE, 0, 1)]
    bits v.toNat 19 6 ≠ 0 ∧ v.toNat.testBit 1 = true ∧ v.toNat.testBit 2 = false ∧ s.dev.isSet F.TWIST_CFG_ENABLE = false ∧ s.dev.tw.stuck = false ∧ (after (.twistCfgWrite .mgmt v) s).align = 1 ∧
      t.dev.isSet F.TWIST_CFG_ENABLE = false ∧ (after (.twistCfgWrite .mgmt v) t).align = 2 ∧ (after (.twistCfgWrite .mgmt v) t).get F.TWIST_CNT_CNT = 60 ∧ w.toNat.testBit 1 = false ∧
      u.dev.isSet F.TWIST_CFG_ENABLE = true ∧ (∀ q < 4, u.dev.hasPlan q = false) ∧ (after (.twistCfgWrite .owner w) u).align = 0 := by decide +kernel

theorem test_twist_commit : let s := tw 2 {} [(F.TWIST_CFG_ROOT, 0, 1), (F.TWIST_PERIOD_AT_AT, 0, 66), (F.TWIST_PERIOD_PERIOD, 0, 1500)]
    s.dev.isSet F.TWIST_CFG_ROOT = true ∧ s.dev.get F.TWIST_CNT_CNT + 16 ≤ s.dev.get F.TWIST_PERIOD_AT_AT ∧ (after (.twistCommit .mgmt) s).tw.next = some (1500, 66) ∧
      (tw 2).dev.isSet F.TWIST_CFG_ROOT = false ∧ (after (.twistCommit .mgmt) (tw 2)).reply = (.writeRefused, []) := by decide +kernel

theorem test_slip_notice : let s := planned (rw 0 0 0 0 0 0 0) {}
    (List.range 4).filter (fun q => s.dev.hasPlan q && s.dev.sliceTag q = 1) = [0] ∧ (s.dev.word .TWIST_START 0).toNat ≤ 11 ∧ s.dev.tw.slips = [] ∧ s.dev.get F.TWIST_CNT_CNT ≤ 11 ∧
      (after (.slipNotice 1 11) s).tw.slips = [⟨0, 11, 12, false⟩] ∧ (∀ q < 4, s.dev.hasPlan q = true → s.dev.sliceTag q ≠ 2) := by decide +kernel

/-! ### Sync objects and barriers -/

/-- A device of partition 0 with operations on their way to the store, and its waiters. -/
def sy (arrivals : List SyncOp) (l : List (Fld × Nat × Nat) := []) (waiters : List Waiter := []) : State :=
  st { dev (part0 ++ l) with sync := { arrivals, waiters } }

theorem test_signal : let s := sy [.signal 65 5 0 7 15 3 .none] [(F.SYNC_OBJ_LO_VALUE, 65, 2 ^ 32 - 3)]
    let d := after (.syncSignalApply 1) s
    s.dev.released 2 = true ∧ 65 % 64 = 1 ∧ s.dev.objStatus (Dev.whoOf 0) 65 = .ok ∧ s.dev.sync.waiters = [] ∧ d.objValue 65 = 2 ^ 32 - 1 ∧ d.get F.SYNC_OBJ_HI_LAST_SRC 65 = 7 ∧
      d.sync.arrivals = [] := by decide +kernel

theorem test_wait : ∀ x ∈ [(4, true), (5, false)], let s := sy [.wait 65 x.1 false 0 none .none] [(F.SYNC_OBJ_LO_VALUE, 65, 4)]
    s.dev.objStatus (Dev.whoOf 0) 65 = .ok ∧ waitCond false (s.dev.objValue 65) x.1 = x.2 ∧ s.dev.get F.SYNC_OBJ_LO_WAITERS 65 < 65535 ∧
      (after (.syncWaitStart 1) s).sync.waiters.length = (if x.2 then 0 else 1) ∧ (after (.syncWaitStart 1) s).get F.SYNC_OBJ_LO_WAITERS 65 = (if x.2 then 0 else 1) := by decide +kernel

/-- A wait whose condition holds is answered at once: the port hears it, the core goes on; a signal answers the port that waits, and one to a host object notifies port 0 (R200, R201, R206). -/
theorem test_answers : let y : YOp := { seq := 0, kind := .wait, id := 65, x := 4, rd := 1, sent := true }
    let k : Core := { run := .wait, stall := .sync 65, pending := [1], seq := 1, yq := [y] }
    let l := [(F.SYNC_OBJ_LO_VALUE, 65, 4), (F.ZQL_PORT_STAT_STATE, 1, 2), (F.ZQL_PORT_STAT_STATE, 0, 2)]
    let s := sy [.wait 65 4 false 0 none (.port 1 9)] l
    let t := let u := sy [.wait 65 4 false 0 none (.core 0 1 0)] l; { u with dev := u.dev.setCore 0 k }
    let u := sy [.signal 65 5 0 7 15 3 .none] l [{ id := 65, barrier := false, eq := false, x := 9, left := none, reply := .port 1 9 }]
    let h := sy [.signal 57345 5 0 7 15 3 .none] l
    (s.dev.objStatus (Dev.whoOf 0) 65 = .ok ∧ waitCond false (s.dev.objValue 65) 4 = true ∧ s.dev.tells (after (.syncWaitStart 1) s) 1 { type := 4, tag := 9, status := 0, val := 4 }) ∧
      (((after (.syncWaitStart 1) t).core 0).yq = [] ∧ ((after (.syncWaitStart 1) t).core 0).run = .run ∧ ((after (.syncWaitStart 1) t).core 0).pc = 1) ∧
      (waitCond false (min (4 + 5) (2 ^ 32 - 1)) 9 = true ∧ (after (.syncSignalApply 1) u).sync.waiters = [] ∧ u.dev.tells (after (.syncSignalApply 1) u) 1 { type := 4, tag := 9, status := 0, val := 9 }) ∧
      (h.dev.objStatus (Dev.whoOf 0) 57345 = .ok ∧ h.dev.canSend 0 = false ∧ ((after (.syncSignalApply 1) h).zport 0).held.map (·.id) = [57345]) := by decide +kernel

theorem test_sync_zero : let s := sy [] [(F.SYNC_OBJ_LO_VALUE, 3, 9), (F.SYNC_OBJ_LO_VALUE, 5, 9)]
    let t := { s with dev := { s.dev with sync := { zeroRun := some (3, 2) } } }
    s.dev.isSet F.SYNC_ZERO_BUSY = false ∧ (∀ i < 2, s.dev.partOfSync (3 + i) = Dev.partOfReq (.part 0)) ∧ (after (.syncZeroStart (.part 0) 3 2) s).sync.zeroRun = some (3, 2) ∧
      t.dev.sync.zeroRun = some (3, 2) ∧ (∀ i < 2, t.dev.objectInUse (3 + i) = false) ∧ (after .syncZeroEnd t).objValue 3 = 0 ∧ (after .syncZeroEnd t).objValue 5 = 9 ∧
      (after (.syncZeroStart (.part 1) 3 2) s).reply.1 = .partitionDenied ∧ (after (.syncZeroStart (.part 1) 3 2) s).get F.SYNC_ZERO_FIRST = 0 ∧ (after (.syncZeroStart (.part 0) 3 0) s).reply.1 = .formatFault := by decide +kernel

theorem test_sync_commands : let s := sy []
    let t := sy [] [(F.DBG_UNLOCK_HELD, 0, 1), (F.LBI_DIE_STAT_WRAP_CLOSED, 0, 1)]
    (∀ i < 2, (1 : Fin 4).val.testBit i = true → t.dev.isSet F.LBI_DIE_STAT_WRAP_CLOSED i = true) ∧ (after (.syncDieClear .owner 1) s).reply = (.partitionDenied, []) ∧
      t.dev.isSet F.DBG_UNLOCK_HELD 0 = true ∧ (after (.syncDbgWrite (.part 0) 0 2) t).get F.SYNC_DBG_MODE 0 = 2 ∧ (after (.syncDbgWrite (.part 0) 0 1) s).get F.SYNC_DBG_MODE 0 = 1 := by decide +kernel

theorem test_repair_write : let s := sy [] [(F.SYNC_DBG_MODE, 0, 2), (F.DBG_UNLOCK_HELD, 0, 1)]
    (if s.dev.mayReachObj (.part 0) 65 2 then (after (.repairWrite (.part 0) 65 9) s).objValue 65 = 9 ∧ (after (.repairWrite (.part 0) 65 9) s).get F.SYNC_OBJ_HI_LAST_SRC 65 = 0xFFF else False) ∧
      s.dev.objState 65 = 0 ∧ s.dev.evq.length < 256 ∧ s.dev.mayReachObj (.part 1) 65 2 = false ∧ (after (.repairWrite (.part 1) 65 9) s).reply = (.partitionDenied, []) := by decide +kernel

/-- Barrier 3 of partition 0, at home on this part, with three parts and two local arrivals. -/
def barred (l : List (Fld × Nat × Nat) := []) (x : Barrier := {}) (arrivals : List SyncOp := []) : State :=
  let s := sy arrivals ([(F.SYNC_BAR_ENABLE, 3, 1), (F.SYNC_BAR_LOCAL_N, 3, 2), (F.SYNC_BAR_PARTS_N, 3, 3), (F.TWIST_CNT_CNT, 0, 50)] ++ l)
  { s with dev := { s.dev with sync := { s.dev.sync with bars := ⟨[(3, x)]⟩ } } }

theorem test_local_arrival : let s := barred [] {} [.arrive 61443 0 .none]
    s.dev.sync.arrivals = [.arrive 61443 0 .none] ∧ s.dev.objStatus (Dev.whoOf 0) 61443 = .ok ∧ s.dev.isSet F.SYNC_BAR_ENABLE 3 = true ∧
      s.dev.get F.SYNC_BAR_STAT_LOCAL_COUNT 3 + 1 < s.dev.get F.SYNC_BAR_LOCAL_N 3 ∧ (after (.barrierLocalArrival 3) s).get F.SYNC_BAR_STAT_LOCAL_COUNT 3 = 1 := by decide +kernel

theorem test_barrier_messages : let s := barred [] { first := some 50 }
    let t := barred [(F.SYNC_BAR_ENABLE, 3, 0)]
    s.dev.isHome 3 = true ∧ s.dev.barRefused 61443 = false ∧ s.dev.generation 3 = 0 ∧ (s.dev.bar 3).first ≠ none ∧ s.dev.get F.SYNC_BAR_STAT_PARTS_COUNT 3 + 1 < s.dev.get F.SYNC_BAR_PARTS_N 3 ∧
      (after (.barrierArrival 8 61443 0 false) s).get F.SYNC_BAR_STAT_PARTS_COUNT 3 = 1 ∧ (after (.graceNotice 8 61443 0) s).isSet F.SYNC_BAR_STAT_GRACE_ON 3 = true ∧
      t.dev.barRefused 61443 = true ∧ (after (.barrierArrival 8 61443 0 false) t).get F.SYNC_BAR_STAT_PARTS_COUNT 3 = 0 := by decide +kernel

theorem test_barrier_ends : let s := barred [] { deadline := some 50, localDue := some 50 }
    s.dev.sync.waiters = [] ∧ s.dev.barRefused 61443 = false ∧ s.dev.generation 3 = 0 ∧ (s.dev.bar 3).deadline = some 50 ∧ s.dev.isHome 3 = true ∧ (s.dev.bar 3).localDue = some 50 ∧
      50 ≤ s.dev.get F.TWIST_CNT_CNT ∧ (after (.barrierRelease 8 61443 0 0 51) s).objValue 61443 = 1 ∧ (after (.barrierDeadline 3) s).get F.SYNC_BAR_STAT_LAST_STATUS 3 = 8 ∧
      (after (.barrierLocalTimeout 3) s).objValue 61443 = 1 := by decide +kernel

/-- The arrival that completes the local count is sent to the home, or releases there with the last part; each end answers the port that waits (R208, R210, R211). -/
theorem test_barrier_releases : let arr : List SyncOp := [.arrive 61443 0 (.port 1 9)]
    let up := (F.ZQL_PORT_STAT_STATE, 1, 2)
    let s := barred [up, (F.SYNC_BAR_STAT_LOCAL_COUNT, 3, 1), (F.SYNC_BAR_HOME, 3, 77)] {} arr
    let t := barred [up, (F.SYNC_BAR_STAT_LOCAL_COUNT, 3, 1), (F.SYNC_BAR_STAT_PARTS_COUNT, 3, 2)] { first := some 50 } arr
    let x : Waiter := ⟨61443, true, false, 0, none, .port 1 9⟩
    let u := let u := barred [up] { deadline := some 50, localDue := some 50 }; { u with dev := { u.dev with sync := { u.dev.sync with waiters := [x] } } }
    let off := barred [up, (F.SYNC_BAR_ENABLE, 3, 0)] {} arr
    (s.dev.isHome 3 = false ∧ s.dev.partOfSync 61443 = some 0 ∧ s.dev.get F.SYNC_BAR_STAT_LOCAL_COUNT 3 + 1 = s.dev.get F.SYNC_BAR_LOCAL_N 3 ∧ (after (.barrierLocalArrival 3) s).sync.waiters = [x] ∧
      (after (.barrierLocalArrival 3) s).objValue 61443 = 0) ∧
      (t.dev.isHome 3 = true ∧ t.dev.get F.SYNC_BAR_STAT_PARTS_COUNT 3 + 1 = t.dev.get F.SYNC_BAR_PARTS_N 3 ∧ (after (.barrierLocalArrival 3) t).objValue 61443 = 1 ∧ (after (.barrierLocalArrival 3) t).sync.waiters = [] ∧
        t.dev.tells (after (.barrierLocalArrival 3) t) 1 { type := 4, tag := 9, status := 0, val := 1 }) ∧
      (∀ c ∈ [Instr.barrierRelease 8 61443 0 8 51, .barrierDeadline 3, .barrierLocalTimeout 3, .barrierAbort (.part 0) 3], (after c u).sync.waiters = [] ∧ u.dev.tells (after c u) 1 { type := 4, tag := 9, status := 8, val := 1 }) ∧
      (off.dev.objStatus (Dev.whoOf 0) 61443 = .ok ∧ off.dev.tells (after (.barrierLocalArrival 3) off) 1 { type := 4, tag := 9, status := 13, val := 0 }) := by decide +kernel

/-- With nothing at the bank the row is a Ply engine's arrival, which needs a plan (R208). -/
theorem test_engine_arrival : let s := barred
    let fab := (planned 0 {}).dev.fab
    let t : State := { s with dev := { s.dev with fab } }
    s.dev.sync.arrivals = [] ∧ s.dev.partOfSync 61443 = some 0 ∧ s.dev.hasPlan 0 = false ∧ after (.barrierLocalArrival 3) s = s.dev ∧ t.dev.hasPlan 0 = true ∧ t.dev.objState 61443 = 0 ∧
      (after (.barrierLocalArrival 3) t).get F.SYNC_BAR_STAT_LOCAL_COUNT 3 = 1 := by decide +kernel

theorem test_barrier_control : let s := barred
    let v : Word := 2 * 2 ^ 51
    s.dev.mayWriteBar (.part 0) 3 = true ∧ (after (.barrierAbort (.part 0) 3) s).objValue 61443 = 1 ∧ s.dev.mayWriteBar (.part 1) 3 = false ∧
      (after (.barrierAbort (.part 1) 3) s).reply = (.partitionDenied, []) ∧ s.dev.get F.SYNC_BAR_STAT_LOCAL_COUNT 3 = 0 ∧ s.dev.get F.SYNC_BAR_STAT_PARTS_COUNT 3 = 0 ∧
      bits v.toNat 45 6 ≤ bits v.toNat 51 6 ∧ (after (.syncBarWrite (.part 0) 3 v) s).word .SYNC_BAR 3 = v := by decide +kernel

/-! ### The fabric -/

/-- A slice key with tag 5. -/
def key5 : SliceKey := { tag := 5, key := List.replicate 32 1, live := true }

/-- A device with a key of partition 0 with tag 5 and the words of flow contexts. -/
def fabric (ctxs : List (Nat × Nat)) (l : List (Fld × Nat × Nat) := []) : Dev :=
  let d := ctxs.foldl (fun (d : Dev) x => d.setWord .FAB_FCTX x.1 (BitVec.ofNat 64 x.2)) (dev (part0 ++ hearing :: l))
  { d with fab := { keys := ⟨[(0, key5)]⟩ } }

/-- Receive context 0 from part 1: slice 5, its landing range of 512 bytes in the bobbin of core 0. -/
def rxCtx : List (Nat × Nat) := [(0, 1 + 2 + 1 * 2 ^ 8 + 5 * 2 ^ 48), (2, 0x14000000000), (3, 512)]

/-- Send context 1 to part 1. -/
def txCtx : List (Nat × Nat) := [(8, 1 + 1 * 2 ^ 8 + 5 * 2 ^ 48)]

/-- The blocks of a packet at OFF 1 with 256 bytes of 7 under the key of `key5`, as they stand on a lane: input for the tests, as the model sends it. -/
def packetBits : List (BitVec 136) :=
  [0x2C4EE054000696808168052D010000005A, 0x190059320956807AD01916817770305A00, 0xF34CE455CEF0ABB31F71B3B5E736D89510, 0x781AD38A8EE92BEBFEB06A6BE8817C282,
   0x7030971013331754F3F585CDD3E5093DC6, 0x323ABC033424BD34DC4E4A028465A92EF1, 0xB6E0C9756B067DFD37B88988C45BA933B3, 0xCAAB24B252E2830A2C255FD99CF816E12D,
   0x569C80DDE070D86343EBDF1CDEE6A6ECFC, 0x9B7AC8809AAC372AB0CEBD1721FCC21257, 0x7887E1A11DCA4D1A103AE0BBDE3AA536B1, 0x806E98889C4AF43BF770F5E13E7209E609,
   0xA7DFBE5AEAB566B44998FD63840D625193, 0xF5340E152D59131A4A896DE31CF9FBA9E0, 0xE743D739284212E123AAA5B058ECA3CD40, 0xA80D8281F42F007EE83789854CA6C38501,
   0x48E10F21985CC0FE5011DC018DE8003BBC, 0xA35D86F6058BA7B9CA93F4A0C56DAA4C0B, 0x58E82E9E2E3E6E46540CFD1D114ECCFACD, 0x57812D8D2B8934A086DF73910C3F09A656]

/-- The packet on lane 0, from part 1. -/
def heard : Arrival := ⟨0, 0, 0, 1, 0, packetBits⟩

/-- The packet. -/
def sent : Packet := heard.packet false

theorem test_packet_bits : sent = { packet with off := 1, payload := sent.payload, wire := sent.wire } ∧ heard.packetOk = true ∧ sent.authentic key5.key = true ∧
    (sent.opened key5.key).payload = List.replicate 256 7 ∧ heard.uncorrectable = 0 := by decide +kernel

theorem test_scrambler : scrambleBits 128 0 1 / 2 ^ 58 = 2 ^ 0 + 2 ^ 39 + 2 ^ 58 + 2 ^ 78 + 2 ^ 116 + 2 ^ 117 ∧ checkCodes.take 4 = [3, 5, 6, 7] ∧ checkCodes.length = 128 ∧ checkBits 3 = 6 ∧
    checkBlock (Nat.xor (encodeBlock 0 77).1 (2 ^ 90)) = ((encodeBlock 0 77).1 % 2 ^ 128, 1) ∧ (checkBlock (0xFF * 2 ^ 128)).2 = 2 := by decide +kernel

/-- What a packet leaves behind. -/
def leaves (s : State) (f : State → Bool) (a : Arrival := heard) : Bool :=
  match exec (.packetReceive a false) s with
  | .next t => f t
  | _ => false

/-- The NAKs that wait for a lane: receiver, sender, flow, CUM, status. -/
def naks (d : Dev) : List (List Nat) := (d.fab.ctrl.map fun c => AckUnit.ofUnit c.unit).filterMap fun u => if u.nak then some [u.dst, u.src, u.sflow, u.cum, u.status] else none

theorem test_packet_lands : let s := st (fabric rxCtx)
    let d := s.dev
    d.released 4 = true ∧ d.delivers heard = true ∧ d.fabId ≠ 0xFFFF ∧ sent.dst = d.fabId ∧ d.sliceHolder sent.slice = some (0, key5) ∧ d.ctxIs 0 1 = true ∧ d.ctx 0 .peer = sent.src ∧
      d.ctx 0 .peerFlow = sent.sflow ∧ d.ctx 0 .ch = sent.ch ∧ d.ctx 0 .slice = sent.slice ∧ 0 ∉ d.dead ∧ d.inWindow 0 sent.seq = some true ∧ d.skewed 0 sent.seq = false ∧ sent.tag = false ∧
      d.plyReceive 0 = none ∧ d.landEnd 0 sent ≤ d.ctx 0 .limit ∧ (d.reach (some 0) (d.ctx 0 .land + 256 * sent.off) 256).1 = .ok ∧ sent.payload.length = 256 := by decide +kernel

theorem test_packet_landed :
    leaves (st (fabric rxCtx)) (fun t => t.mem.byte 0x1400000010F = 7 && (t.dev.rxOf 0).owed && t.mem.byte 0x140000000FF = 0) = true := by decide +kernel

theorem test_packet_beyond_limit : let s := st (fabric (rxCtx ++ [(3, 511)]))
    s.dev.ctx 0 .limit < s.dev.landEnd 0 sent ∧ leaves s (fun t => naks t.dev = [[1, 0, 0, 0, 13]] && t.mem.byte 0x1400000010F = 0) = true := by decide +kernel

theorem test_packet_unheard : let s := st ((fabric rxCtx).put F.LANE_RING_STATE 1152 5)
    s.dev.delivers heard = false ∧ leaves s (fun t => t = s) = true := by decide +kernel

theorem test_packet_refused : let s := st (fabric rxCtx)
    let keyed (k : SliceKey) : State := { s with dev := { s.dev with fab := { s.dev.fab with keys := ⟨[(0, k)]⟩ } } }
    let bad := { heard with blocks := 0 :: packetBits.tail }
    let other := st (fabric (rxCtx ++ [(0, 1 + 2 + 1 * 2 ^ 8 + 3 * 2 ^ 24 + 5 * 2 ^ 48)]))
    bad.packetOk = false ∧ leaves s (fun t => t.dev.word .FAB_DROP 0 = 1) bad = true ∧
      leaves (keyed { key5 with key := List.replicate 32 2 }) (fun t => t.dev.word .FAB_AUTH 0 = 1) = true ∧ (keyed { key5 with tag := 9 }).dev.sliceHolder 5 = none ∧
      leaves (keyed { key5 with tag := 9 }) (fun t => naks t.dev = [[1, 0, 0, 0, 4]]) = true ∧ leaves (keyed { key5 with dropped := true, live := false }) (fun t => naks t.dev = [[1, 0, 0, 0, 11]]) = true ∧
      other.dev.ctx 0 .peerFlow ≠ sent.sflow ∧ leaves other (fun t => naks t.dev = [[1, 0, 0, 0, 4]]) = true := by decide +kernel

/-- A packet as it arrives, sealed under the key of `key5`. -/
def carried (x : Packet) : Arrival :=
  let l := x.sealed key5.key
  arrives ((List.range (Dev.packetBlocks (x.lenm1 + 1))).map fun i => leNat ((l.drop (16 * i)).take 16))

/-- A packet that landed before is acknowledged again, and lands no more (R233). -/
theorem test_duplicate : let s := st ((fabric rxCtx).setRx 0 { landed := [0] })
    s.dev.inWindow 0 sent.seq = some false ∧ leaves s (fun t => (t.dev.fab.ctrl.map fun c => (AckUnit.ofUnit c.unit).nak) = [false] && t.mem.byte 0x1400000010F = 0) = true := by decide +kernel

/-- A barrier's release on channel 2 (R245). -/
theorem test_channel_2 : let x := { packet with ch := 2, payload := takePad 256 0 (leBytes 1 0x22 ++ leBytes 2 61443) }
    let s := st (fabric (rxCtx ++ [(0, 1 + 2 + 2 * 2 ^ 5 + 1 * 2 ^ 8 + 5 * 2 ^ 48)]) [(F.SYNC_BAR_ENABLE, 3, 1), (F.SYNC_BAR_PARTS_N, 3, 3)])
    s.dev.ctx 0 .ch = 2 ∧ s.dev.partOfSync 61443 = some 0 ∧ s.dev.barRefused 61443 = false ∧ leaves s (fun t => t.dev.objValue 61443 = 1) (carried x) = true := by decide +kernel

/-- A packet of a local slice for another part: without a route a NAK, with a direct one it waits as remainder (R229). -/
theorem test_relay : ∀ x ∈ [false, true], let s := st (fabric [] [(F.FAB_ID_ID, 0, 7), (F.FAB_RT_KIND, 0, flag x), (F.FAB_RT_DIRECT_EN, 0, flag x)])
    s.dev.delivers heard = true ∧ s.dev.fabId = 7 ∧ s.dev.sliceHolder 5 = some (0, key5) ∧ s.dev.routeOf 0 0 = (if x then some 0 else none) ∧ s.dev.isSet F.FAB_RT_DIRECT_EN 0 = x := by decide +kernel

/-- A packet to combine is held for its table (R293). -/
theorem test_held_for_combining : let d := (fabric [] [(F.FAB_ID_ID, 0, 7), (F.FAB_RT_KIND, 0, 1), (F.FAB_RT_DIRECT_EN, 0, 1)])
    let s := st (d.setBank 0 { active := some { slice := 5, guard := 0, ackRes := 0, rows := 0, cols := 0, myrow := 0, mycol := 0, rowNext := 0, colNext := 0, ply := [[4 + 3 * 2 ^ 8, 9 * 2 ^ 10]] } })
    leaves s (fun t => t.dev.fab.holds.map (·.engine) = [3]) (carried { packet with ply := true }) = true := by decide +kernel

/-- A ring packet goes on to the next part, 3, but not to its origin, 1 (R246). -/
theorem test_ring : ∀ next ∈ [1, 3], let d := (fabric (rxCtx ++ [(1, 2 ^ 54)])).setBank 0 { active := some { slice := 5, guard := 0, ackRes := 0, rows := 1, cols := 4, myrow := 0, mycol := 0, rowNext := next, colNext := 0 } }
    let z := { packet with dst := 0xFFFF, mcid := 1 }
    d.ctx 0 .ring = 1 ∧ d.ringNext 0 1 = next ∧ next ≠ d.fabId ∧ (next = 1 → d.ringForward 0 0 z = d) := by decide +kernel

theorem test_packet_transit : ∀ known ∈ [false, true], let s := st ((fabric [] [(F.FAB_ID_ID, 0, 7), (F.FAB_TRN_VALID, 7, flag known), (F.FAB_TRN_SLICE, 7, 5), (F.FAB_TRN_DST, 7, 0)]))
    let s := { s with dev := { s.dev with fab := {} } }
    sent.dst ≠ s.dev.fabId ∧ s.dev.sliceHolder sent.slice = none ∧ ((List.range 64).any fun j => s.dev.isSet F.FAB_TRN_VALID j && s.dev.get F.FAB_TRN_SLICE j = sent.slice && s.dev.get F.FAB_TRN_DST j = sent.dst) = known ∧
      leaves s (fun t => (t.dev.fab.rem.map fun r => (r.dst, r.packet)) = if known then [(0, some sent)] else []) = true := by decide +kernel

/-- An acknowledgement from part 1 of this part's flow 1, on lane 0. -/
def ackOn (cum map status : Nat) (nak : Bool := false) : Arrival := control ({ dst := 0, src := 1, sflow := 1, cum, map, status, nak, gap := false } : AckUnit).unit

theorem test_acknowledgement : let f (seq : Nat) : Flight := { flow := 1, peer := 1, packet := { packet with sflow := 1, seq := seq }, twist := 0, path := none }
    let d := fabric txCtx
    let s := st { d with fab := { d.fab with flights := [f 0, f 1, f 2, f 3] } }
    let a := ackOn 2 1 0
    let n := ackOn 0 0 13 true
    let bad := { a with blocks := [0, 0] }
    d.delivers a = true ∧ a.control 0xAC 142 = true ∧ a.ack.dst = s.dev.fabId ∧ s.dev.hearsPeer 1 1 = true ∧ (after (.acknowledgement a) s).fab.flights = [f 2] ∧ (after (.acknowledgement a) s).ctx 1 .baseSeq = 2 ∧
      n.control 0xAC 142 = true ∧ s.dev.ctx 1 .status = 0 ∧ (after (.acknowledgement n) s).ctx 1 .status = 13 ∧ (after (.acknowledgement n) s).fab.flights = [] ∧
      bad.control 0xAC 142 = false ∧ after (.acknowledgement bad) s = s.dev := by decide +kernel

theorem test_fabric_timers : let d := fabric (rxCtx ++ txCtx)
    let s := st (d.setRx 0 { owed := true, landed := [4], since := 3, gapAt := some 7 })
    let acks (d : Dev) : List AckUnit := d.fab.ctrl.map fun c => AckUnit.ofUnit c.unit
    s.dev.ctxIs 0 1 = true ∧ (s.dev.rxOf 0).owed = true ∧ (s.dev.rxOf 0).gapAt = some 7 ∧ acks (after (.ackTimer 0) s) = [⟨1, 0, 0, 0, 8, 0, false, false⟩] ∧ (after (.ackTimer 0) s).now = 1000 ∧
      acks (after (.gapTimer 0) s) = [⟨1, 0, 0, 0, 8, 0, true, true⟩] ∧ (after (.gapTimer 0) s).now = 2007 := by decide +kernel

/-- A plan of partition 0 with the send context 1. -/
def plan0 : Plan := { slice := 5, guard := 2, ackRes := 0, rows := 0, cols := 0, myrow := 0, mycol := 0, rowNext := 0, colNext := 0, ctxs := [(1, [1 + 1 * 2 ^ 8 + 5 * 2 ^ 48])] }

theorem test_primes : let d := fabric rxCtx
    let s := st ((d.setBank 0 { staged := some plan0, unprimed := [1] }).setBank 0 { active := some plan0, staged := some plan0, unprimed := [1] })
    let ask := control (PrimeUnit.unit ⟨1, 0, 0, 0, 5, false⟩)
    let answer := control (PrimeUnit.unit ⟨1, 0, 1, 0, 5, true⟩)
    d.delivers ask = true ∧ ask.control 0xD1 81 = true ∧ ask.prime.dst = d.fabId ∧ s.dev.primeHolder ask.prime = some 0 ∧
      (after (.prime ask) s).fab.ctrl.map (fun c => (c.dst, bits c.unit 0 81)) = [(1, bits (PrimeUnit.unit ⟨0, 1, 0, 0, 5, true⟩) 0 81)] ∧ (s.dev.bank 0).staged = some plan0 ∧
      (∀ q < 4, q ≠ 0 → (s.dev.bank q).staged = none) ∧ answer.control 0xD1 81 = true ∧ (plan0.ctxs.any (primePair answer.prime 0 answer.prime.sflow answer.prime.rflow)) = true ∧
      ((after (.prime answer) s).bank 0).unprimed = [] ∧ (fabric []).primeHolder ask.prime = none := by decide +kernel

/-- A skein of flow 1. -/
def skein : Skein := { skeinOf [1 * 2 ^ 8, 0x14000000100, 256, 0, 0, 0, 0, 0] 0 0 0x14000000000 (.core 0) with due := 3 }

theorem test_flow_deadline : let d := fabric txCtx [(F.TWIST_CNT_CNT, 0, 10), (F.TWIST_START_START, 0, 6)]
    let d := d.setBank 0 { active := some plan0 }
    let s := st { d with fab := { d.fab with skeins := [skein] } }
    s.dev.ctxIs 1 0 = true ∧ s.dev.hasPlan (s.dev.ctx 1 .part) = true ∧ s.dev.ctx 1 .status = 0 ∧
      (s.dev.fab.skeins.any fun x => x.flow = 1 && x.failed.isNone && decide ((x.due : Int) < s.dev.planTwist (s.dev.ctx 1 .part))) = true ∧
      (after (.flowDeadline 1) s).ctx 1 .status = 8 := by decide +kernel

/-- A skein record of flow 1 at the base of the bobbin of core 0: 256 bytes from 0x14000000100. -/
def skeinMem : Mem := { cells := [(0x14000000001, 1), (0x14000000009, 1), (0x1400000000C, 0x40), (0x1400000000D, 1), (0x14000000011, 1)] }

theorem test_skein_accept : let d := (fabric txCtx [(F.FAB_RT_KIND, 1, 1)]).setCore 0 { tq := [⟨0, 0x14000000000, 1, 0⟩], pending := [1] }
    let s := st d skeinMem
    let words := (List.range 8).map fun i => leNat (((s.mem.read 0x14000000000 64).drop (8 * i)).take 8)
    let y := skeinOf words 0 0 0x14000000000 (.core 0)
    (d.core 0).tq = ⟨0, 0x14000000000, 1, 0⟩ :: [] ∧ (d.core 0).yq = [] ∧ d.partOfCore 0 = some 0 ∧ inBobbin 0 0x14000000000 64 = true ∧ (d.reach (some 0) 0x14000000000 64).1 = .ok ∧
      Clean s.mem 0x14000000000 64 ∧ d.skeinStatus 0 words y = .ok ∧ (after (.skeinAccept (.core 0) 0) s).fab.skeins = [y] ∧ ((after (.skeinAccept (.core 0) 0) s).core 0).pending = [] := by decide +kernel

/-- A Ply engine's skein is accepted from its record in HBM, a host's from the record of its queue's entry (R237). -/
theorem test_other_skeins : let m : Mem := { cells := ([256, 0x14000000100, 256, 0, 0, 0, 0, 0].flatMap (leBytes 8)).zipIdx.map fun x => (x.2, x.1) }
    let d := (fabric txCtx [(F.FAB_RT_KIND, 1, 1)]).setZport 0 { entries := [{ id := 2, q := 0, op := 1, addr := 0, idx := 0, user := 0 }] }
    let words := (List.range 8).map fun i => leNat (((m.read 0 64).drop (8 * i)).take 8)
    d.partOfHbm 0 = some 0 ∧ d.serves none (some 0) 0 64 ∧ Clean m 0 64 ∧ isView 0 = false ∧ d.skeinStatus 0 words (skeinOf words 0 0 0 (.ply 3)) = .ok ∧ d.skeinStatus 0 words (skeinOf words 0 0 0 (.host 0)) = .ok ∧
      d.partOfPort 0 = some 0 ∧ (d.zport 0).entries.find? (fun e => e.op = 1 && !e.handed && e.done.isNone) = (d.zport 0).entries.head? ∧
      (after (.skeinAccept (.ply 3) 0) (st d m)).fab.skeins = [skeinOf words 0 0 0 (.ply 3)] ∧ (after (.skeinAccept (.host 0) 0) (st d m)).fab.skeins = [skeinOf words 0 0 0 (.host 0)] ∧
      (after (.skeinAccept (.ply 3) 8) (st d m)).fab.finished = [(.ply 3, 8, .formatFault, 0)] := by decide +kernel

theorem test_skein_misaligned : let k : Core := { tq := [⟨1, 0x14000000008, 1, 4⟩], pending := [1] }
    let s := st ((fabric txCtx).setCore 0 k)
    let t := st ((fabric txCtx).setCore 0 { k with xq := [{ seq := 0, addr := 0, words := [] }] })
    (after (.skeinAccept (.core 0) 0) t).core 0 = t.dev.core 0 ∧ 0x14000000008 % 64 ≠ 0 ∧ ((after (.skeinAccept (.core 0) 0) s).core 0).tq = [] ∧ (after (.skeinAccept (.core 0) 0) s).fab.skeins = [] := by decide +kernel

/-- A TSKEIN waits for an earlier instruction of a unit that its mask names (R121), and one of a core in no partition is denied (R448). -/
theorem test_skein_waits : let h : Hand := ⟨1, 0x14000000008, 1, 4⟩
    let s := st ((fabric txCtx).setCore 0 { tq := [h], pending := [1], xq := [{ seq := 0, addr := 0, words := [] }] })
    let t := st ((dev []).setCore 0 { tq := [{ h with mask := 0 }], pending := [1] })
    (s.dev.core 0).unitsDone h.mask h.seq = false ∧ t.dev.partOfCore 0 = none ∧ (t.dev.core 0).unitsDone 0 1 = true ∧
      ((after (.skeinAccept (.core 0) 0) t).core 0).tq = [] ∧ after (.skeinAccept (.core 0) 0) s = s.dev := by decide +kernel

theorem test_skein_completes : ∀ x ∈ [(skein, true, false), ({ skein with cut := 256 }, false, true), ({ skein with failed := some .pathLost }, false, true)],
    let d := fabric txCtx
    let s := st { d with fab := { d.fab with skeins := [x.1] } }
    s.dev.fab.skeins.find? (·.flow = 1) = some x.1 ∧ (x.1.failed = none → Dev.skeinCut x.1 = !x.2.1) ∧ (s.dev.fab.flights.any (·.skein = some x.1.id)) = false ∧
      (after (.skeinComplete 1) s).fab.skeins.isEmpty = x.2.2 := by decide +kernel

theorem test_lane_grant : let q : RemReq := { id := 3, who := 4, flow := none, dst := 1, ch := 0, direct := true, packet := some { packet with src := 9, dst := 1 }, lane := some 0, stamp := 0 }
    let d := (fabric [] (laneTo 1)).setWord .FAB_FSLOT 0 (BitVec.ofNat 64 (2 ^ 64 - 12))
    let d := { d with fab := { d.fab with rem := [q] } }
    let s := st d
    let d1 := { d with fab := { d.fab with block := max d.fab.block 5 } }
    let pick := Dev.creelPick 5 d1.laneBias (fun (r : LaneReq) => (r.cls, r.stamp, r.id)) (d1.eligible 0 0 0 5)
    d.fab.slotBase = 0 ∧ d.fab.laneFree.get 0 (Dev.laneNo (0, 0, 0)) ≤ 5 ∧ pick.map (·.what) = some (.rem q) ∧ q.packet = some { packet with src := 9, dst := 1 } ∧ 9 ≠ d.fabId ∧
      (after (.laneCreelGrant 0 0 0 5) s).out.map (·.kind) = [.packet] ∧ (after (.laneCreelGrant 0 0 0 5) s).fab.rem = [] ∧ (after (.laneCreelGrant 0 0 0 5) s).fab.laneFree.get 0 0 = 25 := by decide +kernel

/-- An acknowledgement that waits for the pod key leaves on a lane of no partition, as class 2. -/
theorem test_control_grant : let c : CtrlReq := { id := 3, kind := .ack, who := none, dst := 1, unit := (⟨1, 0, 0, 5, 0, 0, false, false⟩ : AckUnit).unit, stamp := 0 }
    let d := fabric [] (laneTo 1)
    let d := { d with fab := { d.fab with ctrl := [c] } }
    let pick := Dev.creelPick 5 d.laneBias (fun (r : LaneReq) => (r.cls, r.stamp, r.id)) (({ d with fab := { d.fab with block := 5 } }).eligible 0 0 0 5)
    let t := after (.laneCreelGrant 0 0 0 5) (st d)
    d.laneFrom 0 ≤ 5 ∧ pick.map (fun r => (r.cls, r.what)) = some (2, .ctrl c) ∧ t.fab.ctrl = [] ∧ t.out.map (·.kind) = [.ack] ∧ t.fab.laneFree.get 0 0 = 7 := by decide +kernel

theorem test_lane_idle : let s := st (fabric [] (laneTo 1))
    let d := { s.dev with fab := { s.dev.fab with laneFree := ⟨[(0, 9)]⟩ } }
    Dev.creelPick 5 s.dev.laneBias (fun (r : LaneReq) => (r.cls, r.stamp, r.id)) (s.dev.eligible 0 0 0 5) = none ∧ d.fab.slotBase + 5 < d.fab.laneFree.get 0 (Dev.laneNo (0, 0, 0)) := by decide +kernel

theorem test_lane_head : let d := (fabric txCtx (laneTo 1)).setWord .FAB_FSLOT 0 (BitVec.ofNat 64 (2 ^ 64 - 16))
    let d := d.setBank 0 { active := some { plan0 with perms := ⟨[(0, 0o76543210)]⟩, allows := [⟨0, 0, 0, 0, 1, 9⟩] } }
    let s := st { d with fab := { d.fab with skeins := [{ skein with kind := 1, bytes := 0 }] } }
    let d1 := { s.dev with fab := { s.dev.fab with block := max s.dev.fab.block 5 } }
    let pick := Dev.creelPick 5 d1.laneBias (fun (r : LaneReq) => (r.cls, r.stamp, r.id)) (d1.eligible 0 0 0 5)
    pick.map (·.what) = some (.head 1 0) ∧ (Work.cutPacket ⟨s.mem, [], d1, false⟩ 1).2.map (·.dst) = some 1 ∧ (after (.laneCreelGrant 0 0 0 5) s).out.map (·.kind) = [.packet] ∧
      (after (.laneCreelGrant 0 0 0 5) s).ctx 1 .nextSeq = 1 := by decide +kernel

theorem test_fabric_tables : let s := st (fabric [])
    let t := st ((fabric []).setBank 0 { active := some plan0 })
    let v : Word := BitVec.ofNat 64 (2 ^ 64 - 1 - 15)
    let code (x : Word) (i : Nat) : Nat := bits x.toNat (4 * i) 4
    Dev.whole .mgmt = true ∧ s.dev.planBeyondLoading = false ∧ (after (.fabPmapWrite .mgmt 3 9) s).word .FAB_PMAP 3 = 9 ∧ t.dev.planBeyondLoading = true ∧
      (after (.fabPmapWrite .mgmt 3 9) t).reply = (.writeRefused, []) ∧ (∀ i < 16, code v i ≤ 4 ∨ code v i = 15) ∧ (∀ p < 4, s.dev.planActiveOrStaged p = false) ∧
      (∀ i < 16, ((List.range 18).filter fun f => (s.dev.setWord .FAB_FSLOT 2 v).slotCode 0 f (16 * 2 + i) ≠ 15).length ≤ 16) ∧ (after (.fabFslotWrite .owner 2 v) s).word .FAB_FSLOT 2 = v ∧
      code 7 0 = 7 ∧ (after (.fabFslotWrite .owner 2 7) s).reply = (.formatFault, []) ∧ (∀ i < 16, code (s.dev.word .FAB_FSLOT 2) i = code (s.dev.word .FAB_FSLOT 2) i) ∧
      bits (2 ^ 17 : Word).toNat 17 16 ≠ s.dev.fabId ∧ (2 ^ 17 : Word).toNat.testBit 0 = false ∧ (after (.fabTrnWrite .mgmt 3 (2 ^ 17)) s).get F.FAB_TRN_DST 3 = 1 ∧
      bits (0 : Word).toNat 17 16 = s.dev.fabId ∧ (after (.fabTrnWrite .mgmt 3 0) s).reply = (.formatFault, []) ∧ (after (.fabPmapWrite (.part 0) 3 9) s).reply = (.partitionDenied, []) ∧
      (∀ p < 4, s.dev.holdsTag p 1 = false) ∧ (after (.fabTrnWrite .mgmt 3 (3 + 2 ^ 17)) s).get F.FAB_TRN_VALID 3 = 1 ∧ s.dev.holdsTag 0 5 = true ∧ (after (.fabTrnWrite .mgmt 3 (11 + 2 ^ 17)) s).reply = (.formatFault, []) ∧
      (after (.laneCreelCommit .mgmt) s).reply = (.ok, []) := by decide +kernel

theorem test_slot_owners : let t (x : Nat) : State := st ((((fabric []).setBank 0 { active := some plan0 }).setWord .FAB_FSLOT 2 (BitVec.ofNat 64 x)).setWord .PLY_PSLOT 9 (BitVec.ofNat 64 x))
    let none_ : Nat := 2 ^ 64 - 1
    let v : Word := BitVec.ofNat 64 (none_ - 15)
    (t none_).dev.planActiveOrStaged 0 = true ∧ (after (.fabFslotWrite .owner 2 v) (t none_)).word .FAB_FSLOT 2 = v ∧ (after (.plyPslotWrite .owner 2 1 v) (t none_)).word .PLY_PSLOT 9 = v ∧
      bits (none_ - 15) 0 4 = 0 ∧ (after (.fabFslotWrite .owner 2 (BitVec.ofNat 64 none_)) (t (none_ - 15))).reply = (.writeRefused, []) ∧
      (after (.plyPslotWrite .owner 2 1 (BitVec.ofNat 64 none_)) (t (none_ - 15))).reply = (.writeRefused, []) := by decide +kernel

/-- A seventeenth coded fibre of an engine in a slot. -/
theorem test_crowded_slot : let s := st ((List.range 16).foldl (fun (d : Dev) f => d.setWord .FAB_FSLOT (4 * f) 0) (fabric []))
    (∀ i < 16, 16 < ((List.range 18).filter fun f => (s.dev.setWord .FAB_FSLOT 64 0).slotCode 0 f i ≠ 15).length) ∧
      (after (.fabFslotWrite .owner 64 0) s).reply = (.formatFault, []) := by decide +kernel

theorem test_plan_commands : ∀ staged ∈ [0, 3, 4], let s := st ((fabric [] [(F.FAB_PLAN_STAT_STAGED, 0, staged), (F.SYNC_BAR_ENABLE, 5, 1)]).setBank 0 { active := some plan0, staged := some plan0 })
    ownPart (.part 0) 0 = true ∧ (s.dev.fab.keys.get {} 0).live = true ∧ s.dev.partOfSync (61440 + 5) = some 0 ∧ s.dev.isSet F.SYNC_BAR_ENABLE 5 = true ∧ s.dev.hasPlan 0 = true ∧
      (after (.planPrepare (.part 0) 0) s).get F.FAB_PLAN_STAT_STAGED 0 = (if staged = 0 then 1 else staged) ∧ (after (.planArm (.part 0) 0 5) s).get F.FAB_PLAN_STAT_STAGED 0 = (if staged = 3 then 4 else staged) ∧
      ((after (.planStop (.part 0) 0) s).bank 0).stopping = true ∧ (after (.planDiscard (.part 0) 0) s).get F.FAB_PLAN_STAT_STAGED 0 = (if staged = 4 then 4 else 0) ∧
      ownPart (.part 1) 0 = false ∧ (after (.planStop (.part 1) 0) s).reply = (.partitionDenied, []) := by decide +kernel

theorem test_plan_ready : ∀ staged ∈ [2, 4], let s := st ((fabric [] [(F.FAB_PLAN_STAT_STAGED, 0, staged)]).setBank 0 { staged := some plan0 })
    (s.dev.bank 0).staged = some plan0 ∧ (s.dev.bank 0).unprimed = [] ∧ ((Dev.planRings plan0).all fun x => s.dev.ringState x.1 x.2 = 4) = true ∧ (s.dev.bank 0).arrived = false ∧
      s.dev.fab.skeins = [] ∧ s.dev.fab.flights = [] ∧ (after (.planReady 0) s).get F.FAB_PLAN_STAT_STAGED 0 = (if staged = 2 then 3 else 4) ∧
      ((after (.planSwitchArrival 0) s).bank 0).arrived = decide (staged = 4) := by decide +kernel

/-- An image of no sections, listed at HBM address 0. -/
def image : List Byte := [0x4E414C50 + 0x0100 * 2 ^ 32 + 5 * 2 ^ 48, 1000 + 2 * 2 ^ 14, 64, 0, 0, 0, 0, 0].flatMap (leBytes 8)

/-- Partition 0 loads a plan from HBM address 0, where a header is listed. -/
def loads (bs : List Byte) : State := st (fabric [] [(F.FAB_PLAN_STAT_STAGED, 0, 1)]) { cells := bs.zipIdx.map fun x => ⟨x.2, x.1⟩ }

theorem test_plan_load : let s := loads image
    s.dev.get F.FAB_PLAN_SRC_ADDR 0 % 64 = 0 ∧ s.dev.inRange 0 0 64 = true ∧ (s.dev.reach (some 0) 0 64).1 = .ok ∧ Clean s.mem 0 64 ∧ max 64 (leNat (((s.mem.read 0 64).drop 16).take 4)) = 64 ∧
      s.mem.read 0 64 = image ∧ (match s.dev.checkImage 0 image with
        | .ok a => (s.dev.unlockable a).isNone && a.slice = 5
        | .error _ => false) = true := by decide +kernel

theorem test_plan_load_fails : let bs := 0 :: image.tail
    let s := loads bs
    s.mem.read 0 64 = bs ∧ (match s.dev.checkImage 0 bs with
      | .ok _ => false
      | .error x => x = (0xF, 0xFFFFFF)) = true ∧ (after (.planLoadComplete 0) s).get F.FAB_PLAN_STAT_STAGED 0 = 0 := by decide +kernel

/-- A plan whose permutation needs a ring that has failed cannot be loaded (R268). -/
theorem test_plan_not_locked : let a : Plan := { plan0 with perms := ⟨[(0, 0o76543210)]⟩, places := ⟨[(0, (3, 9))]⟩ }
    let d := fabric [] [(F.LANE_RING_STATE, 0, 7)]
    d.unlockable a = some 0 ∧ a.places.get (0xF, 0xFFFFFF) 0 = (3, 9) ∧ (fabric []).unlockable a = none := by decide +kernel

/-! ### The light engines -/

/-- Ring 9 of engine 1 in a state, its distaff 0 lit. -/
def ring (state : Nat) (x : RingLoop := {}) (l : List (Fld × Nat × Nat) := []) : State :=
  st ((dev ([(F.OPT_DSTAT_STATE, 3, 3), (F.OPT_DSTAT_STATE, 5, 2), (F.LANE_RING_STATE, 2313, state)] ++ l)).setLoop 1 9 x)

theorem test_ring_request : ∀ ok ∈ [0, 1], let s := ring 0 {} [(F.LANE_RING_STORED_OK, 2313, ok), (F.LANE_RING_STORED_ACT, 2313, 70)]
    s.dev.released 4 = true ∧ s.dev.ringState 1 9 = 0 ∧ s.dev.mayFeed 1 9 0 = true ∧ s.dev.biasValid 1 9 = decide (ok = 1) ∧ (after (.ringLockRequest 1 9 0) s).ringState 1 9 = 1 + ok ∧
      (after (.ringLockRequest 1 9 0) s).get F.LANE_RING_BIAS 2313 = 70 * ok := by decide +kernel

theorem test_ring_sweep : ∀ x ∈ [(0, 1), (2, 1), (3, 7)], let s := ring 1 { sweeps := x.1 }
    s.dev.ringState 1 9 = 1 ∧ (s.dev.ringLoop 1 9).sweeps = x.1 ∧ (after (.seekSweepEnd 1 9 false 0) s).ringState 1 9 = x.2 ∧ (after (.seekSweepEnd 1 9 true 55) s).get F.LANE_RING_BIAS 2313 = 55 := by
  decide +kernel

theorem test_ring_capture : (ring 2).dev.ringState 1 9 = 2 ∧ (after (.captureSettled 1 9 66) (ring 2)).ringState 1 9 = 3 ∧ (after (.captureTimeout 1 9) (ring 2)).ringState 1 9 = 1 := by decide +kernel

theorem test_ring_dark : ∀ n ∈ [2, 3, 4], (ring n).dev.ringState 1 9 = n ∧ (after (.ringDark 1 9) (ring n)).ringState 1 9 = 5 := by decide +kernel

theorem test_ring_light : ∀ x ∈ [(0, 3), (2, 2)], let s := ring 5 { fed := x.1 }
    s.dev.mayFeed 1 9 0 = true ∧ (s.dev.ringLoop 1 9).fed = x.1 ∧ (after (.ringLightReturn 1 9 0) s).ringState 1 9 = x.2 ∧
      (after (.ringLightReturn 1 2000 0) (st (dev [(F.LANE_RING_STATE, 4304, 5)]))).ringState 1 2000 = 3 := by decide +kernel

/-- Pilots with the given levels at lines 0 and 1, in 0.01 dB. -/
def pilots (a b : Int) : List Int := [a, b] ++ List.replicate 6 (-9000)

theorem test_pilot_window : ∀ x ∈ ([(3, { passes := 1 }, false, pilots (-3000) (-2000), (0, 1), 4), (3, {}, false, pilots (-2600) (-2000), (0, 1), 3), (4, { weak := 2 }, false, pilots (-3000) (-2000), (0, 1), 4),
      (3, {}, false, pilots (-2000) (-3000), (1, 0), 2), (4, { steps := 2 }, false, pilots (-2000) (-3000), (1, 0), 2), (4, { weak := 2 }, false, pilots (-2500) (-2000), (2, 0), 3),
      (4, {}, true, [], (3, 0), 5), (3, {}, true, [], (3, 0), 5)] : List (Nat × RingLoop × Bool × List Int × (Nat × Nat) × Nat)),
    let s := ring x.1 x.2.1
    s.dev.expectedLine 1 9 = some 1 ∧ s.dev.ringState 1 9 = x.1 ∧ Dev.windowClass x.2.2.1 x.2.2.2.1 1 = x.2.2.2.2.1 ∧
      (x.2.2.2.2.1.1 = 1 ∨ (after (.pilotWindow 1 9 x.2.2.1 x.2.2.2.1) s).ringState 1 9 = x.2.2.2.2.2) := by
  decide +kernel

theorem test_pilot_parked : (st (dev [])).dev.expectedLine 0 1153 = none ∧ (st (dev [])).dev.expectedLine 0 1152 = some 0 := by decide +kernel

theorem test_lane_retry : Dev.whole .mgmt = true ∧ (ring 7).dev.ringState 1 9 = 7 ∧ (after (.laneRetry .mgmt 1 9) (ring 7)).ringState 1 9 = 1 ∧
    (after (.laneRetry .mgmt 1 2304) (ring 7)).reply = (.formatFault, []) := by decide +kernel

theorem test_lane_rxperm : let s := st (dev [])
    let v : Word := 0o76543201
    s.dev.planBeyondLoading = false ∧ isPerm v.toNat = true ∧ (after (.laneRxpermWrite .mgmt 0 3 v) s).word .LANE_RXPERM 3 = v ∧ isPerm 0o76543200 = false ∧
      (after (.laneRxpermWrite .mgmt 0 3 0o76543200) s).reply = (.formatFault, []) := by decide +kernel

theorem test_lane_margin : let v : Word := 5 + 2 ^ 8 + 7 * 2 ^ 12
    let s := st (dev [(F.LANE_STAT_ACTIVE, 149, 1), (F.LANE_RING_STATE, 1197, 4)])
    let t := st { dev [(F.LANE_MRG_CTL_BUSY, 0, 1)] with light := { margin := ⟨[(0, 256)]⟩ } }
    bits v.toNat 0 8 ≤ 143 ∧ s.dev.isSet F.LANE_MRG_CTL_BUSY 0 = false ∧ bits v.toNat 12 8 ≠ 0 ∧ s.dev.ringState 0 (s.dev.boundRing 0 5) = 4 ∧ s.dev.isSet F.LANE_STAT_ACTIVE (144 + 5) = true ∧
      (after (.laneMarginStart .mgmt 0 v) s).isSet F.LANE_MRG_CTL_BUSY 0 = true ∧ t.dev.isSet F.LANE_MRG_CTL_BUSY 0 = true ∧ (after (.laneMarginEnd 0 8 9) t).get F.LANE_MRG_RES_PASS 0 = 1 ∧
      (after (.laneMarginEnd 0 7 9) t).get F.LANE_MRG_RES_PASS 0 = 0 := by decide +kernel

theorem test_opt_baseline : let l (ok : Nat) := (List.range 7).map (fun i => (F.OPT_BASELINE_VALID, 8 + i, 1)) ++ [(F.OPT_DSTAT_BASE_OK, 1, ok)]
    let s := st (dev (l 0))
    let t := st (dev (l 1))
    s.dev.isSet F.OPT_DSTAT_BASE_OK (15 / 8) = false ∧ (after (.optBaselineWrite .mgmt 0 15 (2 ^ 16 + 9)) s).isSet F.OPT_DSTAT_BASE_OK 1 = true ∧ t.dev.isSet F.OPT_DSTAT_BASE_OK (15 / 8) = true ∧
      (after (.optBaselineWrite .mgmt 0 15 9) t).reply = (.writeRefused, []) := by decide +kernel

theorem test_block_alignment : let s := st (dev [(F.LANE_STAT_ACTIVE, 149, 1)])
    (after (.blockAlignmentTaken (.light 0 6)) s).isSet F.LANE_STAT_ACTIVE 150 = true ∧ (after (.blockAlignmentLoss (.light 0 5)) s).isSet F.LANE_STAT_ACTIVE 149 = false := by decide +kernel

/-- Engine 0 with its switch and its spare in a state, and the spare's fade. -/
def spare (sw state : Nat) (fade : Int) (l : List (Fld × Nat × Nat) := []) : State :=
  st (dev ([(F.OPT_SW_STAT_STATE, 0, sw), (F.OPT_DSTAT_STATE, 2, state), (F.OPT_DSTAT_FADE, 2, field 16 fade), (F.TWIST_ALIGN_STATE, 0, 2), (F.TWIST_CNT_CNT, 0, 50), (F.OPT_CFG_LEAD, 0, 4)] ++ l))

theorem test_switch_plan : let s := spare 0 2 (-149)
    s.dev.get F.OPT_SW_STAT_STATE 0 = 0 ∧ -150 < signed 16 (s.dev.get F.OPT_DSTAT_FADE 2) ∧ s.dev.align = 2 ∧ (after (.optSwPlan .mgmt 0 1) s).get F.OPT_SW_STAT_STATE 0 = 1 ∧
      (after (.optSwPlan .mgmt 0 1) s).word .OPT_SW_AT 0 = 54 ∧ (after (.optSwPlan .mgmt 0 1) (spare 2 2 0)).get F.OPT_SW_STAT_REFUSE 0 = 1 ∧
      (after (.optSwPlan .mgmt 0 1) (spare 0 1 0)).get F.OPT_SW_STAT_REFUSE 0 = 2 ∧ signed 16 ((spare 0 2 (-150)).dev.get F.OPT_DSTAT_FADE 2) ≤ -150 ∧
      (after (.optSwPlan .mgmt 0 1) (spare 0 2 (-150))).get F.OPT_SW_STAT_REFUSE 0 = 3 ∧ -300 < signed 16 ((spare 0 2 (-299)).dev.get F.OPT_DSTAT_FADE 2) := by decide +kernel

/-- A group that is out of service finds no spare (R273); a forced switch excludes the group's lanes at once (R271). -/
theorem test_switch_force : let s := spare 0 2 (-299)
    let out := st (s.dev.setSw 0 { out := [1] })
    let t := after (.optSwForce .mgmt 0 1) s
    (s.dev.swOf 0).out.contains 1 = false ∧ t.get F.OPT_SW_STAT_STATE 0 = 2 ∧ t.isSet F.LANE_STAT_EXCLUDED 8 = true ∧ t.isSet F.LANE_STAT_EXCLUDED 0 = false ∧
      (out.dev.swOf 0).out.contains 1 = true ∧ (after (.optSwForce .mgmt 0 1) out).get F.OPT_SW_STAT_REFUSE 0 = 2 := by decide +kernel

theorem test_switch_turns : let s := spare 2 2 0
    s.dev.get F.OPT_SW_STAT_STATE 0 = 2 ∧ (s.dev.swOf 0).turned = false ∧ s.dev.released 4 = true := by decide +kernel

theorem test_distaff : let s := st (dev [(F.OPT_DSTAT_STATE, 1, 1)])
    let t := st (dev ((List.range 8).map (fun i => (F.OPT_BASELINE_POWER, 8 + i, 1000)) ++ (List.range 8).map (fun i => (F.OPT_BASELINE_VALID, 8 + i, 1)) ++ [(F.OPT_DSTAT_STATE, 1, 1), (F.OPT_DSTAT_BASE_OK, 1, 1)]))
    let low : List Int := [1000, 700, 1000, 1000, 1000, 1000, 1000, 1000]
    let high : List Int := List.replicate 8 1000
    s.dev.get F.OPT_DSTAT_STATE 1 = 1 ∧ (after (.distaffWarmDone 0 1) s).get F.OPT_DSTAT_STATE 1 = 2 ∧ t.dev.distaffLit 1 = true ∧ Dev.worstFade (t.dev.fades 0 1 low) = some (1, -300) ∧
      (after (.distaffPowerReading 0 1 low) t).get F.OPT_POWER_POWER 9 = 700 ∧ (t.dev.distaffOf 1).forced = false ∧ t.dev.get F.OPT_DSTAT_STATE 1 ≠ 3 ∧
      (after (.distaffForceReading 0 1 low low) t).isSet F.OPT_DSTAT_FORCED 1 = true ∧ Dev.worstFade (t.dev.fades 0 1 high) = some (0, 0) ∧
      after (.distaffForceReading 0 1 low high) t = t.dev := by decide +kernel

/-- A layer entry 7 of Ply engine 0: its update rule, its elements, its accumulator's epoch 0, its records at HBM addresses 0 and 1 MiB, its gradients at 2 MiB and its digests at 3 MiB. -/
def layer (rule elems : Nat) (k : Nat := 0) : List Nat :=
  [1 + rule * 2 ^ 11 + k * 2 ^ 14 + 7 * 2 ^ 32, 0 + 9 * 2 ^ 48, 0x100000, elems + 0x3F800000 * 2 ^ 32, 0x200000 + 1 * 2 ^ 48, 0x300000, 0x400000, 0x3F800000]

/-- A device in whose current slot Ply engine 0 serves partition 0, under a plan with the Ply entries `es`. -/
def plied (es : List (List Nat)) (ctxs : List (Nat × Nat) := []) (l : List (Fld × Nat × Nat) := []) : Dev :=
  ((fabric ctxs l).setWord .PLY_PSLOT 0 (BitVec.ofNat 64 (2 ^ 64 - 16))).setBank 0 { active := some { plan0 with ply := es } }

theorem test_tile_bind : let x := layer 0 131072
    let s := st (plied [x])
    let d := s.dev
    d.plyServes 0 0 = true ∧ d.oldTiles 0 0 = [] ∧ (d.tileSeq 0 0)[0]? = some (x, 0) ∧ d.binOf 0 7 false 0 = none ∧ (after (.tileBind 0 0) s).ply.bins = [{ e := 0, part := 0, layer := 7, tile := 0 }] ∧
      ((after (.tileBind 0 0) s).ply.marks.map (·.1)) = [0] := by decide +kernel

/-- One block of ones, times two to the power 1: scale byte 128, codes 38. -/
def gradient : Packet := { packet with lenm1 := 1, payload := 1 :: 0 :: 0 :: 0 :: 128 :: List.replicate 251 0 ++ List.replicate 256 0x38 }

/-- Receive context 0 is a contributor of layer 7. -/
def takes : List Nat := [3 + 7 * 2 ^ 32]

theorem test_ply_accumulate : let d := plied [layer 0 64, takes] rxCtx
    let s := st { d with fab := { d.fab with plyIn := [(0, 0, gradient)] }, ply := { d.ply with bins := [{ e := 0, part := 0, layer := 7, tile := 0 }] } }
    let t := after (.plyAccumulate 0 0) s
    s.dev.plyServes 0 0 = true ∧ s.dev.ctx 0 .part = 0 ∧ s.dev.plyReceive 0 = some takes ∧ s.dev.addable 0 7 (s.dev.oldEpoch 0 gradient) (plyKeys gradient 0 false) 0 (gradient.nblk false) = true ∧
      t.ply.bins.map (fun b => (b.acc.get 0 0, b.acc.get 0 63, b.acc.get 0 64, b.added)) = [(0x40000000, 0x40000000, 0, [(0, 0)])] ∧ t.fab.plyIn = [] ∧ t.get F.PLY_STEP_STATE 0 = 1 := by decide +kernel

/-- A block of ones is added to tile 0 of layer 7; the bin of tile 1 and the retained bin stay (R288). -/
theorem test_add_block : let b : Bin := { e := 0, part := 0, layer := 7, tile := 0 }
    let d : Dev := { dev part0 with ply := { bins := [{ b with tile := 1 }, b, { b with old := true }] } }
    let t := d.addBlock 0 7 false [3] 1 fun _ => un32 one32
    t.ply.bins.map (fun b => [b.tile, flag b.old, b.acc.get 0 63, b.acc.get 0 64, b.acc.get 0 127]) = [[1, 0, 0, 0, 0], [0, 0, 0, one32, one32], [0, 1, 0, 0, 0]] ∧ t.ply.bins.map (·.added) = [[], [(3, 1)], []] := by decide +kernel

/-- A Ply skein of flow 1: 64 FP32 gradients from the base of the bobbin of core 0. -/
def plySkein1 : Skein := { skein with kind := 2, src := 0x14000000000, bytes := 256 }

/-- The send entry of context 1 for layer 7. -/
def sends : List Nat := [2 + 1 * 2 ^ 16 + 7 * 2 ^ 32, 0x14000000000, 0, 0]

/-- A flow of partition 0 that is cut by Ply engine 0, to part `peer`. -/
def plyFlow (peer : Nat) (b : List Bin) : State :=
  let d := plied [layer 0 64, sends] [(8, 1 + peer * 2 ^ 8 + 5 * 2 ^ 48)] [(F.FAB_ID_ID, 0, 3)]
  st { d with fab := { d.fab with skeins := [plySkein1] }, ply := { d.ply with bins := b } } { cells := [(0x14000000002, 0x80), (0x14000000003, 0x3F)] }

theorem test_ply_convert : let s := plyFlow 1 []
    let d := s.dev
    let w : Work × Status × List Packet := Work.convertPackets ⟨s.mem, [], d.openStep 0, false⟩ 0 sends plySkein1 1 1 0 []
    d.plySkein 1 = some plySkein1 ∧ d.plySend 1 = some sends ∧ d.plyServes 0 0 = true ∧ d.ctx 1 .peer ≠ d.fabId ∧ w.2.1 = .ok ∧ w.2.2.map (fun x => (x.num 0 5, x.num 256 2)) = [(0x7800000001, 0x70)] := by decide +kernel

theorem test_ply_self_contribution : let s := plyFlow 3 [{ e := 0, part := 0, layer := 7, tile := 0 }]
    let t := plyFlow 3 []
    let w (s : State) : Work × Status × Nat := Work.selfBlocks sends plySkein1 1 1 0 ⟨s.mem, [], s.dev.openStep 0, false⟩
    s.dev.plySkein 1 = some plySkein1 ∧ t.dev.plySkein 1 = some plySkein1 ∧ t.dev.plyServes 0 0 = true ∧ t.dev.plySend 1 = some sends ∧ s.dev.ctx 1 .peer = s.dev.fabId ∧ t.dev.ctx 1 .peer = t.dev.fabId ∧
      (w s).2 = (.ok, 1) ∧ (w t).2 = (.ok, 0) ∧
      (after (.plySelfContribution 1) s).ply.bins.map (fun b => (b.acc.get 0 0, b.added)) = [(0x3F800000, [(4097, 0)])] := by decide +kernel

/-- The combine entry of partition 0 and engine 0: two packets to part 44, on send context 1, held for 10 ns. -/
def combines : List Nat := [4 + 2 * 2 ^ 11 + 1 * 2 ^ 16 + 44 * 2 ^ 32, 10, 0, 0]

/-- Relayed packets to part 44, held since 5 ns. -/
def holding (srcs : List Nat) : Dev :=
  let d := plied [combines] txCtx
  { d with fab := { d.fab with holds := srcs.map fun n => ⟨0, 0, { gradient with src := n, dst := 44, ply := true }, 5⟩ } }

theorem test_ply_combine : let d := holding [8, 6]
    let s := st d
    let h : Held := ⟨0, 0, { gradient with src := 8, dst := 44, ply := true }, 5⟩
    d.firstHold 0 0 = some h ∧ d.combineEntry 0 h.packet = some combines ∧ d.combineReady 0 0 combines = true ∧ (d.holdGroup h).length = 2 ∧
      (after (.plyCombine 0 0) s).fab.holds = [] ∧ ((after (.plyCombine 0 0) s).word .PLY_COMB 0) = 1 ∧
      (after (.plyCombine 0 0) s).fab.skeins.map (fun x => x.ready.map fun f => (f.num 0 1, f.num 8 2, f.num 16 2, f.num 256 5, f.num 512 1)) = [[(2, 6, 8, 0x7A00000001, 0x70)]] := by decide +kernel

theorem test_combine_alone : let d := holding [8]
    let h : Held := ⟨0, 0, { gradient with src := 8, dst := 44, ply := true }, 5⟩
    d.fab.holds = [h] ∧ d.firstHold 0 0 = some h ∧ d.combineEntry 0 h.packet = some combines ∧ ((d.holdGroup h).take 2).length < 2 := by decide +kernel

theorem test_tile_finish : let x := layer 0 131072
    let d := plied [x] [] [(F.PLY_STEP_SPB_OK, 0, 1), (F.PLY_STEP_OVF, 0, 1)]
    let b : Bin := { e := 0, part := 0, layer := 7, tile := 0 }
    let s := st { d with ply := { d.ply with bins := [b] } }
    s.dev.layerOf 0 7 false = some x ∧ s.dev.plyServes 0 0 = true ∧ s.dev.binOf 0 7 false 0 = some b ∧ 1 < tileCount x ∧ s.dev.tileComplete 0 x b = true ∧ s.dev.isSet F.PLY_STEP_SPB_OK 0 = true ∧
      s.dev.isSet F.PLY_STEP_OVF 0 = true ∧ s.dev.isSet F.PLY_STEP_PENDING 0 = false := by decide +kernel

/-- A complete tile with the step flag clear, for each rule that has norms or not, and for the last tile and an earlier one (R304 to R306). -/
theorem test_tile_update : ∀ rule ∈ [0, 1, 2], ∀ elems ∈ [64, 65600], let x := layer rule elems
    let d := plied [x, [5 + 2 * 2 ^ 32 + 2 * 2 ^ 48 + 1 * 2 ^ 16, 1]] [] [(F.PLY_STEP_SPB_OK, 0, 1)]
    let b : Bin := { e := 0, part := 0, layer := 7, tile := 0 }
    let s := st { d with ply := { d.ply with bins := [b] } }
    let g : Nat := fMul (f32 ((un32 0).scale (-s.dev.lsExp 0))) (ent x 3 32 32)
    let ok (a n : Nat) : Prop := s.dev.serves none (some 0) a n ∧ a + n ≤ hbmTop
    (s.dev.layerOf 0 7 false = some x ∧ ent x 0 8 3 = 0 ∧ ent x 3 0 32 % 64 = 0 ∧ (s.dev.runOf 0 7 false).finished = 0 ∧ (s.dev.runOf 0 7 false).done = false ∧ s.dev.plyServes 0 0 = true ∧ s.dev.binOf 0 7 false 0 = some b) ∧
      (s.dev.tileComplete 0 x b = true ∧ s.dev.isSet F.PLY_STEP_SPB_OK 0 = true ∧ s.dev.isSet F.PLY_STEP_OVF 0 = false ∧ s.dev.isSet F.PLY_STEP_PENDING 0 = false ∧ b.acc.entries = [] ∧ (un32 g).nonFinite = false) ∧
      (∀ j ∈ [0, 1024], ok (j * recordSize rule) (recordSize rule) ∧ ok (0x100000 + j * recordSize rule) (recordSize rule) ∧ ok (0x200000 + 256 * j) 256) ∧ 0 + 1025 * recordSize rule ≤ 0x100000 ∧
      ent x 1 0 48 = 0 ∧ ent x 2 0 48 = 0x100000 ∧ ent x 4 0 48 = 0x200000 ∧ tileCount x = (if elems = 64 then 1 else 2) ∧ (s.dev.groupOf 0 1).isSome = true ∧ 2 ≠ s.dev.fabId := by decide +kernel

/-- The run of layer 7. -/
def run7 : LayerRun := { part := 0, layer := 7, finished := 1 }

/-- A device with one layer entry and the layer's run. -/
def layered (x : List Nat) (r : LayerRun) (l : List (Fld × Nat × Nat) := []) : State :=
  let d := plied [x] [] l
  st { d with ply := { d.ply with runs := [r] } }

theorem test_second_pass_and_solver : ∀ rule ∈ [2, 3], ∀ solved ∈ [none, some none, some (some [one32])], let x := layer rule 64 (if rule = 3 then 1 else 0)
    let s := layered x { run7 with norms := some (0, 0), matrix := some [0], solved }
    let t := layered x { run7 with matrix := some [0] }
    let ok (a n : Nat) : Prop := (s.dev.reach (some 0) a n).1 = .ok
    s.dev.layerOf 0 7 false = some x ∧ s.dev.plyServes 0 0 = true ∧ (s.dev.runOf 0 7 false).norms = some (0, 0) ∧ (s.dev.runOf 0 7 false).written = false ∧ s.dev.isSet F.PLY_STEP_OVF 0 = false ∧
      (s.dev.runOf 0 7 false).solved = solved ∧ s.dev.runOvf 0 (s.dev.runOf 0 7 false) = false ∧ (rule = 3 → 0 < ent x 0 14 7) ∧ FV.eqv (un64 0) .zero = true ∧ (s.dev.runOf 0 7 false).matrix ≠ none ∧ ok (matrixAt x 0) 4 ∧ ok (matrixAt x 1) 4 ∧ ok 0 512 ∧ ok 0x100000 512 ∧ ok 0x200000 256 ∧
      (t.dev.runOf 0 7 false).solved = none ∧ t.dev.layerOf 0 7 false = some x ∧ t.dev.plyServes 0 0 = true ∧ (t.dev.runOf 0 7 false).matrix = some [0] := by decide +kernel

theorem test_layer_finish : ∀ ovf ∈ [0, 1], let x := layer 0 64
    let s := layered x run7 [(F.PLY_STEP_OVF, 0, ovf)]
    s.dev.layerOf 0 7 false = some x ∧ (s.dev.runOf 0 7 false).finished = tileCount x ∧ (s.dev.runOf 0 7 false).done = false ∧ (s.dev.reach (some 0) 0x100000 (stateBytes x)).1 = .ok ∧
      (s.dev.reach (some 0) 0x300040 64).1 = .ok ∧ s.dev.isSet F.PLY_STEP_OVF 0 = decide (ovf = 1) ∧
      (ovf = 1 → ((after (.layerFinish 0 0 7 false) s).runOf 0 7 false).done = true ∧ (after (.layerFinish 0 0 7 false) s).sync.arrivals = [.signal 9 1 0 0x810 0xF 0 .none]) := by decide +kernel

/-- A retained layer finishes, with the flag of its own step, and takes its bin with it; a result of its step serves it, one that nothing waits for only answers its message (R314). -/
theorem test_retained : ∀ sent ∈ [false, true], let x := layer 2 64
    let r : LayerRun := { run7 with old := true, step := 4, ovf := true, sent }
    let b : Bin := { e := 0, part := 0, layer := 7, tile := 0, old := true }
    let d := plied [x, [5 + 2 * 2 ^ 32 + 2 * 2 ^ 48, 1], [3 + 1 * 2 ^ 12]] rxCtx [(F.PLY_STEP_CURRENT, 0, 5)]
    let s := st { d with fab := { d.fab with plyIn := [(0, 0, { groupPacket 0 0 0x82 0 7 4 true [3, 4] with src := 1 })] }, ply := { d.ply with old := [(0, x)], runs := [r], bins := [b] } }
    let t := after (.layerFinish 0 0 7 true) s
    s.dev.plyServes 0 0 = true ∧ s.dev.layerOf 0 7 true = some x ∧ s.dev.runOvf 0 (s.dev.runOf 0 7 true) = true ∧ r ∈ s.dev.ply.runs ∧ r.finished = tileCount x ∧ t.layerOf 0 7 true = none ∧ t.ply.bins = [] ∧
      (s.dev.groupIn 0 0 [0x82, 0x83]).map (fun q => ((GroupMsg.of q.1.2.2).kind, (GroupMsg.of q.1.2.2).step)) = some (0x82, 4) ∧ s.dev.resultRun 0 7 4 = sent ∧
      ((after (.groupResult 0 0) s).runOf 0 7 true).norms = (if sent then some (3, 4) else none) ∧ (after (.groupResult 0 0) s).isSet F.PLY_STEP_OVF 0 = false := by decide +kernel

theorem test_layer_digest : (layerDigest [0x61, 0x62, 0x63]).length = 48 := by decide +kernel

/-- The group entry of the verdict: two parts, its home is part `home`, UP 1, DOWN 1, the sync object 9. -/
def verdict (home : Nat) : List Nat := [5 + home * 2 ^ 32 + 2 * 2 ^ 48, 1 + 1 * 2 ^ 12 + 9 * 2 ^ 24]

/-- A receive entry of context 0 for the messages of group 0. -/
def groupTakes : List Nat := [3 + 1 * 2 ^ 12]

/-- A group message of kind `kind` in step `step` waits at engine 0, of part 0 with the verdict's home `home`. -/
def messaged (kind step : Nat) (ovf : Bool) (home : Nat) (l : List (Fld × Nat × Nat) := []) : Dev :=
  let d := plied [layer 2 64, verdict home, groupTakes] rxCtx ([(F.PLY_STEP_CURRENT, 0, 5), (F.PLY_LS_INTERVAL, 0, 2000)] ++ l)
  { d with fab := { d.fab with plyIn := [(0, 0, { groupPacket 0 0 kind 0 7 step ovf [3, 4] with src := 1 })] } }

theorem test_verdict_send : let d := plied [layer 0 64, verdict 0]
    let s := st { d with ply := { d.ply with runs := [{ run7 with done := true }] } }
    s.dev.plyServes 0 0 = true ∧ s.dev.groupOf 0 0 = some (verdict 0) ∧ s.dev.get F.PLY_STEP_STATE 0 < 2 ∧ s.dev.layers 0 = [layer 0 64] ∧ (s.dev.runOf 0 7 false).done = true ∧
      (after (.verdictSend 0 0) s).get F.PLY_STEP_STATE 0 = 2 ∧ (after (.verdictSend 0 0) s).ply.home = [⟨0, 1, 0, 0, 0, false, []⟩] := by decide +kernel

theorem test_group_message : ∀ step ∈ [5, 6], let d := messaged 2 step false 0
    let s := st d
    let t := after (.groupMessage 0 0) s
    s.dev.plyServes 0 0 = true ∧ (d.groupIn 0 0 [1, 2, 3]).map (fun q => ((GroupMsg.of q.1.2.2).step, q.2)) = some (step, 0) ∧ d.groupOf 0 0 = some (verdict 0) ∧ 0 = d.fabId ∧ d.get F.PLY_STEP_CURRENT 0 = 5 ∧
      t.fab.plyIn = [] ∧ t.ply.home = (if step = 5 then [⟨0, 2, 7, 1, 0, false, [3, 4]⟩] else []) ∧ t.evq.length = (if step = 5 then 0 else 1) := by decide +kernel

theorem test_verdict_result : ∀ x ∈ [(true, 0), (false, 0), (false, 1999)], let d := messaged 0x81 5 x.1 2 [(F.PLY_LS_CLEAN, 0, x.2)]
    let s := st d
    let t := after (.verdictResult 0 0) s
    s.dev.plyServes 0 0 = true ∧ (d.groupIn 0 0 [0x81]).map (fun q => (GroupMsg.of q.1.2.2, q.2)) = some (⟨0x81, 0, 7, 5, x.1, [3, 4]⟩, 0) ∧ d.groupOf 0 0 = some (verdict 2) ∧
      d.isSet F.TWIST_PHASE_BASE_EN 0 = false ∧ d.get F.PLY_LS_INTERVAL 0 = 2000 ∧ d.get F.PLY_LS_EXP 0 = 16 ∧ t.get F.PLY_LS_EXP 0 = (if x.1 then 15 else if x.2 = 1999 then 17 else 16) ∧
      t.isSet F.PLY_STEP_PENDING 0 = !x.1 ∧ t.get F.PLY_STEP_CURRENT 0 = 6 := by decide +kernel

theorem test_group_result : let d := messaged 0x82 5 true 2
    let s := st d
    s.dev.plyServes 0 0 = true ∧ (d.groupIn 0 0 [0x82, 0x83]).map (fun q => (GroupMsg.of q.1.2.2, q.2)) = some (⟨0x82, 0, 7, 5, true, [3, 4]⟩, 0) ∧ d.groupOf 0 0 = some (verdict 2) ∧
      ((after (.groupResult 0 0) s).runOf 0 7 false).norms = some (3, 4) ∧ (after (.groupResult 0 0) s).isSet F.PLY_STEP_OVF 0 = true := by decide +kernel

theorem test_group_timeout : let d := plied [layer 0 64, verdict 2] [] [(F.TWIST_CNT_CNT, 0, 74)]
    let s := st { d with ply := { d.ply with awaiting := [(0, 1, 0, 10)] } }
    10 + 64 ≤ s.dev.get F.TWIST_CNT_CNT ∧ (after (.groupResultTimeout 0) s).get F.PLY_STEP_STATE 0 = 3 ∧ (after (.groupResultTimeout 0) s).ply.awaiting = [] := by decide +kernel

/-- A step parameter block of step 5 whose loss scale is that of EXP 16. -/
def spb : List Nat := [5, 0, 0, 143 * 2 ^ 23, 1 * 2 ^ 32, 1 + 1 * 2 ^ 32, 0, 0]

theorem test_submit : ∀ cur ∈ [5, 6], let d := fabric [] [(F.PLY_STEP_CURRENT, 0, cur)]
    let s := st ((spb.zipIdx).foldl (fun (d : Dev) x => d.setWord .PLY_SPB x.2 (BitVec.ofNat 64 x.1)) d)
    let block := (List.range 8).map fun i => (s.dev.word .PLY_SPB i).toNat
    ownPart (.part 0) 0 = true ∧ s.dev.get F.PLY_STEP_STATE 0 ≠ 3 ∧ s.dev.isSet F.PLY_STEP_SPB_OK 0 = false ∧ block = spb ∧ spbOk block (s.dev.lsExp 0) = true ∧
      (after (.plySubmit (.part 0) 0) s).reply.1 = (if cur = 5 then .ok else .stepStale) ∧ (after (.plySubmit (.part 0) 0) s).isSet F.PLY_STEP_SPB_OK 0 = decide (cur = 5) := by decide +kernel

theorem test_commit : ∀ pending ∈ [0, 1], let d := fabric [] [(F.PLY_STEP_PENDING, 0, pending)]
    let s := st { d with ply := { d.ply with resNext := ⟨[(0, 17)]⟩ } }
    let t := after (.plyCommit (.part 0) 0) s
    s.dev.isSet F.PLY_STEP_PENDING 0 = decide (pending = 1) ∧ t.get F.PLY_STEP_VER 0 = pending ∧ t.get F.PLY_LS_RES_EXP 0 = 16 + pending ∧ t.reply.1 = (if pending = 1 then .ok else .formatFault) := by decide +kernel

theorem test_rollback : let b : Bin := { e := 0, part := 0, layer := 7, tile := 0 }
    let d := fabric [] [(F.PLY_STEP_STATE, 0, 3), (F.PLY_STEP_CURRENT, 0, 5), (F.PLY_STEP_PENDING, 0, 1)]
    let s := st { d with ply := { d.ply with bins := [b, { b with part := 1 }] } }
    let p := st (plied [])
    let t := after (.plyRollback (.part 0) 0) s
    s.dev.hasPlan 0 = false ∧ s.dev.isSet F.TWIST_PHASE_BASE_EN 0 = false ∧ p.dev.hasPlan 0 = true ∧ t.ply.bins = [{ b with part := 1 }] ∧ t.get F.PLY_STEP_STATE 0 = 0 ∧ t.get F.PLY_STEP_CURRENT 0 = 5 ∧
      t.isSet F.PLY_STEP_PENDING 0 = false ∧ (after (.plyRollback (.part 0) 0) p).reply.1 = .writeRefused := by decide +kernel

theorem test_step_registers : ∀ state ∈ [0, 1], let s := st (fabric [] [(F.PLY_STEP_STATE, 0, state)])
    let v : Word := BitVec.ofNat 64 (5 + 2 ^ 48)
    let x : Word := BitVec.ofNat 64 (62 + 100 * 2 ^ 22)
    let c (r : Requester) := after (.plyStepWrite r 0 v) s
    let l (r : Requester) := after (.plyLsWrite r 0 x) s
    s.dev.get F.PLY_STEP_STATE 0 = state ∧ s.dev.isSet F.PLY_STEP_PENDING 0 = false ∧ s.dev.hasPlan 0 = false ∧ -24 ≤ signed 6 (bits x.toNat 0 6) ∧ signed 6 (bits x.toNat 0 6) ≤ 24 ∧ bits x.toNat 22 16 ≠ 0 ∧
      (state = 0 → (c (.part 0)).get F.PLY_STEP_CURRENT 0 = 5 ∧ (c (.part 0)).get F.PLY_STEP_VER 0 = 1 ∧ (l (.part 0)).get F.PLY_LS_RES_EXP 0 = 62 ∧ (l (.part 0)).get F.PLY_LS_INTERVAL 0 = 100) ∧
      (state = 1 → (c (.part 0)).reply.1 = .writeRefused ∧ (l (.part 0)).reply.1 = .writeRefused) ∧ ownPart .mgmt 0 = false ∧ (c .mgmt).reply.1 = .partitionDenied := by decide +kernel

theorem test_ply_slots : let s := st (fabric [])
    let v : Word := BitVec.ofNat 64 (2 ^ 64 - 14)
    Dev.whole .owner = true ∧ (∀ i < 4, s.dev.planActiveOrStaged i = false) ∧ (∀ i < 16, bits v.toNat (4 * i) 4 < 4 ∨ bits v.toNat (4 * i) 4 = 15) ∧ (after (.plyPslotWrite .owner 2 1 v) s).word .PLY_PSLOT 9 = v ∧
      bits (4 : Word).toNat 0 4 = 4 ∧ (after (.plyPslotWrite .owner 2 1 4) s).reply.1 = .formatFault := by decide +kernel

theorem test_verify_run : let s := st (fabric [] [(F.PLY_VRF_LIST_ADDR, 0, 0x1000)])
    let v : Word := BitVec.ofNat 64 (1 + 3 * 2 ^ 13)
    let b := st (fabric [] [(F.PLY_VRF_CTL_BUSY, 0, 1)])
    s.dev.isSet F.PLY_VRF_CTL_BUSY 0 = false ∧ bits v.toNat 13 16 ≠ 0 ∧ (after (.verifyRunStart (.part 0) 0 0 v) s).get F.PLY_VRF_CTL_COUNT 0 = 3 ∧ b.dev.isSet F.PLY_VRF_CTL_BUSY 0 = true ∧
      (after (.verifyRunStart (.part 0) 0 0 v) b).reply.1 = .formatFault ∧ (after (.verifyRunStart (.part 0) 0 0 v) s).ply.vrf.find 0 = some [0x1000, 3, 0, 0, 0, 0] := by decide +kernel

theorem test_verify_run_end : ∀ sig ∈ [0, 1], let d := (fabric [] [(F.PLY_VRF_CTL_BUSY, 0, 1)]).setWord .PLY_PSLOT 0 (BitVec.ofNat 64 (2 ^ 64 - 16))
    let s := st { d with ply := { d.ply with vrf := ⟨[(0, [0, 0, 0, 0, 9, sig])]⟩ } }
    s.dev.ply.vrf.find 0 = some [0, 0, 0, 0, 9, sig] ∧ (after (.verifyRunEnd 0 0) s).sync.arrivals = (if sig = 1 then [.signal 9 1 0 0x810 0xF 0 .none] else []) ∧ s.dev.plyServes 0 0 = true ∧ (Work.vrfEntries 0 0 0 0 0 (List.range 0) ⟨s.mem, [], s.dev, false⟩).2 = (.ok, false) ∧
      (after (.verifyRunEnd 0 0) s).isSet F.PLY_VRF_CTL_DONE 0 = true ∧ (after (.verifyRunEnd 0 0) s).ply.vrf.find 0 = none := by decide +kernel

/-- Two cores of a partition in a phase count two. -/
theorem test_phase_timers : let d := ((dev part0).setCore 3 { run := .run, phase := some 2 }).setCore 4 { run := .run, phase := some 2 }
    d.phaseOf 0 3 = d.phaseOf 0 4 ∧ (d.phaseOf 0 3).isSome = true ∧ d.partOfCore 4 = some 0 ∧ (after .phaseTimerTick (st d)).get F.TWIST_PHNOW_VALUE ((d.phaseOf 0 3).getD 0) = 2 := by decide +kernel

theorem test_phase_timer : let s := st ((dev part0).setCore 3 { run := .run, phase := some 2 })
    s.dev.cores.keys = [3] ∧ s.dev.partOfCore 3 = some 0 ∧ (s.dev.phaseOf 0 3).isSome = true ∧ (after .phaseTimerTick s).now = 1000 ∧ (st (dev [])).dev.cores.keys = [] ∧
      (after .phaseTimerTick s).get F.TWIST_PHNOW_VALUE ((s.dev.phaseOf 0 3).getD 0) = 1 := by decide +kernel

/-- A frame with the CRC-32 of its header and payload. -/
def checked (f : HostFrame) : HostFrame :=
  { f with trailer := BitVec.ofNat 128 (crc32 ([f.w0, f.w1, f.w2, f.w3].flatMap (fun w => leBytes 8 w.toNat) ++ f.payload)) }

theorem test_crc32 : crc32 ([49, 50, 51, 52, 53, 54, 55, 56, 57].map (BitVec.ofNat 8)) = 0xCBF43926 := by decide +kernel

/-- What a frame that leaves frameText: TYPE, NAK, LSEQ, LACK, CRED, TAG, STATUS and OP, and its payload. -/
def frameText (m : Msg) : List Nat × List Nat :=
  let w (i lo n : Nat) : Nat := bits (leNum ((m.body.drop (8 * i)).take 8)) lo n
  ([w 0 8 4, w 0 13 1, w 0 16 12, w 0 28 12, w 0 49 8, w 1 0 16, w 1 16 8, w 1 24 8], (m.body.drop 32).take (16 * w 0 40 9))

/-- A frame of a control port with LSEQ 0 and a credit of 128 frames. -/
def hostFrame (type : Nat) (role op q fn addr id val aux : Nat := 0) (payload : List Byte := []) (len : Nat := payload.length / 16) : HostFrame := checked
  ⟨BitVec.ofNat 64 (0x5B + type * 2 ^ 8 + role * 2 ^ 12 + len * 2 ^ 40 + 128 * 2 ^ 49), BitVec.ofNat 64 (7 + op * 2 ^ 24 + q * 2 ^ 32 + fn * 2 ^ 36),
    BitVec.ofNat 64 (addr + id * 2 ^ 48), BitVec.ofNat 64 (val + aux * 2 ^ 32), payload, 0⟩

/-- A device whose firmware is ready and whose port 0, the owner's and partition 0's, is UP. -/
def host (l : List (Fld × Nat × Nat) := []) (x : ZqlPort := {}) : Dev :=
  (dev (part0 ++ [(F.ZQL_PORT_STAT_STATE, 0, 2), (F.MGMT_BOOT_FW, 0, 5)] ++ l)).setZport 0 x

/-- Port 0 accepts the frame and finds nothing wrong with it. -/
def passes (s : State) (f : HostFrame) : Bool :=
  let r := s.dev.acceptFrame 0 f
  s.dev.released 8 && r.2 && r.1.frameStatus 0 f = .ok

theorem test_port_trains : ∀ low ∈ [false, true], let d := dev part0
    let s := st { d with light := { d.light with railLow := low } }
    let t := st (dev (part0 ++ [(F.ZQL_PORT_STAT_STATE, 0, 1), (F.ZQL_PORT_STAT_ALIGNED, 0, 15)]))
    s.dev.get F.ZQL_PORT_STAT_STATE 0 = 0 ∧ (after (.zqlTrainingStart 0) s).get F.ZQL_PORT_STAT_STATE 0 = flag (!low) ∧ t.dev.get F.ZQL_PORT_STAT_STATE 0 = 1 ∧
      (after (.controlPortPrbsEnd 0) t).out = [⟨.frame, 0, [91, 0, 0, 240, 255, 1, 0, 1, 0, 0, 0, 0, 0, 0, 0, 0, 0, 0, 0, 0, 0, 0, 0, 0, 0, 0, 0, 0, 0, 0, 0, 0, 0, 1, 0, 0, 0, 0, 0, 0, 0, 0, 0, 0, 0, 0, 0, 0, 122, 85, 111, 191, 0, 0, 0, 0, 0, 0, 0, 0, 0, 0, 0, 0]⟩] ∧
      (after (.controlPortPrbsEnd 0) t).zport 0 = { prbs := true } ∧ (after (.controlPortPrbsEnd 0) t).zql.wire.map (fun b => (b.1, b.2.1)) = [(0, 0), (0, 1), (0, 2), (0, 3)] := by decide +kernel

theorem test_train_frames : ∀ n ∈ [0, 2], let d := dev (part0 ++ [(F.ZQL_PORT_STAT_STATE, 0, 1), (F.ZQL_PORT_STAT_ALIGNED, 0, 15)])
    let s := st (d.setZport 0 { prbs := true, trained := n })
    let f := hostFrame 0 (payload := [0, 1])
    s.dev.get F.ZQL_PORT_STAT_ALIGNED 0 = 15 ∧ f.crcOk = true ∧ bits (leNat (f.payload.take 8)) 8 8 = 1 ∧ ((after (.trainFrame 0 f) s).zport 0).trained = (if n = 0 then 1 else 0) ∧
      (after (.trainFrame 0 f) s).portUp 0 = decide (n = 2) ∧ ((after (.trainFrame 0 f) s).zport 0).room = (if n = 2 then 128 else 0) := by decide +kernel

theorem test_port_alignment : let s := st (host [(F.ZQL_PORT_STAT_ALIGNED, 0, 0b1011)])
    s.dev.get F.ZQL_PORT_STAT_STATE 0 = 2 ∧ (after (.blockAlignmentTaken (.port 0 2)) s).get F.ZQL_PORT_STAT_ALIGNED 0 = 15 ∧ (s.dev.get F.ZQL_PORT_STAT_ALIGNED 0).testBit 3 = true ∧
      (after (.blockAlignmentLoss (.port 0 3)) s).get F.ZQL_PORT_STAT_ALIGNED 0 = 3 ∧ (after (.blockAlignmentLoss (.port 0 3)) s).portUp 0 = false := by decide +kernel

/-- Frames 4 and 5 are not acknowledged. -/
def sent45 : ZqlPort := { unacked := [(4, { type := 2 }), (5, { type := 4 })], txNext := 6 }

theorem test_link_frames : ∀ x ∈ [(0, false), (0, true), (2, false)], let s := st (host [] { sent45 with naks := x.1 })
    let f : HostFrame := checked { hostFrame 0 with w0 := BitVec.ofNat 64 (0x5B + flag x.2 * 2 ^ 13 + 4 * 2 ^ 28 + 128 * 2 ^ 49) }
    let bad := { f with trailer := 0 }
    s.dev.portUp 0 = true ∧ f.type = 0 ∧ f.nak = x.2 ∧ f.lack = 4 ∧ f.cred = 128 ∧ ((after (.zqlNak 0 f) s).zport 0).unacked.map (·.1) = [5] ∧
      (after (.zqlNak 0 f) s).out.length = flag x.2 ∧ (after (.zqlNak 0 bad) s).out = [⟨.frame, 0, [91, 32, 0, 240, 255, 0, 0, 1, 0, 0, 0, 0, 0, 0, 0, 0, 0, 0, 0, 0, 0, 0, 0, 0, 0, 0, 0, 0, 0, 0, 0, 0, 88, 66, 6, 161, 0, 0, 0, 0, 0, 0, 0, 0, 0, 0, 0, 0]⟩] ∧ (after (.zqlNak 0 bad) s).portUp 0 = decide (x.1 = 0) := by decide +kernel

theorem test_event_send : ∀ room ∈ [0, 9], let s := st (host [] { held := [{ type := 9, data := [1] }], room })
    s.dev.canSend 0 = decide (room = 9) ∧ (after (.eventSend 0) s).out.map frameText = (if room = 9 then [([9, 0, 0, 4095, 128, 0, 0, 0], 1 :: List.replicate 15 0)] else []) := by decide +kernel

theorem test_host_memory : let s := st (host [] { room := 9 }) { cells := [(0x14000000001, 7)] }
    let f := hostFrame 1 (addr := 0x14000000000) (aux := 16)
    let g := hostFrame 3 (addr := 0x14000000000) (val := 3) (payload := (List.range 16).map (BitVec.ofNat 8))
    passes s f = true ∧ passes s g = true ∧ Region.of f.addr = .bobbin 0 0 ∧ (s.dev.reach (some 0) f.addr 16).1 = .ok ∧ Clean s.mem f.addr 16 ∧ g.val ≤ g.payload.length ∧
      (after (.read 0 f) s).out.map frameText = [([2, 0, 0, 0, 128, 7, 0, 0], [0, 7, 0, 0, 0, 0, 0, 0, 0, 0, 0, 0, 0, 0, 0, 0])] ∧
      (memAfter (.write 0 g) s).cells = [(0x14000000001, 1), (0x14000000002, 2)] ∧ (after (.write 0 g) s).out.map (fun m => (frameText m).1) = [[4, 0, 0, 0, 128, 7, 0, 0]] := by decide +kernel

/-- A margin run holds back frames of the owner for its channel (R176). -/
theorem test_frame_waits : let s := st ((dev [(F.ZQL_PORT_STAT_STATE, 0, 2), (F.MGMT_BOOT_FW, 0, 5), (F.HBM_MRG_CTL_BUSY, 0, 1), (F.HBM_MRG_CTL_CHANNEL, 0, 0)]).setZport 0 { room := 9 })
    let f := hostFrame 1 (role := 1) (addr := 0x40) (aux := 16)
    let g := hostFrame 3 (role := 1) (addr := 0x40) (val := 16) (payload := List.replicate 16 1)
    passes s f = true ∧ passes s g = true ∧ (s.dev.acceptFrame 0 f).1.margined none 0x40 16 = true ∧ (s.dev.acceptFrame 0 g).1.margined none 0x40 16 = true ∧ after (.read 0 f) s = s.dev ∧
      after (.write 0 g) s = s.dev := by decide +kernel

theorem test_host_registers : let s := st (host [] { room := 9 })
    let f := hostFrame 1 (role := 1) (addr := 0x1C000000000) (aux := 8)
    let g := hostFrame 3 (role := 1) (addr := 0x1C000000000) (val := 8) (payload := List.replicate 16 0)
    let t := st (host [(F.MGMT_BOOT_FW, 0, 2)] { room := 9 })
    passes s f = true ∧ passes s g = true ∧ Region.of f.addr = .csr 0 ∧ ((s.dev.acceptFrame 0 f).1.readCsr .owner f.addr 8).1 = .ok ∧
      (t.dev.acceptFrame 0 g).2 = true ∧ (t.dev.acceptFrame 0 g).1.frameStatus 0 g = .writeRefused ∧ (after (.write 0 g) t).out.map (fun m => (frameText m).1) = [[4, 0, 0, 0, 128, 7, 10, 0]] := by decide +kernel

theorem test_doorbells : ∀ v ∈ [3, 16], let s := st (host [(F.ZQL_SQ_EN, 2, 1), (F.ZQL_SQ_LOG2N, 2, 4), (F.ZQL_CQ_EN, 2, 1), (F.ZQL_CQ_LOG2N, 2, 4)] { room := 9 })
    let f := hostFrame 5 (q := 2) (val := v)
    let g := hostFrame 5 (q := 2) (fn := 1) (val := v)
    passes s f = true ∧ passes s g = true ∧ s.dev.frameWho 0 f = .part 0 ∧ s.dev.queueRefusal (.part 0) 0 = .ok ∧ s.dev.bellStatus 0 f (.part 0) = (if v = 3 then .ok else .formatFault) ∧
      s.dev.bellStatus 0 g (.part 0) = (if v = 3 then .ok else .formatFault) ∧ (after (.sqDoorbell 0 f) s).get F.ZQL_QPTR_SQ_TAIL 2 = (if v = 3 then 3 else 0) ∧
      (after (.cqDoorbell 0 g) s).get F.ZQL_QPTR_CQ_HEAD 2 = (if v = 3 then 3 else 0) := by decide +kernel

/-- A wait of port 0 on object 57344. -/
def waits : Waiter := ⟨57344, false, false, 5, none, .port 0 7⟩

theorem test_host_waits : let s := st (host [] { room := 9 })
    let full := st { host [] { room := 9 } with sync := { waiters := List.replicate 1024 waits } }
    let g := hostFrame 6 (id := 57344) (val := 5)
    let w := hostFrame 7 (id := 57344) (val := 5) (aux := 2)
    let b := hostFrame 7 (fn := 2) (id := 61440)
    passes s g = true ∧ passes s w = true ∧ passes s b = true ∧ passes full w = true ∧ 1024 ≤ full.dev.portWaits 0 ∧ s.dev.portWaits 0 < 1024 ∧ w.aux ≠ 0 ∧
      (after (.signal 0 g) s).sync.arrivals = [.signal 57344 5 0 0x828 0xF 0 (.port 0 7)] ∧ (after (.wait 0 w) s).sync.arrivals = [.wait 57344 5 false 0 none (.port 0 7)] ∧
      ((after (.wait 0 w) s).zport 0).timed.find 7 = some 2000 ∧ (after (.wait 0 b) s).sync.arrivals = [.arrive 61440 0 (.port 0 7)] ∧ (after (.wait 0 w) full).out.length = 1 := by decide +kernel

theorem test_host_wait_timeout : let d := host [(F.SYNC_OBJ_LO_WAITERS, 57344, 1)] { room := 9, timed := ⟨[(7, 2000)]⟩ }
    let s := st { d with sync := { waiters := [waits] } }
    (s.dev.zport 0).timed.find 7 = some 2000 ∧ (after (.hostWaitTimeout 0 7) s).sync.waiters = [] ∧ (after (.hostWaitTimeout 0 7) s).now = 2000 ∧
      (after (.hostWaitTimeout 0 7) s).out.map (fun m => (frameText m).1) = [[4, 0, 0, 4095, 128, 7, 8, 0]] := by decide +kernel

/-- Queue 2 of port 0 holds the entry `ws` at HBM address 0. -/
def queued (ws : List Nat) (x : ZqlPort := {}) : State :=
  st (host [(F.ZQL_SQ_EN, 2, 1), (F.ZQL_SQ_LOG2N, 2, 4), (F.ZQL_CQ_EN, 2, 1), (F.ZQL_CQ_LOG2N, 2, 4), (F.ZQL_QPTR_SQ_TAIL, 2, 1)] x)
    { cells := (ws.flatMap (leBytes 8)).zipIdx.map fun y => ⟨y.2, y.1⟩ }

theorem test_queue_entry_ready : ∀ x ∈ ([(9 * 2 ^ 16, true), (4, true), (5, false), (2, false)] : List (Nat × Bool)),
    let s := queued [x.1, if x.1 = 2 then 8 else 0, 0, 0, 0, 0, 0, 0]
    let d := s.dev
    let l := (List.range 8).map fun i => leNat (((s.mem.read 0 64).drop (8 * i)).take 8)
    d.partOfPort 0 = some 0 ∧ d.get F.ZQL_PCTL_STATE 0 ≠ 3 ∧ (d.queueTurn 0).filter (fun q => d.queueReady 0 q) = [2] ∧ (d.reach (some 0) 0 64).1 = .ok ∧ Clean s.mem 0 64 ∧
      (l[0]?).getD 0 = x.1 ∧ d.submissionOk 0 l = x.2 := by decide +kernel

theorem test_queue_entry_start : ∀ x ∈ ([(9 * 2 ^ 16, true), (4, true), (5, false), (2, false)] : List (Nat × Bool)),
    let t := after (.queueEntryStart 0) (queued [x.1, if x.1 = 2 then 8 else 0, 0, 0, 0, 0, 0, 0])
    t.get F.ZQL_QPTR_SQ_HEAD 2 = 1 ∧ (t.zport 0).entries.map (fun e => (e.q, e.idx, e.user)) = [(2, 0, x.1 / 65536)] ∧ (t.zport 0).entries.map (·.done) = [some (if x.2 then .ok else .formatFault, 0)] := by decide +kernel

theorem test_queue_entry_complete : let e : QEntry := { id := 0, q := 2, idx := 5, user := 9, op := 0, done := some (.ok, 3) }
    let s := st (host [(F.ZQL_CQ_EN, 2, 1), (F.ZQL_CQ_LOG2N, 2, 1), (F.ZQL_CQ_PHASE, 2, 1), (F.ZQL_QPTR_CQ_TAIL, 2, 1), (F.ZQL_CQ_BASE, 2, 0x1000)] { entries := [e] })
    let t := after (.queueEntryComplete 0 0) s
    s.dev.partOfPort 0 = some 0 ∧ (s.dev.zport 0).entries = [e] ∧ s.dev.isSet F.ZQL_CQ_EN 2 = true ∧ (s.dev.reach (some 0) 0x1010 16).1 = .ok ∧ (t.zport 0).entries = [] ∧ t.get F.ZQL_QPTR_CQ_TAIL 2 = 0 ∧
      t.get F.ZQL_CQ_PHASE 2 = 0 ∧ (memAfter (.queueEntryComplete 0 0) s).read 0x1010 16 = leBytes 8 (5 + 9 * 2 ^ 16 + 2 ^ 40) ++ leBytes 8 3 := by decide +kernel

/-- A command frame. -/
def command (op : Nat) (role : Nat := 0) (payload : List Byte := []) (val aux : Nat := 0) : HostFrame := hostFrame 10 role op 0 0 0 0 val aux payload

theorem test_reports : ∀ n ∈ [0, 16, 32], let s := st (host [] { room := 9 })
    let f := command 1 (payload := List.replicate n 0)
    let g := command 2 (payload := List.replicate n 0)
    let h := command 0x55 (payload := List.replicate n 0)
    passes s f = true ∧ passes s g = true ∧ passes s h = true ∧ (after (.identity 0 h) s).out.map (fun m => (frameText m).1) = [[11, 0, 0, 0, 128, 7, 13, 0x55]] ∧
      (n = 16 → (after (.identity 0 f) s).out.map (fun m => (frameText m).1) = [[11, 0, 0, 0, 128, 7, 13, 1]] ∧ (after (.attest 0 g) s).out.map (fun m => (frameText m).1) = [[11, 0, 0, 0, 128, 7, 13, 2]]) := by decide +kernel

/-- The body of a firmware image, and a header that fits it. -/
def imageBody : List Byte := List.replicate 16 3

/-- The signer of the image is the public key of 3 and its signature made with k = 11, both computed outside the model. -/
def imageSigner : List Byte := (beBytes 96
  0x77A41D4606FFA1464793C7E5FDC7D98CB9D3910202DCD06BEA4F240D3566DA6B408BBAE5026580D02D7E5C70500C831C995F7CA0B0C42837D0BBE9602A9FC998520B41C85115AA5F7684C0EDC111EACC24ABD6BE4B5D298B65F28600A2F1DF1).map (BitVec.ofNat 8)

def imageSig : List Byte := (beBytes 96
  0x99056E27DA7B998DA1EEEC2904816C57FE935ED5837C37456C9FD14892D3F8C4749B66E3AFB81D626356F3B55B4DDD8AFC6928646FF2C9EC072663EA2DD0045F6D7888322C164D5902D2098ADC90207304F53D2FF25767299324E9004BE05EB).map (BitVec.ofNat 8)

def imageHead : List Byte := leBytes 4 0x5746564B ++ leBytes 2 0x0100 ++ leBytes 2 0 ++ leBytes 4 16 ++ leBytes 4 2 ++ sha384 imageBody ++ imageSigner ++ imageSig

/-- A device that waits for an image, with one staged. -/
def staging (fw : Nat) (x : Firmware) : Dev :=
  let d := host [(F.MGMT_BOOT_FW, 0, fw)] { room := 9 }
  { d with zql := { d.zql with fw := x } }

theorem test_image_staged : ∀ fw ∈ [0, 1, 3], let s := st (staging fw { header := imageHead, body := [1, 2] })
    let f := command 0x10 1 imageHead
    let g := command 0x11 1 imageBody (aux := 2)
    passes s f = true ∧ passes s (command 0x10 1) = true ∧ passes s g = true ∧ passes s (command 0x11 1 imageBody (aux := 4)) = true ∧ imageHead.length = 256 ∧
      (after (.fwBegin 0 f) s).get F.MGMT_BOOT_FW = (if fw = 3 then 3 else 1) ∧ (after (.fwBegin 0 f) s).zql.fw.body.length = (if fw = 3 then 2 else 0) ∧
      (after (.fwBegin 0 (command 0x10 1)) s).out.map (fun m => (frameText m).1) = [[11, 0, 0, 0, 128, 7, if fw = 3 then 10 else 13, 0x10]] ∧ (after (.fwData 0 g) s).zql.fw.body.length = (if fw = 1 then 18 else 2) ∧
      (fw = 1 → (after (.fwData 0 (command 0x11 1 imageBody (aux := 4))) s).out.map (fun m => (frameText m).1) = [[11, 0, 0, 0, 128, 7, 13, 0x11]]) := by decide +kernel

theorem test_image_refused : let s := st (staging 1 { header := imageHead, body := [1, 2] })
    let f := command 0x12 1
    passes s f = true ∧ s.dev.imageReason = 1 ∧ (after (.fwEnd 0 f) s).get F.MGMT_BOOT_FW_REASON = 1 ∧ (after (.fwEnd 0 f) s).get F.MGMT_BOOT_FW = 0 ∧ (after (.fwEnd 0 f) s).evq.map (·.kind) = [.imageRefused] := by
  decide +kernel

/-- A good signature verifies and one over another digest does not (R368). -/
theorem test_signature : verifies384 imageSigner (sha384 (imageHead.take 160)) imageSig = true ∧ verifies384 imageSigner (sha384 [1]) imageSig = false := by decide +kernel

/-- Whether a key hash fits is free; an image with a good signature for which it does has no fault, and FW_END accepts it. -/
theorem test_image_accepted (h : sha384 ((imageHead.drop 64).take 96) = (List.range 48).map Config.fwKeyHash) :
    (staging 1 { header := imageHead, body := imageBody }).imageReason = 0 := by
  have a : ((staging 1 { header := imageHead, body := imageBody }).zql.fw.header, (staging 1 { header := imageHead, body := imageBody }).zql.fw.body) = (imageHead, imageBody) := rfl
  have b : (leNat ((imageHead.drop 0).take 4), leNat ((imageHead.drop 4).take 2), leNat ((imageHead.drop 6).take 2), leNat ((imageHead.drop 8).take 4), leNat ((imageHead.drop 12).take 4),
    imageBody.length) = (0x5746564B, 0x0100, 0, 16, 2, 16) := by decide +kernel
  have c : (imageHead.drop 16).take 48 = sha384 imageBody := by decide +kernel
  have e : (imageHead.drop 64).take 96 = imageSigner ∧ (imageHead.drop 160).take 96 = imageSig := by decide +kernel
  have v := test_signature.1
  have m : (staging 1 { header := imageHead, body := imageBody }).fuses.minSvn = 0 := by decide +kernel
  simp only [Prod.mk.injEq] at a b
  obtain ⟨a1, a2⟩ := a
  obtain ⟨b1, b2, b3, b4, b5, b6⟩ := b
  rw [e.1] at h
  unfold Dev.imageReason
  simp only [a1, a2, b1, b2, b3, b4, b5, b6, c, m, e, h, v]
  simp

theorem test_image_ends : let s := st (staging 1 {})
    passes s (command 0x12 1) = true ∧ s.dev.get F.MGMT_BOOT_FW < 3 ∧ s.dev.isSet F.MGMT_BOOT_ROM_DONE = false := by decide +kernel

theorem test_svn_raise : ∀ n ∈ [0, 64], let d := host [(F.MGMT_BOOT_FW_SVN, 0, 5)] { room := 9 }
    let s := st { d with fuses := { d.fuses with minSvn := n } }
    let f := command 0x13 1
    passes s f = true ∧ (after (.svnRaise 0 f) s).fuses.minSvn = (if n = 0 then 5 else 64) := by decide +kernel

/-- A key message for the slice tag `tag`; its keys are zero, so that it opens under none. -/
def keyMessage (tag : Nat) : List Byte := List.replicate 96 0 ++ leBytes 2 tag ++ List.replicate 62 0

/-- The host of private key 5 sends the bytes 100 to 131 as the key of slice 9 to private key 7, sealed outside the model (R362). -/
theorem test_key_message :
    let m : List Byte := (beBytes 160
      0x11DE24A2C251C777573CAC5EA025E467F208E51DBFF98FC54F6661CBE56583B037882F4A1CA297E60ABCDBC3836D84BC8FA696C77440F92D0F5837E90A00E7C5284B447754D5DEE88C986533B6901AEB3177686D0AE8FB33184414ABE6C1713A09000000000102030405060708090A0BEC35DF1BA9C472981D33D88813DA02F84FE5BD7CF96DB015EC2988A88707FA09857A117A049BAF28371DB7B206210C10).map (BitVec.ofNat 8)
    (openMessage 7 0x30 m).map (·.map BitVec.toNat) = some ((List.range 32).map (100 + ·)) ∧ openMessage 7 0x31 m = none ∧ openMessage 7 0x30 (keyMessage 9) = none := by decide +kernel

/-- A device with agreement keys of partition 0 and of management. -/
def agreed (l : List (Fld × Nat × Nat) := []) : State :=
  let d := host l { room := 9 }
  st { d with zql := { d.zql with agree := ⟨[(0, 3), (4, 1)]⟩ } }

theorem test_key_commands : let s := agreed
    let t := agreed [(F.FAB_PLAN_STAT_ACTIVE, 0, 1)]
    let f := command 0x30 (payload := keyMessage 9)
    passes s f = true ∧ s.dev.partOfPort 0 = some 0 ∧ (keyMessage 9).length = 160 ∧ s.dev.tagOk 0 9 = true ∧ leNat (((keyMessage 9).drop 96).take 2) = 9 ∧
      s.dev.get F.FAB_PLAN_STAT_ACTIVE 0 = 0 ∧ s.dev.get F.FAB_PLAN_STAT_STAGED 0 = 0 ∧ passes t f = true ∧ (after (.keySlice 0 f) t).out.map (fun m => (frameText m).1) = [[11, 0, 0, 0, 128, 7, 10, 0x30]] ∧
      passes s (command 0x30 (payload := keyMessage 0)) = true ∧ leNat (((keyMessage 0).drop 96).take 2) = 0 ∧ passes s (command 0x31 1 (keyMessage 0)) = true ∧ passes s (command 0x31 1 (keyMessage 9)) = true ∧
      passes s (command 0x32) = true ∧ s.dev.fab.skeins = [] ∧ s.dev.fab.flights = [] := by decide +kernel

/-- Partition 1 is defined with core group 1, port 1 and the second 16 GiB of HBM. -/
def part1 : List (Fld × Nat × Nat) := [(F.ZQL_PCTL_PORT, 1, 1), (F.ZQL_PGRP_GROUPS, 1, 2), (F.HBM_PART_BASE, 1, 1), (F.HBM_PART_SIZE, 1, 1)]

theorem test_activate : let s := st (host part1 { room := 9 })
    let f := command 0x20 1 (val := 1)
    passes s f = true ∧ s.dev.activateStatus 1 = .ok ∧ s.dev.activateStatus 0 = .formatFault ∧ rising s.dev.fab.keys.entries = true ∧ passes s (command 0x20 1) = true ∧
      (after (.activate 0 (command 0x20 1)) s).out.map (fun m => (frameText m).1) = [[11, 0, 0, 0, 128, 7, 13, 0x20]] := by decide +kernel

theorem test_reclaim : ∀ x ∈ [(1, 0), (2, 5000000), (3, 0)], let d := host [(F.ZQL_PCTL_STATE, 1, x.1)] { room := 9 }
    let s := st { d with zql := { d.zql with deadline := ⟨[(1, x.2)]⟩ } }
    let f := command 0x21 1 (val := 1) (aux := 4)
    let t := after (.reclaim 0 f) s
    passes s f = true ∧ s.dev.now + 4 * 1000000 = 4000000 ∧ t.get F.ZQL_PCTL_STATE 1 = (if x.1 = 3 then 3 else 2) ∧ t.zql.deadline.find 1 = some (if x.1 = 3 then 0 else 4000000) ∧
      t.get F.ZQL_PCTL_STATE 0 = 1 := by decide +kernel

theorem test_release : let s := st (host [] { room := 9 })
    passes s (command 0x22) = true ∧ s.dev.partOfPort 0 = some 0 ∧ (after (.release 0 (command 0x22)) s).get F.ZQL_PCTL_STATE 0 = 2 := by decide +kernel

/-- Step 1 of R365 and R366: a COMMIT of a partition that is CLEARING does not stand. -/
theorem test_revoked_host : ∀ x ∈ [1, 2, 3], let s := st (host [(F.ZQL_PCTL_STATE, 1, x), (F.PLY_STEP_PENDING, 1, 1)])
    let t := after (.plyCommit (.part 1) 1) s
    (∀ k ≤ 8, s.dev.released k = true) ∧ s.dev.revoked (.part 1) = decide (x = 3) ∧ s.dev.revoked (.part 0) = false ∧ s.dev.revoked .owner = false ∧ s.dev.revoked .mgmt = false ∧
      t.reply.1 = (if x = 3 then .keyRevoked else .ok) ∧ t.get F.PLY_STEP_PENDING 1 = (if x = 3 then 1 else 0) := by decide +kernel

theorem test_reclaim_deadline : ∀ x ∈ [2, 3], let s := st (host [(F.ZQL_PCTL_STATE, 1, x)])
    s.dev.get F.ZQL_PCTL_STATE 1 = x ∧ s.dev.fab.skeins = [] ∧ s.dev.fab.flights = [] ∧ s.dev.sync.waiters = [] ∧ rising s.dev.zql.agree.entries = true ∧ Work.cleared s.dev 1 = true ∧ s.dev.get F.ZQL_PCTL_STATE 2 = 0 := by decide +kernel

theorem test_queue_registers : let s := st (host [])
    let v : Word := BitVec.ofNat 64 (0x1000 + 4 * 2 ^ 48 + 2 ^ 52 + 2 ^ 53)
    let w : Word := BitVec.ofNat 64 (0x1000 + 2 ^ 52)
    let b := st (host [(F.ZQL_SQ_EN, 3, 1)])
    s.dev.queueRefusal (.part 0) 0 = .ok ∧ bits v.toNat 48 4 = 4 ∧ v.toNat.testBit 52 = true ∧ s.dev.queueOk (.part 0) 0x1000 4 64 = true ∧ s.dev.queueOk (.part 0) 0x1000 4 16 = true ∧
      (after (.zqlSqWrite (.part 0) 0 3 v) s).get F.ZQL_SQ_LOG2N 3 = 4 ∧ (after (.zqlCqWrite (.part 0) 0 3 v) s).get F.ZQL_CQ_PHASE 3 = 1 ∧ w.toNat.testBit 52 = true ∧ bits w.toNat 48 4 = 0 ∧
      (after (.zqlCqWrite (.part 0) 0 3 w) s).reply = (.formatFault, []) ∧ (after (.zqlSqWrite (.part 0) 0 3 v) b).reply = (.writeRefused, []) ∧ Dev.partOfReq .owner = none ∧
      (after (.zqlSqWrite .owner 0 3 v) s).reply = (.partitionDenied, []) := by decide +kernel

theorem test_debug_registers : let s := st (host [(F.DBG_MON_CTL_MODE, 0, 1), (F.DBG_UNLOCK_HELD, 0, 1), (F.SYNC_DBG_MODE, 0, 2)])
    (after (.dbgMonCtlWrite .owner 2) s).get F.DBG_MON_CTL_MODE = 2 ∧ (after (.dbgMonCtlWrite .owner 0) s).reply = (.partitionDenied, []) ∧ (after (.dbgMonCtlWrite .mgmt 2) s).reply = (.partitionDenied, []) ∧
      (after (.dbgUnlockWrite (.part 1) 1 1) s).isSet F.DBG_UNLOCK_HELD 1 = true ∧ (after (.dbgUnlockWrite (.part 0) 0 0) s).get F.SYNC_DBG_MODE 0 = 1 ∧ (after (.dbgUnlockWrite .mgmt 0 0) s).reply = (.partitionDenied, []) := by
  decide +kernel

/-- A device with boot state `b` and nothing else but `l`; base control is released. -/
def booting (b : Boot) (l : List (Fld × Nat × Nat) := []) : State :=
  st { (F.RST_STAT_DOMAINS, 0, 1) :: l |>.foldl (fun (d : Dev) (x : Fld × Nat × Nat) => d.put x.1 x.2.1 x.2.2) {} with boot := b }

theorem test_reset_sources : let s := booting { pinLow := false }
    let r := st (after .refclkLoss s)
    (after .pkgReset s).boot = { resetting := true, pinLow := true } ∧ r.dev.boot = { resetting := true, baseHeld := true, cause := 2 } ∧ r.dev.regs = ⟨[]⟩ ∧
      (after (.detectorTrip 0) r).boot.cause = 2 := by decide +kernel

theorem test_reset_ends : ∀ held ∈ [false, true], let b : Boot := { resetting := true, pinLow := true, baseHeld := held, cause := 1 }
    let s := booting b
    let t := booting { b with pinLow := false, baseHeld := true }
    s.dev.boot.cause < 4 ∧ (after .pkgResetRelease s).boot.resetting = held ∧ (after .pkgResetRelease s).get F.RST_STAT_CAUSE = (if held then 0 else 1) ∧ (after (.detectorRelease 0) t).boot.resetting = false := by
  decide +kernel

theorem test_die_detector : let s := booting {} [(F.LBI_DIE_STAT_ALIVE, 1, 1)]
    s.dev.isSet F.LBI_DIE_STAT_ALIVE 1 = true ∧ (after (.detectorRelease 2) (booting { dieHeld := [0, 1] })).boot.dieHeld = [0] := by decide +kernel

theorem test_base_release : ∀ x ∈ [(0x3ABCD, true), (0x8ABCD, true), (0x0ABCD, false)], let s := st {}
    let t := after (.domainRelease (BitVec.ofNat 20 x.1) x.2) s
    t.released 1 = true ∧ t.fabId = 0xABCD ∧ t.ownerPort = x.1 / 65536 % 4 ∧ t.isSet F.MGMT_BOOT_HALTED = decide (x.1 ≠ 0x3ABCD) ∧ t.get F.MGMT_BOOT_HALT_REASON = (if x.1 = 0x3ABCD then 0 else if x.2 then 2 else 1) := by
  decide +kernel

theorem test_domain_release : ∀ k ∈ [1, 2, 3, 4, 5, 6, 7, 8], let s := booting { domain := k } [(F.LBI_DIE_STAT_ALIVE, 0, 1)]
    let t := after (.domainRelease 0 true) s
    s.dev.boot.resetting = false ∧ s.dev.isSet F.LBI_DIE_STAT_ALIVE 0 = true ∧ s.dev.isSet F.LBI_DIE_STAT_ALIVE 1 = false ∧ t.released (k + 1) = decide (k ≠ 5 ∧ k ≠ 8) ∧
      t.now = ([20000, 10000, 10000, 50000, 25000, 10000, 10000, 0][k - 1]?).getD 0 ∧ t.isSet F.RST_STAT_SEQ_DONE = decide (k = 7) := by decide +kernel

theorem test_boot_rom : let s := booting { domain := 8 } [(F.RST_STAT_SEQ_DONE, 0, 1), (F.HBM_STAT_READY, 0, 1), (F.RST_VREQ_ACK, 0, 0x64), (F.RST_VREQ_ACK, 1, 0x64)]
    let fw (n : Nat) : Nat := (after (.bootRomDone [] []) (st (s.dev.put F.MGMT_BOOT_FW 0 n))).get F.MGMT_BOOT_FW
    fw 3 = 4 ∧ fw 2 = 2 ∧ s.dev.romEnded = true ∧ s.dev.isSet F.MGMT_BOOT_HALTED = false ∧ s.dev.isSet F.MGMT_BOOT_ROM_DONE = false ∧ (booting {}).dev.romEnded = false := by decide +kernel

theorem test_die_rises : ∀ x ∈ [(3, 1, false), (4, 3, false), (5, 31, true)], let s := booting { domain := x.1 } [(F.RST_STAT_DOMAINS, 0, x.2.1), (F.MGMT_BOOT_HALTED, 0, 1)]
    let t := after (.dieAliveRise 0 []) s
    s.dev.released 2 = decide (x.1 ≠ 3) ∧ s.dev.isSet F.LBI_DIE_STAT_LOST 0 = false ∧ t.boot.alive = [0] ∧ t.isSet F.LBI_DIE_STAT_ALIVE 0 = decide (x.1 ≠ 3) ∧ t.released 5 = x.2.2 ∧
      t.now = (if x.2.2 then 50000 else 0) ∧ t.boot.rejoin = (if x.2.2 then [0] else []) ∧ after (.dieAliveRise 0 []) (st t) = t := by
  decide +kernel

theorem test_die_may_join : let a : BondPort := { agreed := some ⟨0x10, 0x10, 0x3F, 512⟩ }
    let s := booting { rejoin := [0], domain := 9 } [(F.RST_STAT_DOMAINS, 0, 255), (F.LBI_DIE_STAT_ALIVE, 0, 1), (F.LBI_DIE_STAT_PORTS_ACTIVE, 0, 64), (F.RST_VREQ_ACK, 0, 0x64)]
    let d := { s.dev with ports := ⟨(List.range 64).map fun i => (i, a)⟩ }
    d.released 2 = true ∧ d.partsOnDie 0 = [] ∧ d.mayOpen 0 = true ∧ s.dev.mayOpen 0 = false ∧ d.rejoinRuns = true ∧ d.railMoved 0 = true := by decide +kernel

theorem test_rail_request : let s := booting { domain := 9 } [(F.RST_VREQ_ACK, 0, 60), (F.RST_VREQ_ACK, 1, 60)]
    let t := after (.railRequest 0 1 64) s
    s.dev.railBusy = none ∧ s.dev.get F.RST_VREQ_ACK 0 = 60 ∧ s.dev.boot.setAt.find 0 = none ∧ t.get F.RST_VREQ_REQ 0 = 64 ∧ t.get F.RST_VREQ_ACK 0 = 60 ∧
      t.out = [⟨.railBus, 0, [0x4010 + crc8 [0x10, 0x40, 0] * 2 ^ 24]⟩] ∧ (after (.railRequest 0 1 65) s).out = [] ∧ (after (.railRequest 1 3 65) s).out.map (·.body.map (· % 2 ^ 24)) = [[0x31]] := by decide +kernel

theorem test_rail_response : ∀ n ∈ [0, 2], let s := booting { domain := 9, rails := ⟨[(0, (1, 64))]⟩, tries := ⟨[(0, n)]⟩ }
    let x : BitVec 32 := BitVec.ofNat 32 (0x4010 + crc8 [0x10, 0x40, 0] * 2 ^ 24)
    s.dev.railBusy = some 0 ∧ s.dev.boot.rails.find 0 = some (1, 64) ∧ bits x.toNat 0 4 = 0 ∧ bits x.toNat 4 4 = 1 ∧ bits x.toNat 24 8 = crc8 (leBytes 3 x.toNat) ∧ rising s.dev.boot.rails.entries = true ∧
      (after (.railResponse (some x)) s).get F.RST_VREQ_ACK 0 = 64 ∧ (after (.railResponse (some x)) s).railBusy = none ∧ (after (.railResponse none) s).out.length = (if n = 0 then 1 else 0) ∧
      (after (.railResponse none) s).isSet F.RST_VREQ_FAIL 0 = decide (n = 2) := by decide +kernel

theorem test_rail_current : let s := booting { domain := 9, rails := ⟨[(0, (3, 0))]⟩ }
    let x : BitVec 32 := BitVec.ofNat 32 (0x123430 + crc8 [0x30, 0x34, 0x12] * 2 ^ 24)
    s.dev.railBusy = some 0 ∧ (after (.railResponse (some x)) s).get F.RST_VREQ_CURRENT 0 = 0x1234 ∧ bits x.toNat 24 8 = crc8 (leBytes 3 x.toNat) := by decide +kernel

theorem test_rail_retry : let s := booting { domain := 9, rails := ⟨[(1, (1, 64))]⟩, failed := [1] }
    s.dev.railBusy = none ∧ s.dev.boot.rails.find 1 = some (1, 64) ∧ (after (.railRetryTimer 1) s).boot.failed = [] ∧ (after (.railRetryTimer 1) s).out.length = 1 ∧
      (after .railAlert s).boot.alert = [0, 1] ∧ (after .railAlert s).out = [⟨.railBus, 0, [0x40 + crc8 [0x40, 0, 0] * 2 ^ 24]⟩] := by decide +kernel

theorem test_rail_alert : ∀ die : Fin 2, let s := booting { domain := 9, alert := if die = 0 then [0, 1] else [1], rails := ⟨[(die, (4, 0))]⟩ }
    let x : BitVec 32 := BitVec.ofNat 32 (0x440 + die + crc8 [0x40 + die, 4, 0] * 2 ^ 24)
    let t := after (.railResponse (some x)) s
    s.dev.railBusy = some die.val ∧ t.isSet F.RST_VREQ_ALERT die = true ∧ t.boot.alert = (if die = 0 then [1] else []) ∧ t.out.length = 1 - die ∧ t.evq.map (·.detail) = [0x400 + die.val] := by
  decide +kernel

theorem test_rail_status : ∀ die : Fin 2, let l := if die = 0 then [0, 1] else [1]
    let s := booting { domain := 9, alert := l, reading := some die, failed := [0], rails := ⟨[(0, (1, 64))]⟩ }
    let x : BitVec 32 := BitVec.ofNat 32 (0x240 + die + crc8 [0x40 + die, 2, 0] * 2 ^ 24)
    let t := after (.railResponse (some x)) s
    let u := booting { domain := 9, alert := [die.val], reading := some die, tries := ⟨[(die, 2)]⟩ }
    s.dev.boot.reading = some die.val ∧ (s.dev.boot.rails.find 0 = some (1, 64) ∧ 0 ∈ s.dev.boot.failed ∧ s.dev.boot.rails.find 1 = none) ∧ bits x.toNat 24 8 = crc8 (leBytes 3 x.toNat) ∧
      t.isSet F.RST_VREQ_ALERT die = true ∧ t.boot.reading = (if die = 0 then some 1 else none) ∧ t.boot.failed = [0] ∧ t.out.length = 1 - die ∧ (after (.railResponse none) s).out.length = 1 ∧
      (after (.railResponse none) u).boot.unread = [die.val] ∧ (after (.railResponse none) u).isSet F.RST_VREQ_FAIL die = true ∧
      (after (.railRetryTimer die) (booting { domain := 9, alert := [die.val], unread := [die.val] })).boot.reading = some die.val := by decide +kernel

theorem test_optical_rail : let s := booting { domain := 9 } [(F.ZQL_PORT_STAT_STATE, 2, 2), (F.RST_RAIL_STAT_RAILS, 0, 255)]
    let t := booting { domain := 9, lowRails := [1, 2] }
    1 ∉ s.dev.boot.lowRails ∧ (after (.opticalRailLow 1) s).portUp 2 = false ∧ (after (.opticalRailLow 1) s).get F.RST_RAIL_STAT_RAILS = 0xBF ∧ 1 ∈ t.dev.boot.lowRails ∧ (after (.opticalRailReturn 1) t).light.railLow = true ∧
      (after (.opticalRailReturn 1) t).boot.lowRails = [2] := by decide +kernel

/-! ### Events and FREEZE -/

/-- An event of the whole part at 5 ns. -/
def event (k : EvKind) (unit : Nat) : Event := ⟨k, 7, unit, .ok, 0x99, 5, 0⟩

theorem test_event_queue : let d := (booting {}).dev
    let full := { d with evq := List.replicate 256 (event .partReady 0x800) }
    d.evq.length < 256 ∧ 256 ≤ full.evq.length ∧ full.get F.EVT_DROP_VALUE < 2 ^ 48 - 1 ∧ (full.raise .partReady 7 0x800 0).get F.EVT_DROP_VALUE = 1 ∧ (d.raise .partReady 7 0x800 3).evq.map (·.detail) = [3] := by decide +kernel

theorem test_log_order : Dev.nextEvent [event .partReady 0x800, event .dieLost 0x800, event .bondPortFailing 3, { event .spareExhausted 0 with time := 6 }] = some (event .bondPortFailing 3) := by decide +kernel

theorem test_event_log : let d := host [] { room := 9 }
    let s := st { d with evq := [event .partReady 0x800] }
    s.dev.released 1 = true ∧ (event .partReady 0x800).part = 7 ∧ s.dev.canSend s.dev.ownerPort = true ∧ (s.dev.zport s.dev.ownerPort).held = [] ∧ s.dev.get F.EVT_LOG_HEAD_VALUE = 0 ∧
      s.dev.isSet F.EVT_FRZ_CFG_EN_MATCH = false ∧ (after .eventLogWrite s).word .EVT_LOG 1 = 5 ∧ (after .eventLogWrite s).word .EVT_LOG 3 = 0x99 ∧ (after .eventLogWrite s).get F.EVT_LOG_HEAD_VALUE = 1 ∧
      (after .eventLogWrite s).out.map (fun m => ((frameText m).1.headD 0, (frameText m).2.length)) = [(9, 32)] := by decide +kernel

/-- An event of partition 0 goes to the owner port and to port 1 of the partition; of the two events of 7 ns the one of the lower class, code and unit is logged first (R400, R404). -/
theorem test_event_of_a_partition : let a := { event .partReady 0x800 with part := 0 }
    let d := { (host [(F.ZQL_PCTL_PORT, 0, 1), (F.ZQL_PORT_STAT_STATE, 1, 2)] { room := 9 }).setZport 1 { room := 9 } with evq := [a, { event .partReady 0x801 with time := 7 }, { event .dieLost 0x800 with time := 7 }] }
    let t := after .eventLogWrite (st d)
    d.ownerPort = 0 ∧ d.get F.ZQL_PCTL_PORT 0 = 1 ∧ d.canSend 0 = true ∧ d.canSend 1 = true ∧ (d.zport 1).held = [] ∧ Dev.nextEvent d.evq = some a ∧ t.evq.length = 2 ∧ t.out.map (·.dst) = [0, 1] ∧
      Dev.nextEvent t.evq = some { event .dieLost 0x800 with time := 7 } := by decide +kernel

/-- An event that matches while FREEZE is ARMED captures (R411). -/
theorem test_event_match : let d := { host [(F.EVT_FRZ_CFG_EN_MATCH, 0, 1), (F.EVT_FRZ_CTL_STATE, 0, 1)] { room := 9 } with evq := [event .partReady 0x800], now := 50 }
    let t := after .eventLogWrite (st d)
    (d.isSet F.EVT_FRZ_CFG_EN_MATCH && d.eventMatch (event .partReady 0x800)) = true ∧ t.get F.EVT_FRZ_CTL_STATE = 2 ∧ t.get F.EVT_FRZ_CTL_SOURCE = 1 ∧ t.word .EVT_FRZ_TIME 0 = 50 := by decide +kernel

theorem test_freeze : ∀ state ∈ [0, 1, 2], let d := (booting {} [(F.EVT_FRZ_CTL_STATE, 0, state), (F.EVT_FRZ_CFG_EN_CMD, 0, 1), (F.EVT_FRZ_CFG_EN_PIN, 0, 1)]).dev
    let s := st { d with now := 50 }
    let t := after (.freezeNow .owner) s
    Dev.whole .owner = true ∧ (after (.freezeArm .owner) s).get F.EVT_FRZ_CTL_STATE = 1 ∧ s.dev.get F.EVT_FRZ_CTL_STATE = state ∧ t.get F.EVT_FRZ_CTL_STATE = (if state = 0 then 0 else 2) ∧
      (state = 1 → t.word .EVT_FRZ_TIME 0 = 50 ∧ t.get F.EVT_FRZ_CTL_SOURCE = 4 ∧ (after .freezePin s).word .EVT_FRZ_TIME 0 = 40) ∧ (state = 2 → s.dev.word .EVT_FRZ_TIME 0 ≠ 50 ∧ t.get F.EVT_FRZ_MISSED_VALUE = 1) ∧
      (state = 0 → t.reply = (.formatFault, [])) ∧ Dev.whole (.part 0) = false ∧ (after (.freezeArm (.part 0)) s).reply = (.partitionDenied, []) := by decide +kernel

theorem test_freeze_same_nanosecond : let d := ((booting {} [(F.EVT_FRZ_CTL_STATE, 0, 2), (F.EVT_FRZ_CTL_SOURCE, 0, 2), (F.EVT_FRZ_CFG_EN_CMD, 0, 1)]).dev.setWord .EVT_FRZ_TIME 0 50)
    let t := after (.freezeNow .owner) (st { d with now := 50 })
    d.get F.EVT_FRZ_CTL_STATE = 2 ∧ d.get F.EVT_FRZ_CTL_SOURCE = 2 ∧ t.get F.EVT_FRZ_CTL_SOURCE = 6 ∧ t.get F.EVT_FRZ_MISSED_VALUE = 0 ∧ t.reply = (.ok, []) := by decide +kernel

theorem test_freeze_drive : let d := { (booting {} [(F.EVT_FRZ_CFG_EN_PIN, 0, 1), (F.EVT_FRZ_CTL_STATE, 0, 1)]).dev with frzDrive := true }
    (after .freezePin (st d)).get F.EVT_FRZ_CTL_STATE = 1 ∧ (after .freezeDriveEnd (st d)).out = [⟨.pin, 0, [1]⟩] ∧ (after .freezeDriveEnd (st d)).frzDrive = false := by decide +kernel

/-- Core 3 of CD1 fails its test: its spare is physical core 512, which a second record of the die does not use again (R75). -/
theorem test_repair_core : let d := ((booting {}).dev.repairCore 515).repairCore 516
    (d.loadMap 515).get F.MTX_MAP_PHYS 515 = 512 ∧ (d.loadMap 515).isSet F.MTX_MAP_SPARE 515 = true ∧ (d.loadMap 516).get F.MTX_MAP_PHYS 516 = 513 ∧
      (d.loadMap 517).get F.MTX_MAP_PHYS 517 = 5 ∧ (d.loadMap 517).isSet F.MTX_MAP_REPAIRED 517 = false ∧ (d.loadMap 3).get F.MTX_MAP_PHYS 3 = 3 := by decide +kernel

/-! ### The monitor and the test access port -/

/-- A device whose monitor is in a mode. -/
def mon (mode : Nat) (l : List (Fld × Nat × Nat) := []) : State := st (dev ([(F.DBG_MON_CTL_MODE, 0, mode)] ++ l))

/-- A line of a kind with its characters. -/
def text (k : Nat) (s : String) : Nat × List Nat := (k, s.toList.map Char.toNat)

/-- The lines that a monitor command prints. -/
def lines (i : Instr) (s : State) : List (Nat × List Nat) := (after i s).out.map fun x => (x.dst, x.body)

/-- The words after a command's name. -/
def args (l : List String) : List Text := l.map String.toList

theorem test_monitor_modes : ∀ mode ∈ [0, 1, 2], let s := mon mode
    let busy := mon mode [(F.DBG_MON_CTL_BUSY, 0, 1)]
    s.dev.monBusy = false ∧ busy.dev.monBusy = true ∧ lines .hp busy = [] ∧ (after .hp busy).mon.rx = [.of .hp []] ∧ (lines .hp s).length = 13 ∧ lines (.ev (args ["0"])) s = [text 0 (if mode = 2 then "er 0x05 PARTITION_DENIED\n> " else "er 0x0D FORMAT_FAULT\n> ")] ∧
      lines (.fz (args ["arm"])) s = [text 0 (if mode = 0 then "ok\n> " else "er 0x05 PARTITION_DENIED\n> ")] := by decide +kernel

theorem test_monitor_arguments : ∀ i ∈ [Instr.pk "4".toList [], .pk "0x8".toList (args ["0"]), .pk "8".toList (args ["257"]), .pk "8".toList (args ["1", "1"]), .pk "0y8".toList [], .po "4".toList (args ["0"]), .po "8".toList [], .ev (args ["0"]),
      .ev (args ["4097"]), .sn (args ["32"]), .sn [], .fz (args ["off"]), .ln "8".toList [], .so "0".toList (args ["0"]), .so "65535".toList (args ["2"]), .sr "65536".toList (args ["0"]), .sr "0".toList (args ["4294967296"]),
      .tt (args ["0"]), .tt (args ["257"]), .bd (args ["9600"]), .mg "l".toList (args ["8", "0", "0", "0"]), .mg "h".toList (args ["0", "2", "0", "0"]), .mg "b".toList (args ["128", "0", "0", "0"]), .mg "x".toList (args ["0", "0", "0", "0"])],
    lines i (mon 0) = [text 0 "er 0x0D FORMAT_FAULT\n> "] := by decide +kernel

theorem test_monitor_words : let s := mon 0 [(F.MGMT_BOOT_FW, 0, 3)]
    textNums (args ["0x1C0_0000_0000"]) = some [0x1C000000000] ∧ 0x1C000000000 + 8 * 1 ≤ 2 ^ 48 ∧ (∀ i < 1, Region.of (0x1C000000000 + 8 * i) = .csr 0 ∧ (s.dev.readCsr .mgmt (0x1C000000000 + 8 * i) 8).1 = .ok) ∧
      lines (.pk "0x1c0_0000_0000".toList []) s = [text 1 "0x01C0_0000_0000 0x0000_0000_0000_00C0\n", text 0 "ok\n> "] ∧ (lines (.po "0x1C000000000".toList (args ["0"])) s).map (·.1) = [0] := by decide +kernel

theorem test_monitor_log : let z := "0x0000_0000_0000_0000"
    let s := mon 0 [(F.EVT_LOG_HEAD_VALUE, 0, 3)]
    2 ≤ s.dev.get F.EVT_LOG_HEAD_VALUE ∧ lines (.ev (args ["2"])) s = [text 3 ("1 " ++ z ++ " " ++ z ++ " " ++ z ++ " " ++ z ++ "\n"), text 3 ("2 " ++ z ++ " " ++ z ++ " " ++ z ++ " " ++ z ++ "\n"), text 0 "ok\n> "] ∧ (lines (.ln "0".toList (args ["5"])) s).map (·.1) = [6, 0] := by decide +kernel

theorem test_monitor_objects : let z := " v=0x0000_0000 w=0x0000 s=0x0 lp=0x0000 ls=0x000 c=0x0 t=0x0000_0000\n"
    let s := mon 0 part0
    (∀ i < 2, s.dev.mayReachObj .mgmt (65534 + i) 1 = true) ∧ s.dev.mayReachObj .mgmt 5 1 = false ∧ lines (.so "65534".toList (args ["2"])) s = [text 7 ("65534" ++ z), text 7 ("65535" ++ z), text 0 "ok\n> "] ∧
      lines (.so "5".toList []) s = [text 0 "er 0x05 PARTITION_DENIED\n> "] ∧ lines (.sr "5".toList (args ["9"])) s = [text 0 "er 0x05 PARTITION_DENIED\n> "] := by decide +kernel

theorem test_monitor_runs : ∀ align ∈ [0, 2], let s := mon 0 [(F.TWIST_ALIGN_STATE, 0, align)]
    s.dev.align = align ∧ lines (.tt (args ["3"])) s = (if align = 0 then [text 0 "er 0x0F NOT_LOCKED\n> "] else []) ∧ (after (.tt (args ["3"])) s).monBusy = decide (align = 2) := by decide +kernel

theorem test_monitor_margin : let ready : Dev := { (mon 0).dev with mon := { (mon 0).dev.mon with switched := false } }
    let s := mon 0 [(F.HBM_MRG_CTL_BUSY, 0, 1)]
    (mon 0).dev.isSet F.HBM_MRG_CTL_BUSY = false ∧ (ready.writeHbmMrg .mgmt (Nat.lor 65536 1024)).reply.1 = .ok ∧ s.dev.isSet F.HBM_MRG_CTL_BUSY = true ∧ lines (.mg "h".toList (args ["0", "0", "0", "1"])) s = [text 0 "er 0x0D FORMAT_FAULT\n> "] ∧
      (after (.mg "h".toList (args ["0", "0", "0", "1"])) (mon 0)).mon.margin = some .hbm := by decide +kernel

theorem test_monitor_line : let s := mon 0 [(F.DBG_MON_CTL_BAUD, 0, 3), (F.DBG_MON_CTL_BUSY, 0, 1)]
    let t := { s with dev := { s.dev with mon := { switched := true } } }
    (after (.monitorBreak .break_) s).monBusy = false ∧ s.dev.get F.DBG_MON_ERR_VALUE + 7 < 2 ^ 48 ∧ (after (.monitorBreak (.framing 7 9)) (mon 0)).get F.DBG_MON_ERR_VALUE = 7 ∧ t.dev.mon.switched = true ∧
      (after .baudRevert t).get F.DBG_MON_CTL_BAUD = 0 ∧ s.dev.mon.switched = false ∧ (after .baudRevert s).get F.DBG_MON_CTL_BAUD = 3 ∧ (after (.bd (args ["230400"])) (mon 0)).get F.DBG_MON_CTL_BAUD = 1 := by decide +kernel

/-- Lines that come while a command runs wait in the buffer, one that does not fit loses its end, and a break lets them run (R416). -/
theorem test_monitor_buffer : let busy := mon 0 [(F.DBG_MON_CTL_BUSY, 0, 1)]
    let long := List.replicate 129 'a'
    let after2 := after (.monitorBreak (.other long)) (st (after .hp busy))
    let full := after (.monitorBreak (.other (List.replicate 128 'a'))) (st after2)
    (RxLine.of .pk ["8".toList]).bytes = 5 ∧ after2.mon.rx.map (·.whole) = [true, false] ∧ after2.mon.rx.map (·.bytes) = [3, 130] ∧ full.mon.rx.map (·.bytes) = [3, 130, 123] ∧ full.mon.rx.map (·.whole) = [true, false, false] ∧
      (lines (.monitorBreak .break_) (st (after .hp busy))).length = 14 ∧ (after (.monitorBreak .break_) (st after2)).mon.rx = [] ∧ lines (.monitorBreak (.other long)) (mon 0) = [text 0 "er 0x0D FORMAT_FAULT\n> "] ∧
      lines (.monitorBreak (.other "zz".toList)) (mon 2) = [text 0 "er 0x0D FORMAT_FAULT\n> "] := by decide +kernel

theorem test_tap : ∀ low ∈ [false, true], let s := booting { pinLow := low }
    let t := after (.extest 5 9) s
    s.dev.boot.pinLow = low ∧ (after .idcode s).out.map (·.body) = [[1], [0x051214B7]] ∧ t.out.map (·.dst) = (if low then [0, 33, 1] else [0, 1]) ∧ t.tap.boundary = (if low then 9 else 0) ∧ (after .pkgResetRelease (st t)).out.length = t.out.length + (if low then 1 else 0) ∧
      (after (.samplePreload 5 9) s).tap.boundary = 9 := by decide +kernel

/-! ### The block as a whole -/

/-- The state after a step. -/
def stepped (s : State) : State :=
  match step s with
  | .next t => t
  | _ => s

theorem test_step : let s := st (dev [])
    let t := { s with pending := [.idcode, .hp] }
    (stepped t).pending = [.hp] ∧ (stepped t).dev.out = (after .idcode s).out ∧ s.dev.released 1 = true ∧ (stepped s).dev.now = 1 ∧ State.reset.dev.released 1 = false ∧ (stepped State.reset).dev.now = 0 := by
  decide +kernel

theorem reset_inv : State.reset.Inv := (by decide +kernel : State.reset.mem.wf = true)

theorem test_held_domains : State.reset.dev.get F.RST_STAT_DOMAINS = 0 := by decide +kernel

theorem test_under_core_hole : let s := st (dev [])
    (Work.load ⟨s.mem, [], s.dev, false⟩ none 0 (0x10000000000 + 0x200000 * 3 + 0x180000) 8).2 = (.formatFault, 0x10000780000, []) ∧ Region.of 0x10000600008 = .under 3 8 ∧ Region.of 0x14000080008 = .bobbin 1 8 := by decide +kernel

theorem test_hbm_reach : let d := dev part0
    0x3FFFFFFFF < hbmTop ∧ d.partOfHbm 0x3FFFFFFFF = some 0 ∧ d.partOfHbm 0x400000000 = none ∧ d.isSet F.HBM_PART_VALID 0 = true ∧ d.reachAt (some 1) 0 = .partitionDenied ∧ d.reachAt (some 0) 0 = .ok := by decide +kernel

theorem test_memory : let m : Mem := { cells := [(0x14000000001, 9), (0x14000000010, 8)], bad := [0x5000000000], soft := [0x5000000004] }
    m.wf = true ∧ hbmTop ≤ 0x14000000000 ∧ (m.apply (.bytes 0x14000000000 [0, 0, 3, 4])).cells = [(0x14000000002, 3), (0x14000000003, 4), (0x14000000010, 8)] ∧
      (m.apply (.bytes 0x14000000000 [0, 0, 3, 4])).bad = [] ∧ (m.apply (.zero 0x14000000000 0x10)).cells = [(0x14000000010, 8)] ∧ (m.apply (.poison 0x5000000004)).bad = [0x5000000000, 0x5000000004] ∧
      (m.apply (.heal 0x5000000004)).soft = [] := by decide +kernel

theorem test_register_addresses : Reg.find 0x1C002000020 = some (.EVT_FRZ_MATCH, false, 0) ∧ Reg.find 0x1C002800020 = some (.EVT_FRZ_MATCH, true, 0) ∧ Reg.find 0x1C01B000100 = some (.ZQL_SQ, false, 0) ∧
    Reg.find 0x1C002000040 = none ∧ Reg.find 0x14000000000 = none ∧ Reg.EVT_FRZ_MATCH.domain = 1 ∧ Reg.ZQL_SQ.domain = 8 ∧ Reg.EVT_FRZ_MATCH.hasWrite = false := by decide +kernel

theorem test_register_write : let s := st (dev [(F.EVT_DROP_VALUE, 0, 9)])
    let w (q : Requester) (a : Fin 4398046511104) (n : Fin 65) (v : Word) : Dev := after (.registerWrite q a n v) s
    (w .mgmt 0x1C002000020 8 (BitVec.ofNat 64 (2 ^ 64 - 1))).get F.EVT_FRZ_MATCH_CLASS = 255 ∧ (w .mgmt 0x1C002000020 4 5).reply = (.formatFault, []) ∧ (w .mgmt 0x1C002000040 8 5).reply = (.formatFault, []) ∧
      (w (.part 0) 0x1C002000020 8 5).reply = (.partitionDenied, []) ∧ (w .owner 0x1C002800020 8 5).reply = (.ok, []) ∧ (w .owner 0x1C002000008 8 5).get F.EVT_DROP_VALUE = 0 ∧
      (booting {}).dev.released 1 = true ∧ (booting {}).dev.released Reg.ZQL_SQ.domain = false ∧ (after (.registerWrite .mgmt 0x1C01B000100 8 5) (booting {})).reply = (booting {}).dev.reply := by decide +kernel

/-- A write of a snapshot answers OK to who may write its register, a register with an operation of its own is that row, a shadow takes the value and waits for its commit (R8, R9, R409). -/
theorem test_register_rows : let s := st (dev part0)
    let at_ (r : Reg) (i : Nat) (snap : Bool) : Fin 4398046511104 := Fin.ofNat _ (r.addr i + if snap then 0x800000 else 0)
    let w (q : Requester) (r : Reg) (i : Nat) (snap : Bool) (v : Word) : Dev := after (.registerWrite q (at_ r i snap) 8 v) s
    Reg.find (at_ .PLY_STEP 0 true) = some (.PLY_STEP, true, 0) ∧ (w (.part 0) .PLY_STEP 0 true 5).reply = (.ok, []) ∧ (w .owner .PLY_STEP 0 true 5).reply = (.partitionDenied, []) ∧
      (w (.part 0) .CORE_CTL 3 true 5).reply = (.ok, []) ∧ (w (.part 1) .CORE_CTL 3 true 5).reply = (.partitionDenied, []) ∧ (w (.part 0) .ZQL_SQ 2 true 5).reply = (.ok, []) ∧
      Reg.find (at_ .FAB_TRN 3 false) = some (.FAB_TRN, false, 3) ∧ w .mgmt .FAB_TRN 3 false (2 ^ 17) = after (.fabTrnWrite .mgmt 3 (2 ^ 17)) s ∧
      (w .mgmt .CREEL_BIAS_HBM 3 false 77).get F.CREEL_BIAS_HBM_BIAS 3 = 77 ∧ (w .mgmt .CREEL_BIAS_HBM 3 false 77).hbm.bias.get 0 3 = 0 := by decide +kernel

theorem test_plain_write : let d := dev []
    d.mayWritePlain .mgmt .EVT_FRZ_MATCH 0 = true ∧ d.mayWritePlain (.part 0) .EVT_FRZ_MATCH 0 = false ∧ (Reg.EVT_FRZ_MATCH.ofCore && d.dieClosed 0) = false ∧ d.plainStatus .EVT_FRZ_MATCH 0 5 = .ok ∧
      Reg.EVT_FRZ_MATCH.isCounter = false ∧ Reg.EVT_FRZ_MATCH.fields ≠ [] ∧ Reg.EVT_DROP.isCounter = true ∧ d.mayWritePlain .mgmt .EVT_DROP 0 = true := by decide +kernel

/-- The examples of FIPS 197 (C.3), of the GCM specification (test case 14) and of IEEE 1619 (vector 10, its first two blocks). -/
theorem test_ciphers : blockBytes (aesBlock (aesKeys (List.range 32)) (leNum ((List.range 16).map (17 * ·)))) = beBytes 16 0x8EA2B7CA516745BFEAFC49904B496089 ∧
    (let k := aesKeys (beBytes 32 0); let c := gcmCrypt k (beBytes 12 0) (beBytes 16 0)
     c = beBytes 16 0xCEA7403D4D606B6E074EC5D3BAF39D18 ∧ gcmTag k (beBytes 12 0) [] c = beBytes 16 0xD0D1C8A799996BF0265B98B5D48AB919) ∧
    xtsEncrypt (beBytes 32 0x2718281828459045235360287471352662497757247093699959574966967627 ++ beBytes 32 0x3141592653589793238462643383279502884197169399375105820974944592) 0xFF
      (List.range 32) = beBytes 32 0x1C3B3A102F770386E4836C99E370CF9BEA00803F5E482357A4AE12D414A3E63B := by decide +kernel

/-- The example of RFC 6979 (A.2.6) for P-384 and SHA-384: the public key, and the signature of "sample". -/
theorem test_p384 : let x := 0x6B9D3DAD2E1B8C1C05B19875B6659F4DE23C3B667BF297BA9AA47740787137D896D5724E4C70A825F872C9EA60D2EDF5
    (Pt.times x base384).affine.1 = 0xEC3A4E415B4E19A4568618029F427FA5DA9A8BC4AE92E02E06AAE5286B300C64DEF8F0EA9055866064A254515480BC13 ∧
    (sign384 x 0x94ED910D1A099DAD3254E9242AE85ABDE4BA15168EAF0CA87A555FD56D10FBCA2907E3E83BA95368623B8C4686915CF9 (sha384 [115, 97, 109, 112, 108, 101])).map BitVec.toNat =
      beBytes 48 0x94EDBB92A5ECB8AAD4736E56C691916B3F88140666CE9FA73D64C4EA95AD133C81A648152E44ACF96E36DD1E80FABE46 ++
      beBytes 48 0x99EF4AEB15F178CEA1FE40DB2603138F130E740A19624526203B6351D0A3A94FA329C145786E679E7B82C71A38628AC8 := by decide +kernel

end Sys2Proof.Tests
end

section
/-!
PROOFS. The stream engine and the local stores: accesses that start where no store lies (R82, R153), and the cores that own the stores' addresses.
-/

namespace Sys2Proof.Machine

/-! ### Where the stores lie -/

/-- The top 512 KiB of an under-core slot are a hole (R82). -/
theorem Region.of_underTop {c off : Nat} (hc : c < 1024) (hlo : 0x180000 ≤ off) (hhi : off < 0x200000) :
    Region.of (0x10000000000 + 0x200000 * c + off) = .hole := by
  have hmod : (0x10000000000 + 0x200000 * c + off - 0x10000000000) % 0x200000 = off := by omega
  have hbm : ¬ 0x10000000000 + 0x200000 * c + off < hbmTop := by unfold hbmTop; omega
  have slots : 0x10000000000 ≤ 0x10000000000 + 0x200000 * c + off ∧ 0x10000000000 + 0x200000 * c + off < 0x10080000000 := by omega
  simp only [Region.of, if_neg hbm, if_pos slots, hmod, if_neg (Nat.not_lt.2 hlo)]

/-- An under-core address lies in the window of the slots, and its slot's number is the core's (R80, R152). -/
theorem Region.of_eq_under {b k o : Nat} (h : Region.of b = .under k o) : b < 0x10080000000 ∧ k = (b - 0x10000000000) / 0x200000 := by
  by_cases slots : 0x10000000000 ≤ b ∧ b < 0x10080000000
  · have hbm : ¬ b < hbmTop := by unfold hbmTop; omega
    simp only [Region.of, if_neg hbm, if_pos slots] at h
    split at h
    · cases h; exact ⟨slots.2, rfl⟩
    · nomatch h
  · simp only [Region.of, if_neg slots] at h
    repeat' split at h
    all_goals nomatch h

/-- A bobbin's address lies in the window of the bobbins, and its place in it is the core's number (R80, R152). -/
theorem Region.of_eq_bobbin {b k o : Nat} (h : Region.of b = .bobbin k o) : b < 0x14020000000 ∧ k = (b - 0x14000000000) / 0x80000 := by
  by_cases bobbins : 0x14000000000 ≤ b ∧ b < 0x14020000000
  · have hbm : ¬ b < hbmTop := by unfold hbmTop; omega
    have slots : ¬ (0x10000000000 ≤ b ∧ b < 0x10080000000) := by omega
    simp only [Region.of, if_neg hbm, if_neg slots, if_pos bobbins] at h
    cases h; exact ⟨bobbins.2, rfl⟩
  · simp only [Region.of, if_neg bobbins] at h
    repeat' split at h
    all_goals nomatch h

/-- The windows of the stores hold a place for each of the 1,024 cores and no more (R24, R80). -/
theorem Region.core_lt_of_store {b k o : Nat} (h : Region.of b = .under k o ∨ Region.of b = .bobbin k o) : k < 1024 := by
  rcases h with h | h
  · obtain ⟨hb, rfl⟩ := Region.of_eq_under h; omega
  · obtain ⟨hb, rfl⟩ := Region.of_eq_bobbin h; omega

/-! ### Accesses that start in a hole -/

/-- A hole refuses every requester (R153). -/
theorem Dev.reachAt_hole {d : Dev} {who : Option Nat} {a : Nat} (h : Region.of a = .hole) : d.reachAt who a = .formatFault := by
  simp only [Dev.reachAt, h]

/-- The interface looks at the first byte first: where it refuses that one, that is the answer, whatever the rest of the access meets (R158). -/
theorem Dev.reachPlain_of_first_refused {d : Dev} {who : Option Nat} {a : Nat} (n : Nat) (h : Dev.refused (d.reachAt who a) = true) :
    d.reachPlain who a n = (d.reachAt who a, a) := by
  have hok : d.reachAt who a ≠ .ok := fun e => by simp [e, Dev.refused] at h
  simp [Dev.reachPlain, Dev.probes, hok, h]

/-- An access of any length that starts in a hole meets FORMAT_FAULT at its own address (R153). -/
theorem Dev.reach_hole {d : Dev} {who : Option Nat} {a : Nat} (n : Nat) (h : Region.of a = .hole) : d.reach who a n = (.formatFault, a) := by
  have hf := Dev.reachAt_hole (d := d) (who := who) h
  simp only [Dev.reach, h, Dev.reachPlain_of_first_refused n (by rw [hf]; rfl), hf]

/-- The interface refuses such an access before it comes to a bond (R40, R153). -/
theorem Dev.reachFrom_hole {d : Dev} {via who : Option Nat} {a : Nat} (n : Nat) (h : Region.of a = .hole) : d.reachFrom via who a n = (.formatFault, a) := by
  simp [Dev.reachFrom, Dev.reach_hole n h, Dev.refused]

/-- A load that starts in a hole completes with FORMAT_FAULT and changes nothing (R153). -/
theorem Work.loadFrom_hole {w : Work} {via who : Option Nat} {a : Nat} (reader n : Nat) (h : Region.of a = .hole) :
    w.loadFrom via who reader a n = (w, .formatFault, a, []) := by
  have hf := Dev.reachFrom_hole (d := w.dev) (via := via) (who := who) n h
  rw [Work.load_refused (by simp [hf]), hf]

/-- A store that starts in a hole completes with FORMAT_FAULT and changes nothing (R153). -/
theorem Work.storeFrom_hole {w : Work} {via who : Option Nat} {a : Nat} (reader : Nat) (bs : List Byte) (h : Region.of a = .hole) :
    w.storeFrom via who reader a bs = (w, .formatFault, a) := by
  have hf := Dev.reach_hole (d := w.dev) (who := who) bs.length h
  rw [Work.store_refused (by simp [hf, Dev.refused]), hf]

/-- Settles O57: the top of a slot is a hole, where loads and stores stop at their first byte; the windows of the stores end with core 1,023's. -/
theorem underCoreHoles : Obligations.UnderCoreHoles := by
  intro w who reader c off n bs
  refine ⟨fun hc hlo hhi => ?_, fun b k o => Region.core_lt_of_store⟩
  have hole := Region.of_underTop hc hlo hhi
  exact ⟨Work.loadFrom_hole reader n hole, Work.storeFrom_hole reader bs hole⟩

end Sys2Proof.Machine
end

section
/-!
PROOFS. YREAD (R144): alone in the sync port it completes at once, with its object's status and value in RD.
-/

namespace Sys2Proof.Machine

/-! ### The word that YREAD writes -/

/-- A field's value fits its width (R5). -/
theorem Dev.get_lt (d : Dev) (f : Fld) (i : Nat) : d.get f i < 2 ^ f.width := Nat.mod_lt _ (Nat.two_pow_pos _)

/-- The status codes are those from 0x00 to 0x0F (R10). -/
theorem Status.code_lt (st : Status) : st.code < 16 := by cases st <;> decide

/-- The word as a number: the value under an OK, and the status above it (R144). -/
theorem readWord_toNat (st : Status) {v : Nat} (hv : v < 2 ^ 32) :
    (Dev.readWord st v).toNat = (if st = .ok then v else 0) + st.code * 2 ^ 32 := by
  have hcode := st.code_lt
  rw [Dev.readWord, BitVec.toNat_ofNat, Nat.mod_eq_of_lt]
  split <;> omega

/-- The word's parts: RD[31:0] the value, zero when the status is not OK, RD[39:32] the status, RD[63:40] zero (R144). -/
theorem readWord_parts (st : Status) {v : Nat} (hv : v < 2 ^ 32) :
    (Dev.readWord st v).toNat % 2 ^ 32 = (if st = .ok then v else 0) ∧ (Dev.readWord st v).toNat / 2 ^ 32 % 256 = st.code ∧
      (Dev.readWord st v).toNat / 2 ^ 40 = 0 := by
  have hcode := st.code_lt
  have hlow : (if st = .ok then v else 0) < 2 ^ 32 := by split <;> omega
  rw [readWord_toNat st hv]
  omega

/-- A status other than OK hides the value (R144). -/
theorem readWord_of_not_ok {st : Status} (v : Nat) (h : st ≠ .ok) : Dev.readWord st v = Dev.readWord st 0 := by
  simp [Dev.readWord, h]

/-! ### The status that YREAD meets -/

/-- What a YREAD of core `c` on object `id` completes with: the object's status, or ISOLATED where no bond port of the core's die is ACTIVE (R13, R40, R140, R144). -/
def Dev.readStatus (d : Dev) (c id : Nat) : Status :=
  let st := d.objStatus (d.partOfCore c) id
  if st = .ok ∧ d.offBond (c / 512) = true then .isolated else st

/-- A YREAD that issue refuses has the status that its object would give it (R140, R198). -/
theorem Dev.objStatus_of_refused {d : Dev} {c id : Nat} {st : Status} (h : d.yRefusal c .read id = some st) :
    d.objStatus (d.partOfCore c) id = st ∧ st ≠ .ok := by
  by_cases hid : 65536 ≤ id
  · obtain rfl : Status.formatFault = st := by simpa [Dev.yRefusal, hid] using h
    simp [Dev.objStatus, hid]
  · by_cases hpart : d.partOfSync id = d.partOfCore c
    · simp [Dev.yRefusal, hid, hpart] at h
    · obtain rfl : Status.partitionDenied = st := by simpa [Dev.yRefusal, hid, hpart] using h
      simp [Dev.objStatus, hid, hpart]

/-- An object whose YREAD issue does not refuse is OK or ISOLATED (R46, R198). -/
theorem Dev.objStatus_of_unrefused {d : Dev} {c id : Nat} (h : d.yRefusal c .read id = none) :
    d.objStatus (d.partOfCore c) id = .ok ∨ d.objStatus (d.partOfCore c) id = .isolated := by
  by_cases hid : 65536 ≤ id
  · simp [Dev.yRefusal, hid] at h
  · by_cases hpart : d.partOfSync id = d.partOfCore c
    · by_cases live : d.objState id = 0 <;> simp [Dev.objStatus, hid, hpart, live]
    · simp [Dev.yRefusal, hid, hpart] at h

/-! ### The head of the sync port -/

/-- With no store outstanding and no unit in its mask, an instruction waits for nothing (R140). -/
theorem Core.drained_of_no_stores {k : Core} (n : Nat) (h : k.sq = []) : k.drained 0 n = true := by
  simp [Core.drained, Core.unitsDone, h]

/-- A port with nothing in it sends nothing. -/
theorem Dev.pumpY_empty {d : Dev} {c : Nat} (n : Nat) (h : (d.core c).yq = []) : d.pumpY n c = d := by
  cases n <;> simp [Dev.pumpY, h]

/-- A YREAD that completes writes RD and leaves the port; its core was not stalled (R144). -/
theorem Dev.yFinish_read {d : Dev} {c : Nat} {k : Core} {y : YOp} {t : List YOp} (v : Word) (hq : k.yq = y :: t) (hy : y.kind = .read) :
    (d.setCore c k).yFinish c v = d.setCore c { k.setReg y.rd v with yq := t } := by
  simp [Dev.yFinish, Dev.modCore, hq, hy]

/-- A YREAD at the head of the port that waits for nothing completes: refused at issue, cut off by its die's bonds, or answered by its object (R13, R40, R140, R144). -/
theorem Dev.pumpY_read {d : Dev} {c : Nat} {y : YOp} {t : List YOp} (n : Nat) (hq : (d.core c).yq = y :: t) (hy : y.kind = .read)
    (hsent : y.sent = false) (hdrained : (d.core c).drained y.mask y.seq = true) (href : y.refused = d.yRefusal c .read y.id) :
    d.pumpY (n + 1) c = Dev.pumpY n c (d.yFinish c (Dev.readWord (d.readStatus c y.id) (d.objValue y.id))) := by
  cases refusal : d.yRefusal c .read y.id with
  | some st =>
    obtain ⟨hst, hbad⟩ := Dev.objStatus_of_refused refusal
    simp [Dev.pumpY, Dev.readStatus, hq, hsent, hdrained, hy, href, refusal, hst, hbad, readWord_of_not_ok]
  | none =>
    cases off : d.offBond (c / 512) with
    | true =>
      have hst : d.readStatus c y.id = .isolated := by
        rcases Dev.objStatus_of_unrefused refusal with h | h <;> simp [Dev.readStatus, off, h]
      simp [Dev.pumpY, hq, hsent, hdrained, hy, href, refusal, off, hst, readWord_of_not_ok]
    | false => simp [Dev.pumpY, Dev.readStatus, hq, hsent, hdrained, hy, href, refusal, off]

/-- A YREAD that stands alone in the port of a core without outstanding stores completes, and the port is empty again (R140, R144). -/
theorem Dev.pump_lone_read {d : Dev} {c : Nat} {k : Core} {y : YOp} (hq : k.yq = [y]) (hy : y.kind = .read) (hsent : y.sent = false)
    (hmask : y.mask = 0) (hsq : k.sq = []) (href : y.refused = d.yRefusal c .read y.id) :
    (d.setCore c k).pump c = d.setCore c { k.setReg y.rd (Dev.readWord (d.readStatus c y.id) (d.objValue y.id)) with yq := [] } := by
  have hdrained : ((d.setCore c k).core c).drained y.mask y.seq = true := by
    rw [Dev.core_setCore, hmask]; exact Core.drained_of_no_stores _ hsq
  rw [Dev.pump, Dev.pumpY_read 16 (by simpa using hq) hy hsent hdrained href, Dev.yFinish_read _ hq hy, Dev.pumpY_empty 16 (by simp)]
  rfl

/-! ### The instruction -/

/-- Past the classes M and V a word names its RD (R117, R125). -/
theorem rd_mem_namedRegs {w : Word} (h : 0x5B < Op.top w) : Op.rd w ∈ namedRegs w := by
  have hM : Op.top w ≠ 0x20 ∧ Op.top w ≠ 0x21 := by omega
  have hV : ¬ (0x40 ≤ Op.top w ∧ Op.top w ≤ 0x5B) := by omega
  simp [namedRegs, hM, hV]

/-- Past the classes M and V an instruction issues only while its RD is free (R117). -/
theorem rd_not_pending {s : State} {c : Fin 1024} {w : Word} {top : Nat} (h : Issues s c w top) (htop : 0x5B < top) : Op.rd w ∉ (s.dev.core c).pending := by
  obtain ⟨-, -, -, -, -, -, -, rfl, -, free, -⟩ := h
  exact free _ (rd_mem_namedRegs htop)

/-- A register that was free, becomes pending and is written leaves the pending ones as they were (R117). -/
theorem Core.pending_await_setReg {k : Core} {i : Nat} (v : Word) (h : i ∉ k.pending) : ((k.await i).setReg i v).pending = k.pending := by
  have hfree : k.pending.filter (· ≠ i) = k.pending := List.filter_eq_self.2 fun r hr => decide_eq_true fun e => h (e ▸ hr)
  by_cases hi : i = 0 <;> simpa [Core.await, Core.setReg, hi] using hfree

/-- YREAD as it enters core `c`'s sync port (R118, R140, R144). -/
def Dev.readOp (d : Dev) (c : Nat) (w : Word) : YOp :=
  let k := d.core c
  { seq := k.seq, kind := .read, id := k.objectId w, x := 0, rd := Op.rd w, eq := decide (Op.fn w = 1), timeout := Op.timeout w
    refused := d.yRefusal c .read (k.objectId w) }

/-- A core that has put `y` into its sync port and goes on: one number is taken and RD is pending (R117, R118). -/
def Core.entered (k : Core) (y : YOp) : Core := { (k.await y.rd).bumpSeq.advance with yq := k.yq ++ [y] }

/-- YREAD issues into a sync port with room; the port then sends what it can (R118, R140). -/
theorem issueY_read {s : State} {c : Fin 1024} {w : Word} (issues : Issues s c w 0x83) (room : (s.dev.core c).yq.length < 16) :
    s.dev.issueY c w 0x83 .read 0 0 none = (s.dev.setCore c ((s.dev.core c).entered (s.dev.readOp c w))).pump c := by
  rw [Dev.issueY, issue_go issues, if_neg (Nat.not_le.2 room)]
  rfl

/-- The result `v` comes to a core whose sync port was empty before `y` entered it: RD is written, and the port is empty again (R117, R140). -/
theorem Core.entered_setReg {k : Core} {y : YOp} (v : Word) (hfree : y.rd ∉ k.pending) (hyq : k.yq = []) :
    { (k.entered y).setReg y.rd v with yq := [] } =
      { k.advance with sregs := if y.rd = 0 then k.sregs else k.sregs.set y.rd v, pending := k.pending, seq := k.seq + 1 } := by
  have hpending := Core.pending_await_setReg v hfree
  simp only [Core.entered, Core.setReg, Core.await, Core.bumpSeq, Core.advance] at hpending ⊢
  rw [hpending, hyq]

/-- YREAD in an empty sync port after every store: RD takes the word of the object's status and value, and the core goes on (R140, R144). -/
theorem exec_yread {s : State} {c : Fin 1024} {w : Word} (issues : Issues s c w 0x83) (hyq : (s.dev.core c).yq = []) (hsq : (s.dev.core c).sq = []) :
    let k := s.dev.core c
    let v := Dev.readWord (s.dev.readStatus c (k.objectId w)) (s.dev.objValue (k.objectId w))
    exec (.yread c w) s = .next (s.withCore c { k.advance with
      sregs := if Op.rd w = 0 then k.sregs else k.sregs.set (Op.rd w) v, pending := k.pending, seq := k.seq + 1 }) := by
  intro k v
  have rdFree : (s.dev.readOp c w).rd ∉ k.pending := rd_not_pending issues (by decide)
  have alone : (k.entered (s.dev.readOp c w)).yq = [s.dev.readOp c w] := by simp [Core.entered, k, hyq]
  have answered := Dev.pump_lone_read (d := s.dev) (c := c) alone rfl rfl rfl hsq rfl
  calc exec (.yread c w) s
      = .next (s.on fun d => d.issueY c w 0x83 .read 0 0 none) :=
          runDev_of_released (f := fun d => d.issueY c w 0x83 .read 0 0 none) issues.1
    _ = .next (s.on fun d => (d.setCore c (k.entered (d.readOp c w))).pump c) := by
      rw [State.on, issueY_read issues (by simp [hyq])]; rfl
    _ = _ := by
      rw [State.on, answered, Core.entered_setReg _ rdFree hyq]; rfl

/-- Settles O12: the word that YREAD writes is made of the status that it meets and of its object's value, which has 32 bits. -/
theorem syncReadResult : Obligations.SyncReadResult := by
  intro s c w k id st issues hyq hsq
  have hv : s.dev.objValue id < 2 ^ 32 := Dev.get_lt _ _ _
  exact ⟨_, exec_yread issues hyq hsq, readWord_parts st hv⟩

end Sys2Proof.Machine
end

section
/-!
PROOFS. HBM and address map: which partition holds an HBM address, and whom HBM answers (R179).
-/

namespace Sys2Proof.Machine

/-! ### Who holds an HBM address -/

/-- Partition `p` has a valid range, in units of 16 GiB, and HBM address `a` lies in it (R179). -/
def Dev.HoldsHbm (d : Dev) (p a : Nat) : Prop :=
  d.isSet F.HBM_PART_VALID p = true ∧ d.get F.HBM_PART_BASE p * 2 ^ 34 ≤ a ∧ a < (d.get F.HBM_PART_BASE p + d.get F.HBM_PART_SIZE p) * 2 ^ 34

/-- The test that `Dev.partOfHbm` makes of a partition compares whole units; it passes where the range holds the address. -/
theorem Dev.holdsHbm_iff (d : Dev) (p a : Nat) :
    (d.isSet F.HBM_PART_VALID p && decide (d.get F.HBM_PART_BASE p ≤ a / 2 ^ 34) &&
      decide (a / 2 ^ 34 < d.get F.HBM_PART_BASE p + d.get F.HBM_PART_SIZE p)) = true ↔ d.HoldsHbm p a := by
  simp only [Bool.and_eq_true, decide_eq_true_eq, and_assoc, Dev.HoldsHbm, Nat.le_div_iff_mul_le (Nat.two_pow_pos 34),
    Nat.div_lt_iff_lt_mul (Nat.two_pow_pos 34)]

/-- The partition found for an address holds it. -/
theorem Dev.holdsHbm_of_partOfHbm {d : Dev} {p a : Nat} (h : d.partOfHbm a = some p) : d.HoldsHbm p a := by
  have passes := List.find?_some h
  exact (d.holdsHbm_iff p a).1 passes

/-- No partition is found for an address exactly where none of the four holds it. -/
theorem Dev.partOfHbm_eq_none_iff {d : Dev} {a : Nat} : d.partOfHbm a = none ↔ ∀ p < 4, ¬ d.HoldsHbm p a := by
  simp only [Dev.partOfHbm, List.find?_eq_none, List.mem_range, Dev.holdsHbm_iff]

/-! ### Whom HBM answers -/

/-- The addresses below the top of HBM name its bytes (R152). -/
theorem Region.of_hbm {a : Nat} (h : a < hbmTop) : Region.of a = .hbm a := if_pos h

/-- Of two conditions, the one that counts is one of them (R12). -/
theorem Status.lowest_eq_or (x y : Status) : x.lowest y = x ∨ x.lowest y = y := by
  unfold Status.lowest
  split
  · exact .inr rfl
  · split
    · exact .inl rfl
    · split
      · exact .inl rfl
      · exact .inr rfl

/-- A channel does not ask who holds the address: it answers OK or ISOLATED (R172, R174). -/
theorem Dev.channelStatus_ne_denied (d : Dev) (ch : Nat) : d.channelStatus ch ≠ .partitionDenied := by
  unfold Dev.channelStatus
  split <;> decide

/-- A key does not ask either: it answers OK or KEY_REVOKED (R181). -/
theorem Dev.keyStatus_ne_denied (d : Dev) (who : Option Nat) : d.keyStatus who ≠ .partitionDenied := by
  unfold Dev.keyStatus
  split
  · split <;> decide
  · decide

/-- HBM denies exactly the requesters that are not the address's holder; an address without a holder denies the partitions (R179). -/
theorem Dev.reachAt_hbm_eq_denied_iff {d : Dev} {who : Option Nat} {a : Nat} (h : a < hbmTop) :
    d.reachAt who a = .partitionDenied ↔ d.partOfHbm a ≠ who := by
  simp only [Dev.reachAt, Region.of_hbm h]
  split
  · next foreign => exact iff_of_true rfl foreign
  · next own =>
    refine iff_of_false ?_ own
    rcases Status.lowest_eq_or (d.channelStatus (d.channelOf a)) (d.keyStatus who) with e | e <;> rw [e]
    · exact d.channelStatus_ne_denied _
    · exact d.keyStatus_ne_denied who

/-- Settles O58: HBM denies every requester but the address's holder; a holder is a partition whose valid range the address lies in, and an address without
one lies in no valid range. -/
theorem hbmRanges : Obligations.HbmRanges := by
  intro d who a h
  refine ⟨Dev.reachAt_hbm_eq_denied_iff h, fun p => Dev.holdsHbm_of_partOfHbm, fun unheld p hp valid => ?_⟩
  have outside : ¬ d.HoldsHbm p a := Dev.partOfHbm_eq_none_iff.1 unheld p hp
  exact (Nat.lt_or_ge a _).imp_right fun hlo => Nat.not_lt.1 fun hhi => outside ⟨valid, hlo, hhi⟩

end Sys2Proof.Machine
end
